-- ==== Sys2Proof/Word.lean ====
section
/-! DEFINITION. The word types of the Wehal and their plainest arithmetic: a byte, a 64-bit register or scalar,
a 32-bit element, and the completion codes' carrier. Bits are numbered from 0 at the least significant bit (R7). -/

namespace Sys2Proof

/-- One byte of memory. -/
abbrev Byte := BitVec 8

/-- A 64-bit register, scalar register or memory doubleword (R10, R266). -/
abbrev Word := BitVec 64

/-- The bit pattern of an FP32 datum (R48). -/
abbrev F32 := BitVec 32

/-- The 64 bytes of a tensor descriptor as one little-endian number (R204, R8). -/
abbrev Desc := BitVec 512

end Sys2Proof
end

