-- ==== Sys2Proof/Syntax.lean ====
section
/-! DEFINITION. The commands of the Wehal block: the rows of spec/opcode_table.json with their operands, and the types
of those operands. The table gives no row bits, so a command carries its operands decoded (log entry 3). -/

namespace Sys2Proof

/-- A unit that runs Ikid (R264): the sequencer of a logical core, or a control processor. -/
inductive SeqId where
  | core (c : Fin 800)
  | cp (n : Fin 4)
  deriving DecidableEq, Repr

/-- What a SECDED check finds (R198, R245, R269): nothing, a corrected single-bit error, or an uncorrectable one. -/
inductive Ecc where
  | clean | corrected | uncorrectable
  deriving DecidableEq, Repr

/-- What a mesh packet belongs to (R245): a tensor instruction by its handle, the next global load of a sequencer, a
command by queue and index, an exchange block by ring and index, an invocation by its engine, or nothing that completes. -/
inductive PacketOwner where
  | nothing
  | work (u : SeqId) (h : BitVec 5)
  | load (u : SeqId)
  | command (q : Fin 64) (idx : BitVec 32)
  | block (r : Fin 8) (idx : BitVec 32)
  | update (m : Fin 16)
  deriving DecidableEq, Repr

/-- What every Ikid instruction carries: the unit that issues it, its predicate field (R270), and what the check bits
of its fetch showed (R269). -/
structure Issue where
  u : SeqId
  neg : Bool
  ps : BitVec 3
  fetch : Ecc
  deriving DecidableEq, Repr

/-- A scalar register s0 to s31 (R266). -/
abbrev SReg := BitVec 5
/-- An address register a0 to a15 (R266). -/
abbrev AReg := BitVec 4
/-- A predicate register p0 to p7 (R266). -/
abbrev PReg := BitVec 3
/-- A descriptor slot d0 to d63 (R266). -/
abbrev Slot := BitVec 6
/-- The IMM field (R271). -/
abbrev Imm := BitVec 32
/-- The OPT field (R290). -/
abbrev Opt := BitVec 18

/-- A register field of class X: any of s, a and p (R273). -/
inductive XReg where
  | s (r : SReg)
  | a (r : AReg)
  | p (r : PReg)
  deriving DecidableEq, Repr

/-- Who waits at a barrier counter. -/
inductive Waiter where
  | seq (u : SeqId)
  | sip (n : Fin 216) (id : Nat)
  /-- a peer's wait, by the link it came on, the peer's device id and its request tag (R412, R423) -/
  | remote (l : Fin 12) (dev : BitVec 12) (tag : BitVec 16)
  /-- a block of the exchange unit at its START counter, by ring (4 to 7 are the collective rings) and index (R365) -/
  | block (r : Fin 8) (idx : BitVec 32)
  deriving DecidableEq, Repr

/-- Where a rope pass comes from: a core's ROP by its handle, or a tile that an edge siphon has staged, by pass. -/
inductive RopeSrc where
  | core (c : Fin 800) (h : BitVec 5)
  | staged (p : Nat)
  deriving DecidableEq, Repr

/-- What a GDDR7 codeword shows when it is read (R391): the symbols in error by memory die, and the dies whose erasure
leaves a consistent codeword, which the code's arithmetic decides (log entry 20). -/
structure CodeErr where
  dies : List (Fin 16 × Fin 10)
  consistent : List (Fin 16)
  deriving DecidableEq, Repr

/-- A write of some bytes of a codeword or line: the offset of the first, and the bytes. -/
structure Piece where
  off : Nat
  bytes : List (BitVec 8)
  deriving DecidableEq, Repr

/-- What a peer asks for at an address (R423): a read of some bytes, a write, an atomic increment of a counter, or a wait
at a counter for a target; and what the master asks for over the management channel (R420): a write of control-cluster
SRAM, and a COMMIT. -/
inductive RemoteOp where
  | read (n : Fin 1025)
  | write (bytes : List (BitVec 8))
  | add (inc : BitVec 32)
  | wait (target : BitVec 32)
  | push (bytes : List (BitVec 8))
  | commit
  deriving DecidableEq, Repr

/-- A remote request as its packet header carries it (R412). -/
structure Remote where
  addr : BitVec 64
  hops : BitVec 2
  src : BitVec 12
  tag : BitVec 16
  op : RemoteOp
  deriving DecidableEq, Repr

/-- The answer to a remote request: data or an ack, or a negative response with its completion code (R412, R423). -/
inductive RemoteAns where
  | ack
  | neg (code : BitVec 8)
  deriving DecidableEq, Repr

/-- A hello frame's contents (R417), with the number of the peer's link, which CSL.PEER reports (R433). -/
structure Hello where
  dev : BitVec 12
  lnk : BitVec 4
  session : BitVec 32
  fw : BitVec 32
  profile : BitVec 16
  digest : BitVec 512
  deriving DecidableEq, Repr

/-- A row of an exchange batch (R373): the local index of its expert, its place t * K + r at the source, its bytes. -/
structure XRow where
  expert : Nat
  slot : Nat
  data : List (BitVec 8)
  deriving DecidableEq, Repr

/-- A batch's header at a destination, with the rows that follow it (R373): `dir` is 1 for gradient rows, `h` the
elements of a row. -/
structure XHead where
  src : BitVec 12
  tag : BitVec 16
  step : BitVec 64
  layer : Fin 64
  half : Bool
  dir : Bool
  h : Nat
  rows : List XRow
  deriving DecidableEq, Repr

/-- What comes back to the source of a batch (R374, R382): an answer row, or a destination's refusal of the batch. -/
inductive XAns where
  | row (slot : Nat) (data : List (BitVec 8))
  | refused (dev : BitVec 12)
  deriving DecidableEq, Repr

/-- A contribution to a collective (R427 to R431): `second` is the phase that moves reduced shards of an ALL_REDUCE. -/
structure CollPart where
  src : BitVec 12
  coll : BitVec 32
  step : BitVec 64
  second : Bool
  rows : List (List (BitVec 8))
  tscale : BitVec 32
  touch : List Nat
  deriving DecidableEq, Repr

/-- What a member receives for a collective: a contribution, or the refusal of its own by another member (R426). -/
inductive CollMsg where
  | part (p : CollPart)
  | refused (coll : BitVec 32) (step : BitVec 64)
  deriving DecidableEq, Repr

/-- How a management message of R507 arrives: in the BAR2 request buffer (R506), or over MCTP with its bytes (R505). -/
inductive Via where
  | mailbox
  | mctp (msg : List (BitVec 8))
  deriving DecidableEq, Repr

/-- Who asks for a report or the certificates, or brings a debug token (R480, R483): a management message, an object in
the DOE mailbox, the peer of a link, or a TAP data register; the last three with the bytes that they carry. -/
inductive Asker where
  | msg (v : Via)
  | doe (body : List (BitVec 8))
  | link (l : Fin 12) (body : List (BitVec 8))
  | tap (body : List (BitVec 8))
  deriving DecidableEq, Repr

/-- The part of a register that an access reaches (R10): 64 bits, or one half. -/
inductive Part where
  | whole | low | high
  deriving DecidableEq, Repr

/-- A host access to memory: a read of `n` bytes or a write. -/
inductive HostAcc where
  | read (n : Fin 129)
  | write (bs : List (BitVec 8))
  deriving DecidableEq, Repr

/-- A BAR of the function (R455). -/
inductive Bar where
  | bar0 | bar2 | bar4
  deriving DecidableEq, Repr

/-- A device access to host memory that can fail in flight (R464): the fetch of a queue's next entry, the read of a PROG
command's arguments, a COPY after `n` elements, a transfer at a virtual address, or the global access of a sequencer. -/
inductive DmaAt where
  | fetch (q : Fin 64)
  | args (q : Fin 64) (idx : BitVec 32)
  | copy (q : Fin 64) (idx : BitVec 32) (n : BitVec 32) (wr : Bool)
  | transfer (n : Fin 216) (id : Nat) (va : BitVec 48) (wr : Bool)
  | global (u : SeqId) (va : BitVec 48) (wr : Bool)
  deriving DecidableEq, Repr

/-- What link training and the host's configuration give the endpoint (R453 to R455, R465): the width, the generation code,
FLIT mode, Bus Master Enable, the MSI-X function mask, and log2 of the size of BAR4 less 30. -/
structure HostCfg where
  width : BitVec 5
  gen : BitVec 2
  flit : Bool
  bme : Bool
  fnMask : Bool
  bar4 : Fin 11
  deriving DecidableEq, Repr

/-- What the governor and the management processor sample (R488, R509): the input power in W, the 64 temperatures in
1/16 degree, voltage and power of the five rails in mV and mW, and the input voltage and current in mV and mA. -/
structure Sensors where
  power : BitVec 16
  temps : List (BitVec 16)
  rails : List (BitVec 16 × BitVec 32)
  input : BitVec 32 × BitVec 32
  deriving DecidableEq, Repr

/-- The straps as both pulls show them (R501), MASTER_SEL as bit 12 above DEVID[11:0]: which are fitted, and the levels of
those. -/
structure Straps where
  fitted : BitVec 13
  level : BitVec 13
  deriving DecidableEq, Repr

/-- The commands of the block: one constructor per row of spec/opcode_table.json. -/
inductive Instr where
  /-- `ADD` (R287): Scalar add of two S registers into rd, wrapping modulo 2^64. -/
  | add (w : Issue) (rd ra rb : SReg)
  /-- `SUB` (R287): Scalar subtract of rb from ra into rd. -/
  | sub (w : Issue) (rd ra rb : SReg)
  /-- `AND` (R287): Bitwise AND of two S registers. -/
  | and (w : Issue) (rd ra rb : SReg)
  /-- `OR` (R287): Bitwise OR of two S registers. -/
  | or (w : Issue) (rd ra rb : SReg)
  /-- `XOR` (R287): Bitwise XOR of two S registers. -/
  | xor (w : Issue) (rd ra rb : SReg)
  /-- `SLL` (R287): Shift left logical, using bits [5:0] of the shift amount. -/
  | sll (w : Issue) (rd ra rb : SReg)
  /-- `SRL` (R287): Shift right logical. -/
  | srl (w : Issue) (rd ra rb : SReg)
  /-- `SRA` (R287): Shift right arithmetic. -/
  | sra (w : Issue) (rd ra rb : SReg)
  /-- `MUL` (R287): Low 64 bits of the product of two S registers. -/
  | mul (w : Issue) (rd ra rb : SReg)
  /-- `MULHU` (R287): High 64 bits of the unsigned product. -/
  | mulhu (w : Issue) (rd ra rb : SReg)
  /-- `DIVU` (R285): Unsigned division, with the division-by-zero result of the division table. -/
  | divu (w : Issue) (rd ra rb : SReg)
  /-- `REMU` (R285): Unsigned remainder. -/
  | remu (w : Issue) (rd ra rb : SReg)
  /-- `DIV` (R285): Signed division rounded toward zero, with the defined special cases. -/
  | div (w : Issue) (rd ra rb : SReg)
  /-- `REM` (R285): Signed remainder with the sign of the dividend. -/
  | rem (w : Issue) (rd ra rb : SReg)
  /-- `MIN` (R287): Signed minimum of two S registers. -/
  | min (w : Issue) (rd ra rb : SReg)
  /-- `MAX` (R287): Signed maximum of two S registers. -/
  | max (w : Issue) (rd ra rb : SReg)
  /-- `ADDI` (R287): Add with a sign-extended immediate. -/
  | addi (w : Issue) (rd ra : SReg) (imm : Imm)
  /-- `SUBI` (R287): Subtract a sign-extended immediate. -/
  | subi (w : Issue) (rd ra : SReg) (imm : Imm)
  /-- `ANDI` (R287): Bitwise AND with an immediate. -/
  | andi (w : Issue) (rd ra : SReg) (imm : Imm)
  /-- `ORI` (R287): Bitwise OR with an immediate. -/
  | ori (w : Issue) (rd ra : SReg) (imm : Imm)
  /-- `XORI` (R287): Bitwise XOR with an immediate. -/
  | xori (w : Issue) (rd ra : SReg) (imm : Imm)
  /-- `SLLI` (R287): Shift left logical by an immediate amount. -/
  | slli (w : Issue) (rd ra : SReg) (imm : Imm)
  /-- `SRLI` (R287): Shift right logical by an immediate amount. -/
  | srli (w : Issue) (rd ra : SReg) (imm : Imm)
  /-- `SRAI` (R287): Shift right arithmetic by an immediate amount. -/
  | srai (w : Issue) (rd ra : SReg) (imm : Imm)
  /-- `MULI` (R287): Low 64 bits of the product with an immediate. -/
  | muli (w : Issue) (rd ra : SReg) (imm : Imm)
  /-- `MULHUI` (R287): High 64 bits of the unsigned product with an immediate. -/
  | mulhui (w : Issue) (rd ra : SReg) (imm : Imm)
  /-- `DIVUI` (R285): Unsigned division by an immediate. -/
  | divui (w : Issue) (rd ra : SReg) (imm : Imm)
  /-- `REMUI` (R285): Unsigned remainder by an immediate. -/
  | remui (w : Issue) (rd ra : SReg) (imm : Imm)
  /-- `DIVI` (R285): Signed division by an immediate. -/
  | divi (w : Issue) (rd ra : SReg) (imm : Imm)
  /-- `REMI` (R285): Signed remainder by an immediate. -/
  | remi (w : Issue) (rd ra : SReg) (imm : Imm)
  /-- `MINI` (R287): Signed minimum with an immediate. -/
  | mini (w : Issue) (rd ra : SReg) (imm : Imm)
  /-- `MAXI` (R287): Signed maximum with an immediate. -/
  | maxi (w : Issue) (rd ra : SReg) (imm : Imm)
  /-- `CEQ` (R287): Sets a predicate to ra equal to rb. -/
  | ceq (w : Issue) (pd : PReg) (ra rb : SReg)
  /-- `CNE` (R287): Sets a predicate to ra not equal to rb. -/
  | cne (w : Issue) (pd : PReg) (ra rb : SReg)
  /-- `CLT` (R287): Sets a predicate to the signed comparison ra < rb. -/
  | clt (w : Issue) (pd : PReg) (ra rb : SReg)
  /-- `CLTU` (R287): Sets a predicate to the unsigned comparison ra < rb. -/
  | cltu (w : Issue) (pd : PReg) (ra rb : SReg)
  /-- `CGE` (R287): Sets a predicate to the signed comparison ra >= rb. -/
  | cge (w : Issue) (pd : PReg) (ra rb : SReg)
  /-- `CGEU` (R287): Sets a predicate to the unsigned comparison ra >= rb. -/
  | cgeu (w : Issue) (pd : PReg) (ra rb : SReg)
  /-- `CEQI` (R287): Compares ra for equality with an immediate into a predicate. -/
  | ceqi (w : Issue) (pd : PReg) (ra : SReg) (imm : Imm)
  /-- `CNEI` (R287): Compares ra for inequality with an immediate. -/
  | cnei (w : Issue) (pd : PReg) (ra : SReg) (imm : Imm)
  /-- `CLTI` (R287): Signed less-than comparison with an immediate. -/
  | clti (w : Issue) (pd : PReg) (ra : SReg) (imm : Imm)
  /-- `CLTUI` (R287): Unsigned less-than comparison with an immediate. -/
  | cltui (w : Issue) (pd : PReg) (ra : SReg) (imm : Imm)
  /-- `CGEI` (R287): Signed greater-or-equal comparison with an immediate. -/
  | cgei (w : Issue) (pd : PReg) (ra : SReg) (imm : Imm)
  /-- `CGEUI` (R287): Unsigned greater-or-equal comparison with an immediate. -/
  | cgeui (w : Issue) (pd : PReg) (ra : SReg) (imm : Imm)
  /-- `PAND` (R287): Predicate AND. -/
  | pand (w : Issue) (pd pa pb : PReg)
  /-- `POR` (R287): Predicate OR. -/
  | por (w : Issue) (pd pa pb : PReg)
  /-- `PXOR` (R287): Predicate XOR. -/
  | pxor (w : Issue) (pd pa pb : PReg)
  /-- `PNOT` (R287): Predicate NOT. -/
  | pnot (w : Issue) (pd pa : PReg)
  /-- `MOV` (R287): Copies one register to another across the s, a and p classes under the register width rules. -/
  | mov (w : Issue) (rd ra : XReg)
  /-- `LI` (R287): Loads a sign-extended immediate into a register. -/
  | li (w : Issue) (rd : XReg) (imm : Imm)
  /-- `LIH` (R287): Loads an immediate into the upper 32 bits of a register, keeping the lower bits. -/
  | lih (w : Issue) (rd : XReg) (imm : Imm)
  /-- `SEL` (R287): Selects ra or rb into rd by a predicate. -/
  | sel (w : Issue) (rd ra rb : SReg) (pc : PReg)
  /-- `AADD` (R287): Adds an immediate to an address register modulo 2^48. -/
  | aadd (w : Issue) (ad aa : AReg) (imm : Imm)
  /-- `AIDX` (R287): Adds an S register to an address register modulo 2^48. -/
  | aidx (w : Issue) (ad aa : AReg) (rb : SReg)
  /-- `ASCL` (R287): Multiplies an S register by an unsigned immediate into an address register. -/
  | ascl (w : Issue) (ad : AReg) (ra : SReg) (imm : Imm)
  /-- `LDW` (R280): Loads a zero-extended word from the own chamber or control-cluster SRAM by word index. -/
  | ldw (w : Issue) (rd : SReg) (aa : AReg) (imm : Imm)
  /-- `LDWS` (R280): Loads a sign-extended word by word index. -/
  | ldws (w : Issue) (rd : SReg) (aa : AReg) (imm : Imm)
  /-- `LDD` (R280): Loads two consecutive words at an even word index. -/
  | ldd (w : Issue) (rd : SReg) (aa : AReg) (imm : Imm)
  /-- `STW` (R280): Stores the low word of a register by word index. -/
  | stw (w : Issue) (rd : SReg) (aa : AReg) (imm : Imm)
  /-- `STD` (R280): Stores a register as two words at an even word index. -/
  | std (w : Issue) (rd : SReg) (aa : AReg) (imm : Imm)
  /-- `GLW` (R281): Loads 32 bits from a job virtual address, translated and checked, or a register on a control processor. -/
  | glw (w : Issue) (rd : SReg) (aa : AReg) (imm : Imm)
  /-- `GLD` (R281): Loads 64 bits from a job virtual address. -/
  | gld (w : Issue) (rd : SReg) (aa : AReg) (imm : Imm)
  /-- `GSTW` (R281): Posted 32-bit store to a job virtual address. -/
  | gstw (w : Issue) (rd : SReg) (aa : AReg) (imm : Imm)
  /-- `GST` (R281): Posted 64-bit store to a job virtual address. -/
  | gst (w : Issue) (rd : SReg) (aa : AReg) (imm : Imm)
  /-- `BR` (R287): Branches by a signed offset in instructions. -/
  | br (w : Issue) (imm : Imm)
  /-- `BRL` (R287): Branches and writes the return index to a register. -/
  | brl (w : Issue) (rd : SReg) (imm : Imm)
  /-- `JR` (R287): Jumps to the index held in a register. -/
  | jr (w : Issue) (ra : SReg)
  /-- `BDEC` (R287): Decrements a register and branches while it is not zero. -/
  | bdec (w : Issue) (rd : SReg) (imm : Imm)
  /-- `WAIT` (R278): Waits for a handle to be DONE, returns its code and frees it, or returns 0xFF for a FREE handle. -/
  | wait (w : Issue) (rd : SReg) (h : BitVec 5)
  /-- `WAITM` (R278): Waits for every handle of a mask, frees the DONE ones and returns the code of highest rank. -/
  | waitm (w : Issue) (rd : SReg) (m : Imm)
  /-- `HTST` (R278): Sets a predicate to whether a handle is not BUSY. -/
  | htst (w : Issue) (pd : PReg) (h : BitVec 5)
  /-- `HTSTM` (R278): Sets a predicate to whether no handle of a mask is BUSY. -/
  | htstm (w : Issue) (pd : PReg) (m : Imm)
  /-- `NOP` (R287): Does nothing. -/
  | nop (w : Issue)
  /-- `END` (R287): Waits until no handle is BUSY, frees all handles and ends the program with the code of highest rank of its instructions. -/
  | endProg (w : Issue)
  /-- `SYSR` (R288): Reads a system register into rd, faulting on an undefined number. -/
  | sysr (w : Issue) (rd : SReg) (n : Imm)
  /-- `LDS` (R87): Issues a stationary load without streaming, in the dense issue order. -/
  | lds (w : Issue) (fd : SReg) (d1 : Slot) (opt : Opt)
  /-- `MMA` (R298): Issues a dense product with its operand checks, accumulator controls and optional secondary destination and gather. -/
  | mma (w : Issue) (fd : SReg) (d1 d2 d3 d4 : Slot) (opt : Opt)
  /-- `MMAT` (R115): Issues a dense product with a transposed stationary load for dgrad. -/
  | mmat (w : Issue) (fd : SReg) (d1 d2 d3 d4 : Slot) (opt : Opt)
  /-- `WGR` (R117): Issues a wgrad product with masks, SR rounding and touched-list reporting. -/
  | wgr (w : Issue) (fd : SReg) (d1 d2 d3 d4 : Slot) (opt : Opt)
  /-- `CVT` (R299): Converts a source tensor into a destination format on the output converter, with optional T2 row scales. -/
  | cvt (w : Issue) (fd : SReg) (d1 d2 : Slot) (opt : Opt)
  /-- `SCL_READ` (R300): Reads T, MARGIN or CTRL of an amax slot into a chamber word. -/
  | sclRead (w : Issue) (fd : SReg) (d1 : Slot) (r4 : SReg) (field : BitVec 2)
  /-- `SCL_WRITE` (R300): Writes T, MARGIN or CTRL of an amax slot from a register, clamped. -/
  | sclWrite (w : Issue) (fd : SReg) (d1 : Slot) (r4 : SReg) (field : BitVec 2)
  /-- `GTH` (R134): Gathers source rows by an index list into output rows, filling out-of-range positions. -/
  | gth (w : Issue) (fd : SReg) (d1 d2 d3 : Slot) (opt : Opt)
  /-- `SCT` (R138): Scatters input rows to destination rows by an index list, the highest position winning. -/
  | sct (w : Issue) (fd : SReg) (d1 d2 d3 : Slot) (opt : Opt)
  /-- `SCA` (R140): Scatter-adds input rows into destination rows in ascending list position with one rounding per addition. -/
  | sca (w : Issue) (fd : SReg) (d1 d2 d3 : Slot) (opt : Opt)
  /-- `MRG_MERGE` (R144): Intersects two index streams by the windowed merge walk and writes a match list and total. -/
  | mrgMerge (w : Issue) (fd : SReg) (d1 d2 d3 : Slot) (r4 : SReg)
  /-- `MRG_BITMAP` (R146): Intersects two bitmaps and writes matches with their packed positions. -/
  | mrgBitmap (w : Issue) (fd : SReg) (d1 d2 d3 : Slot) (r4 : SReg)
  /-- `TOPK` (R148): Selects k columns per row by score plus bias, writing indices and raw scores. -/
  | topk (w : Issue) (fd : SReg) (d1 d2 d3 d4 : Slot) (opt : Opt)
  /-- `SEG` (R150): Reduces value rows in segments given by an offset list, clamping offsets. -/
  | seg (w : Issue) (fd : SReg) (d1 d2 d3 : Slot) (opt : Opt)
  /-- `CMP` (R165): Compresses a tensor into a tile stream or expands a stream into a dense tensor. -/
  | cmp (w : Issue) (fd : SReg) (d1 d2 : Slot) (opt : Opt)
  /-- `PRN` (R173): Makes the NM forward copy of weights by a selection or a refresh. -/
  | prn (w : Issue) (fd : SReg) (d1 d2 : Slot) (r4 : SReg) (opt : Opt)
  /-- `BAT` (R178): Runs the bat predictor products and group score sums, with optional selection and calibration. -/
  | bat (w : Issue) (fd : SReg) (d1 d2 d3 d4 : Slot) (opt : Opt)
  /-- `XFR_PROG` (R203): Hands a programmed transfer to a siphon with its program slot, driven side and barriers. -/
  | xfrProg (w : Issue) (fd : SReg) (d1 d2 d3 : Slot) (r4 : SReg) (siph : BitVec 8) (slot : BitVec 4) (drv : Bool)
  /-- `XFR_PACK` (R229): Hands a transfer that packs a tile stream into a packed region. -/
  | xfrPack (w : Issue) (fd : SReg) (d1 d2 d3 : Slot) (r4 : SReg) (siph : BitVec 8)
  /-- `XFR_UNPACK` (R229): Hands a transfer that unpacks a packed region into stream slots. -/
  | xfrUnpack (w : Issue) (fd : SReg) (d1 d2 d3 : Slot) (r4 : SReg) (siph : BitVec 8)
  /-- `XFR_ROPE` (R304): Hands an edge siphon a tile to stage and launch down a column rope. -/
  | xfrRope (w : Issue) (fd : SReg) (d1 d2 : Slot) (r4 : SReg) (siph : BitVec 8)
  /-- `ROP` (R305): Sends a rope pass from the issuing core by a rope specification. -/
  | rop (w : Issue) (fd : SReg) (a1 : AReg)
  /-- `BAR_ARRIVE` (R306): Issues a barrier arrival that waits for its named handles and earlier stores. -/
  | barArrive (w : Issue) (fd : SReg) (a1 : AReg) (r2 : SReg) (opt : Opt)
  /-- `BAR_WAIT` (R307): Stops the sequencer until a counter reaches its target in the 2^31 window. -/
  | barWait (w : Issue) (a1 : AReg) (r2 : SReg)
  /-- `FNC` (R308): Fences later tensor instructions behind all earlier ones of the unit. -/
  | fnc (w : Issue)
  /-- `DSC_MAKE` (R309): Builds and checks a descriptor from a build block, writing a code to FD. -/
  | dscMake (w : Issue) (fd : SReg) (d1 : Slot) (a2 : AReg)
  /-- `DSC_LD` (R310): Copies 64 bytes from a word index into a descriptor slot. -/
  | dscLd (w : Issue) (d1 : Slot) (a2 : AReg)
  /-- `DSC_ST` (R310): Copies a descriptor slot to a word index. -/
  | dscSt (w : Issue) (d1 : Slot) (a2 : AReg)
  /-- `DSC_BASE` (R310): Sets the BASE field of a descriptor slot. -/
  | dscBase (w : Issue) (d1 : Slot) (a2 : AReg)
  /-- `POOL_TAKE` (R312): Takes the oldest fitting entry of a pool, waiting while the pool is open and empty of fitting entries. -/
  | poolTake (w : Issue) (fd : SReg) (a1 : AReg) (pool : BitVec 4)
  /-- `POOL_PUT` (R313): Copies a buffer into a pool as one entry, waiting while full, or is cancelled on a closed pool. -/
  | poolPut (w : Issue) (fd : SReg) (a1 : AReg) (pool : BitVec 4)
  /-- `UPD` (R314): Starts an update invocation on the named update engines. -/
  | upd (w : Issue) (fd : SReg) (a1 : AReg) (opt : Opt)
  /-- `CAIRN` (R446): Takes a cairn: pauses the device, writes the image and resumes. -/
  | cairn (w : Issue) (fd : SReg) (a1 : AReg)
  /-- `CAIRN_RESTORE` (R449): A cairn with RESTORE checks the image at SNAP and writes records, segments, pools and step back. -/
  | cairnRestore (w : Issue) (fd : SReg) (a1 : AReg)
  /-- `COMMIT` (R316): Raises the configuration epoch and takes up every shadow value written before it. -/
  | commit (w : Issue) (fd : SReg)
  /-- `FENCE_CFG` (R317): Stops the sequencer until every enabled unit reports the target epoch. -/
  | fenceCfg (w : Issue) (r1 : SReg)
  /-- `LOOP_STEP` (R318): Waits for handles, rolls amax slots, advances cursors and step, loads the next coefficient row and branches. -/
  | loopStep (w : Issue) (rd ra : SReg) (imm : Imm)
  /-- `RUN` (R319): Loads and starts a program on each named core once it runs none, completing when all end. -/
  | run (w : Issue) (fd : SReg) (a1 : AReg)
  /-- `HANDLE_DONE` (R276): A tensor instruction's work ends and its handle becomes DONE with its completion code. -/
  | handleDone (u : SeqId) (h : BitVec 5)
  /-- `DENSE_START` (R79): A dense instruction starts in issue order once its mode and sub-arrays allow. -/
  | denseStart (c : Fin 800) (sa : Fin 4) (feedWait : BitVec 32)
  /-- `STATIONARY_LOAD` (R85): A stationary load begins once the previous instruction's last feed row has passed the top row stage. -/
  | stationaryLoad (c : Fin 800) (sa : Fin 4) (feedWait : BitVec 32)
  /-- `TILE_CONVERT` (R98): A tile whose rows have reached the accumulators is converted, retried or exhausted and written. -/
  | tileConvert (c : Fin 800) (sa : Fin 4) (convWait : BitVec 32)
  /-- `TILE_RECOMPUTE` (R100): A tile with an infinite accumulator is recomputed with lowered inputs once its array is free. -/
  | tileRecompute (c : Fin 800) (sa : Fin 4)
  /-- `SPARSE_START` (R129): A sparse instruction starts in issue order once its unit is free. -/
  | sparseStart (c : Fin 800)
  /-- `CHAMBER_ACCESS` (R194): A bank serves one access per beat in arrival order, atomically per row. -/
  | chamberAccess (c : Fin 800) (cls : Fin 7) (load : Bool) (off : BitVec 21) (len : Fin 129) (wr : Option (List (Option Byte))) (waited : Bool) (found : List Ecc)
  /-- `TRANSFER_START` (R236): A siphon starts a transfer in issue order, after fences and within its limits, checking its program. -/
  | transferStart (n : Fin 216) (u : SeqId)
  /-- `SIP_LOOP` (R218): Siphon program loop closing instruction. -/
  | sipLoop (n : Fin 216) (id : Nat)
  /-- `SIP_ADD` (R220): Siphon instruction that adds to a coordinate or sets it from the index list. -/
  | sipAdd (n : Fin 216) (id : Nat)
  /-- `SIP_MOD` (R218): Siphon instruction that wraps a coordinate. -/
  | sipMod (n : Fin 216) (id : Nat)
  /-- `SIP_REV` (R219): Siphon instruction that toggles reversal of a dimension. -/
  | sipRev (n : Fin 216) (id : Nat)
  /-- `SIP_ROT` (R219): Siphon instruction that sets rotation of a dimension. -/
  | sipRot (n : Fin 216) (id : Nat)
  /-- `SIP_PAD` (R221): Siphon instruction that emits pad elements. -/
  | sipPad (n : Fin 216) (id : Nat)
  /-- `SIP_EMIT` (R221): Siphon instruction that emits data elements with bounds handling. -/
  | sipEmit (n : Fin 216) (id : Nat)
  /-- `SIP_WAITB` (R218): Siphon instruction that advances a barrier target and waits for it. -/
  | sipWaitb (n : Fin 216) (id : Nat)
  /-- `SIP_END` (R218): Siphon instruction that ends the program. -/
  | sipEnd (n : Fin 216) (id : Nat)
  /-- `TRANSFER_COMPLETE` (R225): A transfer completes when its last write is done, with its code and PACK results. -/
  | transferComplete (n : Fin 216) (id : Nat)
  /-- `TLB_WALK_DONE` (R233): A page-table walk completes and fills the siphon TLB. -/
  | tlbWalkDone (n : Fin 216) (va : BitVec 48)
  /-- `TLB_INV` (R234): A write to SIP.TLB_INV drops every siphon TLB entry after translations in flight. -/
  | tlbInv
  /-- `ROPE_LAUNCH` (R248): An edge siphon launches a tile once it is wholly staged and the rope segment is free. -/
  | ropeLaunch (r : RopeSrc)
  /-- `ROPE_TAKE` (R249): A taking core writes the tile's last row and increments its CTR word. -/
  | ropeTake (p : Nat) (stall : BitVec 32)
  /-- `ROPE_PASS_REPORT` (R253): The pass report reaches the issuer and the pass completes. -/
  | ropePassReport (p : Nat)
  /-- `BAR_ARRIVAL_APPLY` (R255): An arrival, once its handles completed, is applied atomically at the counter's home and re-tests watches. -/
  | barArrivalApply (u : SeqId) (h : BitVec 5)
  /-- `BAR_NOTIFY` (R258): A release notification reaches a waiting core or siphon, which then proceeds. -/
  | barNotify (who : Waiter)
  /-- `BAR_POLL_READ` (R259): A waiter that found the watch table full reads the counter again. -/
  | barPollRead (who : Waiter)
  /-- `MESH_PACKET_RECEIVE` (R245): A router receives a flit, correcting or poisoning it. -/
  | meshPacketReceive (c : Fin 800) (from_ : Fin 5) (ch : Fin 4) (dst : Fin 800) (e : Ecc) (owner : PacketOwner)
  /-- `SQ_DOORBELL` (R323): A doorbell write advances the submission tail, is ignored, or stops the queue on overrun. -/
  | sqDoorbell (q : Fin 64) (t : BitVec 32)
  /-- `COMMAND_FETCH` (R325): A control processor fetches a submission entry in turn within its limit. -/
  | commandFetch (n : Fin 4)
  /-- `COMMAND_START` (R325): A fetched command starts in ring order, after earlier commands if FENCE is set. -/
  | commandStart (q : Fin 64)
  /-- `CMD_NOP` (R326): Command that does nothing. -/
  | cmdNop (q : Fin 64) (idx : BitVec 32)
  /-- `PROG` (R329): Command that runs a control-profile program from ENTRY at STEP0. -/
  | prog (q : Fin 64) (idx : BitVec 32)
  /-- `CORES` (R326): Command that launches core programs from a launch block as RUN does. -/
  | cores (q : Fin 64) (idx : BitVec 32)
  /-- `COPY` (R326): Command that copies bytes between local addresses by an edge siphon. -/
  | copy (q : Fin 64) (idx : BitVec 32)
  /-- `POOL_OPEN` (R340): Command that opens a pool. -/
  | poolOpen (q : Fin 64) (idx : BitVec 32)
  /-- `POOL_CLOSE` (R340): Command that closes a pool, releasing waiting takers and putters. -/
  | poolClose (q : Fin 64) (idx : BitVec 32)
  /-- `POOL_DISCARD` (R340): Command that closes a pool and discards its entries. -/
  | poolDiscard (q : Fin 64) (idx : BitVec 32)
  /-- `CANCEL` (R328): Command that cancels a range of commands of a queue and retires their tags. -/
  | cancel (q : Fin 64) (idx : BitVec 32)
  /-- `COMMIT_CMD` (R326): Command that commits an epoch, optionally completing only when every unit has switched. -/
  | commitCmd (q : Fin 64) (idx : BitVec 32)
  /-- `COMPLETION_RECORD_WRITE` (R331): A finished command's record is written once the completion ring has room. -/
  | completionRecordWrite (cq : Fin 64)
  /-- `CQ_HEAD_WRITE` (R331): A completion head write frees ring room, or is ignored if it passes TAIL. -/
  | cqHeadWrite (q : Fin 64) (v : BitVec 64)
  /-- `SQ_CFG_WRITE` (R333): A write of CTL.SQ_CFG starts or stops fetch and clears STOPPED. -/
  | sqCfgWrite (q : Fin 64) (v : BitVec 64)
  /-- `CQ_CFG_WRITE` (R333): A write of CTL.CQ_CFG enables the ring or stops the rings that direct into it. -/
  | cqCfgWrite (q : Fin 64) (v : BitVec 64)
  /-- `EPOCH_SWITCH` (R341): A unit switches to the next epoch at its safe boundary after its old work drains. -/
  | epochSwitch (u : Fin 1068)
  /-- `UPD_ENGINE_START` (R347): An update engine reads and checks the invocation block and copies its schedule row. -/
  | updEngineStart (m : Fin 16) (n : Fin 4)
  /-- `UPD_PHASE1_START` (R361): An engine takes its lent grotto once idle and computes preconditioner roots. -/
  | updPhase1Start (m : Fin 16)
  /-- `UPD_ENGINE_DONE` (R357): An engine finishes its touched units; stamps are written and the list cleared. -/
  | updEngineDone (m : Fin 16)
  /-- `XCH_BLOCK_TAKE` (R364): The exchange unit takes a ring block once the submission counter passes it. -/
  | xchBlockTake (r : Fin 4)
  /-- `XCH_BLOCK_START` (R365): A taken block starts once its START counter and the limits allow. -/
  | xchBlockStart (r : Fin 8)
  /-- `ROUTE` (R369): Exchange operation that computes router probabilities and copies biases. -/
  | route (r : Fin 4) (idx : BitVec 32)
  /-- `DISPATCH` (R371): Exchange operation that admits assignments within capacity and sends token rows. -/
  | dispatch (r : Fin 4) (idx : BitVec 32)
  /-- `COMBINE` (R375): Exchange operation that combines landed answers into the output. -/
  | combine (r : Fin 4) (idx : BitVec 32)
  /-- `COMBINE_B` (R376): Exchange operation that sends gradient rows and forms dP. -/
  | combineB (r : Fin 4) (idx : BitVec 32)
  /-- `GATHER_B` (R376): Exchange operation that sums returned gradient rows into dX. -/
  | gatherB (r : Fin 4) (idx : BitVec 32)
  /-- `ROUTE_B` (R376): Exchange operation that forms the router logit gradient. -/
  | routeB (r : Fin 4) (idx : BitVec 32)
  /-- `XCH_HEADER_RECEIVE` (R373): A destination receives a batch header with per-expert row counts. -/
  | xchHeaderReceive (l : Fin 12) (hd : XHead)
  /-- `XCH_EXPERT_POST` (R373): Once every live header has arrived, rows are placed and pool entries posted. -/
  | xchExpertPost (layer : Fin 64) (half : Bool)
  /-- `XCH_ANSWERS_SEND` (R374): When the expert counter reaches its value, answers are sent to their sources. -/
  | xchAnswersSend (layer : Fin 64) (half : Bool)
  /-- `XCH_ANSWER_RECEIVE` (R381): A source processes an answer row, writing it to RET or discarding a retired tag. -/
  | xchAnswerReceive (l : Fin 12) (tag : BitVec 16) (a : XAns)
  /-- `XCH_BIAS_UPDATE` (R377): After a step's blocks end, loads are all-reduced and biases updated. -/
  | xchBiasUpdate (others : List (Fin 64 × Fin 256 × BitVec 32))
  /-- `TAG_RETIRE` (R380): A live epoch tag is retired, its blocks cancelled and notices sent. -/
  | tagRetire (tag : BitVec 16)
  /-- `RETIRE_NOTICE` (R380): A destination receives a retire notice, frees regions and acknowledges. -/
  | retireNotice (src : BitVec 12) (tag : BitVec 16)
  /-- `RETIRE_ACK` (R380): The source receives the acknowledgement and the tag becomes assignable. -/
  | retireAck (dev : BitVec 12) (tag : BitVec 16)
  /-- `WRING_CFG_WRITE` (R384): A write of XCH.WRING_CFG enables a work ring and resets NEXT. -/
  | wringCfgWrite (r : Fin 4) (v : BitVec 64)
  /-- `CRING_CFG_WRITE` (R427): A write of XCH.CRING_CFG enables a collective ring and resets NEXT. -/
  | cringCfgWrite (r : Fin 4) (v : BitVec 64)
  /-- `COLL_BLOCK_TAKE` (R427): The exchange unit takes a collective block once its counter passes it. -/
  | collBlockTake (r : Fin 4)
  /-- `ALL_REDUCE` (R428): Collective that reduce-scatters then all-gathers the reduced shards. -/
  | allReduce (r : Fin 4) (idx : BitVec 32)
  /-- `REDUCE_SCATTER` (R429): Collective that reduces each shard at its owner in ascending rank. -/
  | reduceScatter (r : Fin 4) (idx : BitVec 32)
  /-- `ALL_GATHER` (R428): Collective that gathers each rank's shard into the whole tensor. -/
  | allGather (r : Fin 4) (idx : BitVec 32)
  /-- `ALL_TO_ALL` (R428): Collective that exchanges shards between ranks. -/
  | allToAll (r : Fin 4) (idx : BitVec 32)
  /-- `COLL_CONTRIBUTION` (R429): A shard owner receives a contribution, staging it or refusing a wrong step. -/
  | collContribution (l : Fin 12) (m : CollMsg)
  /-- `COLL_CANCEL_NOTICE` (R432): A member receives a cancel notice and ends its block for that collective with 0x11. -/
  | collCancelNotice (coll : BitVec 32) (step : BitVec 64)
  /-- `GDDR7_ACCESS` (R394): A controller serves a codeword access, decoding ECC and writing back corrections. -/
  | gddr7Access (a : BitVec 40) (wr : Option Piece) (e : CodeErr) (crc : Fin 7)
  /-- `RETRAIN_SLICE` (R396): A pair starts a periodic retraining slice at its interval. -/
  | retrainSlice (m : Fin 16)
  /-- `RETRAIN_SLICE_END` (R396): A retraining slice ends and waiting accesses proceed. -/
  | retrainSliceEnd (m : Fin 16)
  /-- `SCRUB_READ` (R397): Patrol scrub reads and decodes the next codeword. -/
  | scrubRead (m : Fin 16) (e : CodeErr)
  /-- `MEM_CLEAR` (R401): A write of MEM.CLEAR.GO starts zeroing every codeword of the controller. -/
  | memClear (m : Fin 16) (v : BitVec 64)
  /-- `MEM_CLEAR_DONE` (R401): The clear ends and CLEARING returns to 0. -/
  | memClearDone (m : Fin 16)
  /-- `DIE_MARK_WRITE` (R392): Host software sets or clears a die mark, effective for later decodes. -/
  | dieMarkWrite (k : Fin 8) (v : BitVec 64)
  /-- `HDM_COMMIT` (R405): A write of COMMIT commits or refuses a CXL decoder. -/
  | hdmCommit (p : Fin 4) (n : Fin 8) (v : BitVec 64)
  /-- `CXL_CFG_REQUEST` (R406): A write of CXM.CFG_ADDR starts one configuration read or write. -/
  | cxlCfgRequest (p : Fin 4) (v : BitVec 64)
  /-- `CXL_CFG_COMPLETE` (R406): A configuration request ends with data or ERR. -/
  | cxlCfgComplete (p : Fin 4) (r : Option (BitVec 32))
  /-- `CXL_ACCESS` (R408): An access to the CXL tier is decoded, sent and completed per line. -/
  | cxlAccess (a : BitVec 48) (wr : Option Piece) (bad : Bool)
  /-- `CXL_LINK_DOWN` (R408): A CXL link goes down and accesses in flight complete with 0x40. -/
  | cxlLinkDown (p : Fin 4) (l : Bool)
  /-- `CXL_PORT_CFG_WRITE` (R403): A write of CXM.PORT_CFG enables a port and starts training. -/
  | cxlPortCfgWrite (p : Fin 4) (v : BitVec 64)
  /-- `LINK_TRAINED` (R417): A link training from DOWN ends, hellos are sent and the link enters QUARANTINE. -/
  | linkTrained (l : Fin 12) (w : Fin 3)
  /-- `DATA_FRAME_RECEIVE` (R413): A receiver accepts a data frame in SEQ order or discards it and sends a NAK. -/
  | dataFrameReceive (l : Fin 12) (body : List (BitVec 8)) (w : BitVec 32) (fec : Ecc)
  /-- `CONTROL_FRAME_RECEIVE` (R413): A sender receives an acknowledgement or NAK, freeing its retry buffer or replaying. -/
  | controlFrameReceive (l : Fin 12) (ack : BitVec 12) (nak : Bool)
  /-- `LINK_RETRAIN` (R414): A link retrains after 8 replays of one frame, narrowing if needed. -/
  | linkRetrain (l : Fin 12) (w : Option (Fin 3))
  /-- `HELLO_RECEIVE` (R417): A hello is received; versions, digest and session are compared. -/
  | helloReceive (l : Fin 12) (h : Hello)
  /-- `LINK_LOSS` (R415): A link is lost and every access in flight on it completes with 0x40. -/
  | linkLoss (l : Fin 12)
  /-- `PEER_REPORT_VERIFY` (R481): A peer's attestation report arrives and is verified, possibly making the link ACTIVE. -/
  | peerReportVerify (l : Fin 12) (report dev mid root : List (BitVec 8)) (other : Bool)
  /-- `QUARANTINE_REPORT` (R418): The master receives a failed-check report and records it in CSL.QLOG. -/
  | quarantineReport (reporter : BitVec 12) (l : Fin 12) (peer : BitVec 12) (reason : BitVec 4)
  /-- `LINK_CFG_WRITE` (R415): A write of CSL.LINK_CFG starts training or loses the link. -/
  | linkCfgWrite (l : Fin 12) (v : BitVec 64)
  /-- `LINK_EXCLUDE` (R420): A link is put in EXCLUDED and held packets complete with 0x40. -/
  | linkExclude (l : Fin 12)
  /-- `LINK_RECHECK` (R418): A link repeats its hello and attestation. -/
  | linkRecheck (l : Fin 12)
  /-- `LINK_RETRAIN_REQUEST` (R414): Host software requests a retrain up to MAXW. -/
  | linkRetrainRequest (l : Fin 12)
  /-- `REMOTE_REQUEST` (R423): A target serves or refuses a remote request, or forwards it by its route table. -/
  | remoteRequest (l : Fin 12) (r : Remote)
  /-- `REMOTE_RESPONSE` (R425): A requester receives read data, a write ack or a negative response. -/
  | remoteResponse (tag : BitVec 16) (r : RemoteAns)
  /-- `GSTEP_NOTICE` (R426): A member receives the master's step number into CSL.GSTEP. -/
  | gstepNotice (step : BitVec 64)
  /-- `LOST_REPORT` (R435): The master receives LOST(f) and drops f or records it pending. -/
  | lostReport (f reporter : BitVec 12)
  /-- `RSL_DROP` (R435): Host software writes RSL.DROP and the master drops the device. -/
  | rslDrop (v : BitVec 64)
  /-- `DROP_NOTICE` (R436): A member receives DROP(f, s), sets DROPPED and applies the drop effects. -/
  | dropNotice (f : BitVec 12) (st : BitVec 64)
  /-- `HOLD_START` (R441): A write of RSL.HOLD.STEP starts a hold and notices are sent. -/
  | holdStart (v : BitVec 64)
  /-- `HOLD_RELEASE` (R441): A write of RELEASE ends the hold. -/
  | holdRelease
  /-- `HOLD_NOTICE` (R441): A member receives HOLD(h) and reports or refuses. -/
  | holdNotice (h : Option (BitVec 48))
  /-- `HOLD_REPORT` (R441): The master receives a hold report and sets HELD when all have reported. -/
  | holdReport (d : BitVec 12) (ok : Bool)
  /-- `RESTORE_START` (R442): A write of RSL.RESTORE starts a restore on the rejoining device. -/
  | restoreStart (w : BitVec 32) (confirmed : Bool)
  /-- `RESTORE_PIECE` (R443): A restore piece is copied and verified against the digest of its second replica. -/
  | restorePiece (a dB b : Option (List (BitVec 8)))
  /-- `REJOIN` (R444): The master receives REJOIN and sends REJOIN notices. -/
  | rejoin (f : BitVec 12) (h : BitVec 64)
  /-- `REJOIN_NOTICE` (R444): A member receives REJOIN(f, h+1) and clears f's DROPPED bit. -/
  | rejoinNotice (f : BitVec 12) (st : BitVec 64)
  /-- `CAIRN_RESUME` (R446): After started work completes the image is written and work resumes. -/
  | cairnResume
  /-- `CAIRN_DRAIN_END` (R448): The background drain ends, CAIRN_STAT is written and DONE arrived at. -/
  | cairnDrainEnd (lost : Bool)
  /-- `HOST_WINDOW_ACCESS` (R458): A host access through BAR4 reaches device memory with its target's atomicity. -/
  | hostWindowAccess (off : BitVec 40) (a : HostAcc)
  /-- `HOST_ACCESS_MISS` (R459): A host access to an unpopulated or reset target returns all ones or is discarded and recorded. -/
  | hostAccessMiss (bar : Bar) (off : BitVec 40) (n : Fin 65) (wr : Bool)
  /-- `HOST_DMA_FAIL` (R464): A device access to host memory fails with its code. -/
  | hostDmaFail (at_ : DmaAt) (poison : Bool)
  /-- `HOST_LINK_UP` (R464): The host link comes up with Bus Master Enable and held records and messages are written. -/
  | hostLinkUp (c : HostCfg)
  /-- `MSIX_UNMASK` (R465): Unmasking a vector sends its pending message. -/
  | msixUnmask (v : Option (Fin 2048))
  /-- `DOE_DISCOVERY` (R466): A DOE Discovery object is served. -/
  | doeDiscovery (index : BitVec 8)
  /-- `DOE_ABORT` (R466): Setting DOE Abort discards the object in progress. -/
  | doeAbort
  /-- `FIRMWARE_BOOT` (R474): The ROM checks both image slots, starts the accepted one or enters recovery. -/
  | firmwareBoot (read0 read1 : Bool)
  /-- `ROLLBACK_ADV` (R476): A write of SEC.ROLLBACK_ADV blows anti-rollback bits up to the running SVN. -/
  | rollbackAdv (v : BitVec 64)
  /-- `DEBUG_NEWNONCE` (R483): A write of NEWNONCE draws a fresh debug nonce. -/
  | debugNewnonce
  /-- `DEBUG_LOCK` (R483): A write of LOCK ends the debug unlock. -/
  | debugLock
  /-- `DEBUG_TOKEN` (R483): A debug token is verified against nonce, identity and key and sets PERM. -/
  | debugToken (a : Asker)
  /-- `ATTEST` (R480): An attestation request with a nonce is queued for signing or refused when the queue is full. -/
  | attest (a : Asker)
  /-- `ATTEST_SIGNED` (R479): The security core finishes signing a report and returns it. -/
  | attestSigned
  /-- `CERTS` (R480): A request returns the two identity certificates. -/
  | certs (a : Asker)
  /-- `READ_REG` (R507): Management message that reads a register. -/
  | readReg (v : Via)
  /-- `WRITE_REG` (R507): Management message that writes a register. -/
  | writeReg (v : Via)
  /-- `PEEK` (R508): Management message that reads a counter without clearing it. -/
  | peek (v : Via)
  /-- `FUNC` (R507): Management message that carries a function request and returns its status. -/
  | func (v : Via)
  /-- `FLASH_WRITE` (R507): Management message that writes flash outside the booted slot and identity region. -/
  | flashWrite (v : Via)
  /-- `SET_ENDPOINT_ID` (R505): MCTP control message that assigns the endpoint ID. -/
  | setEndpointId (eid : BitVec 8)
  /-- `PLDM_SENSOR_READ` (R509): A PLDM request returns a numeric sensor reading. -/
  | pldmSensorRead (id : BitVec 16)
  /-- `WDOG_KICK` (R511): A kick with the correct key restarts the watchdog and clears STAGE1. -/
  | wdogKick (v : BitVec 64)
  /-- `WDOG_STAGE1` (R511): The watchdog stage 1 expires and event WDOG occurs. -/
  | wdogStage1
  /-- `FUNC_DISABLE` (R513): A disable request refuses new work on a function and starts its drain. -/
  | funcDisable (v : BitVec 64)
  /-- `FUNC_ENABLE` (R514): An enable request powers the function up and runs its release test. -/
  | funcEnable (v : BitVec 64)
  /-- `FUNC_SELF_TEST` (R515): A self-test request drains the target, tests it and returns it to service. -/
  | funcSelfTest (v : BitVec 64)
  /-- `FUNC_RETRAIN` (R512): A retrain request retrains a link, port or memory pair. -/
  | funcRetrain (v : BitVec 64)
  /-- `FUNC_DRAIN_END` (R513): A function's drain ends, it powers down and the request ends. -/
  | funcDrainEnd
  /-- `FUNC_ABORT` (R513): The drain timeout expires and remaining work is aborted with 0x10. -/
  | funcAbort
  /-- `SELF_TEST_DONE` (R515): A self-test finishes, clearing chambers or disabling the failed target. -/
  | selfTestDone (fail : Option (Fin 3))
  /-- `INTERNAL_FAULT` (R517): A fault ends work with 0x7F, is recorded and may disable the unit. -/
  | internalFault (unit : Fin 1068) (control : Bool) (work : Option (SeqId × BitVec 5))
  /-- `RATE_SAMPLE` (R30): A rate monitor window ends and a new beat-rate sample replaces the old one. -/
  | rateSample (g : Fin 100) (rate : BitVec 16)
  /-- `GOVERNOR_INTERVAL` (R488): Every 100 µs the governor compares power and temperature and steps VCORE. -/
  | governorInterval (x : Sensors)
  /-- `CONVERSION_DIE_FAULT` (R487): A conversion die faults, shuts off and clears its DIE_OK bit. -/
  | conversionDieFault (d : Fin 12)
  /-- `THERMTRIP` (R490): A sensor reaches 115 °C, THERMTRIP_N goes low and all rails collapse. -/
  | thermtrip (sensor : Fin 64)
  /-- `THERMTRIP_RELEASE` (R490): The trip latch releases when the input falls below 10 V or RESET_N is held 10 ms. -/
  | thermtripRelease (byReset : Bool)
  /-- `POWER_ON_RESET` (R491): VAUX rises through 0.55 V and a power-on reset begins. -/
  | powerOnReset
  /-- `BROWN_OUT` (R491): Input under- or over-voltage, or low VAUX, starts a brown-out reset. -/
  | brownOut (ov : Bool)
  /-- `PIN_RESET` (R491): RESET_N or PERST_N low starts a pin reset. -/
  | pinReset (perst : Bool)
  /-- `WATCHDOG_RESET` (R511): The second watchdog stage expires and the watchdog reset fires. -/
  | watchdogReset
  /-- `SOFTWARE_RESET` (R491): RST.SW_RESET with GO and the key, or a hot reset, starts a software reset. -/
  | softwareReset (v : Option (BitVec 64))
  /-- `DEBUG_RESET` (R491): A debug request with the unlock starts a debug reset. -/
  | debugReset
  /-- `CLOCK_FAILURE` (R34): A reference absent or off by 10 % for 10 µs starts a clock-failure reset. -/
  | clockFailure (ref : Fin 3)
  /-- `LOCKUP_RESET` (R491): A handshake request unacknowledged for 10 ms starts a lock-up reset. -/
  | lockupReset (u : SeqId)
  /-- `RESET_HOLD_END` (R492): A reset's hold ends, the cause is recorded and straps are sampled. -/
  | resetHoldEnd (x : Straps)
  /-- `DOMAIN_RELEASE` (R497): A cleared domain is released in order, clears its stores and reports ready or fail. -/
  | domainRelease (fail : List (Fin 9 × Fin 1024))
  /-- `COUNTER_READ` (R14): A read of an RC counter returns and clears it without losing events. -/
  | counterRead (off : BitVec 33) (p : Part)
  /-- `REGISTER_WRITE` (R11): A write to a register without a row of its own acts by its access code. -/
  | registerWrite (off : BitVec 33) (p : Part) (v : BitVec 64)
  /-- `UNDEFINED_ENCODING` (R273): The sequencer issues a word with an unassigned opcode, reserved operand or nonzero RSVD bit, including an all-zero word, and faults with cause 0x80. -/
  | undefinedEncoding (w : Issue) (h : BitVec 64)
  /-- `RESET_SOURCE_END` (R492): An active reset source ends (RESET_N or PERST_N released, input back above 43.0 V, a reference present again), which starts the 2 ms or 1 ms that bound the hold. -/
  | resetSourceEnd (src : Fin 8) (input : Fin 3)
  /-- `CXL_LINK_UP` (R408): A CXL link finishes training and comes up, so UP_A or UP_B is set and accesses stop completing with 0x40. -/
  | cxlLinkUp (p : Fin 4) (l : Bool) (width : BitVec 8) (rate : BitVec 4)
  /-- `HOST_LINK_DOWN` (R464): The PCIe link goes down or Bus Master Enable is cleared, so device accesses to host memory fail and records and MSI-X messages wait. -/
  | hostLinkDown (bmeOnly : Bool)
  /-- `RESTORE_DIGEST_REQUEST` (R443): The verifying device B receives a request for a restore piece's digest, computes SHAKE256 over its own memory and returns it. -/
  | restoreDigestRequest (src : BitVec 12) (a : Option (BitVec 48)) (len : BitVec 31)
  /-- `FUNC_ENABLE_DONE` (R514): An enabled function's release test ends, setting READY and clearing DIS or leaving the function disabled, and the request ends with RESULT 0 or 2. -/
  | funcEnableDone (pass : Bool)
  deriving DecidableEq, Repr

end Sys2Proof
end

