-- ==== Sys2Proof/Machine/Map.lean ====
section
/-! DEFINITION. Sparse data by key: a list of key and value pairs in one canonical form, keys strictly rising and no
value equal to what an unlisted key reads as. Memory, registers, counters and the per-unit parts of State are such
lists, so that equal contents are equal data. -/

namespace Sys2Proof

/-- A sparse map from keys to values. -/
abbrev SMap (α : Type) := List (Nat × α)

/-- The value of key `k`; `d` is what an unlisted key reads as. -/
def SMap.get {α : Type} (d : α) : SMap α → Nat → α
  | [], _ => d
  | (k', v) :: m, k => if k' = k then v else SMap.get d m k

/-- Whether key `k` is listed. -/
def SMap.has {α : Type} (m : SMap α) (k : Nat) : Bool := m.any fun kv => kv.1 == k

/-- The entries whose key satisfies `p`. -/
def SMap.keep {α : Type} (p : Nat → Bool) (m : SMap α) : SMap α := m.filter fun kv => p kv.1

/-- Put an entry before the first larger key. -/
def SMap.ins {α : Type} (k : Nat) (v : α) : SMap α → SMap α
  | [] => [(k, v)]
  | (k', w) :: m => if k < k' then (k, v) :: (k', w) :: m else (k', w) :: SMap.ins k v m

/-- Write `v` at key `k`; writing `d`, what the unlisted key reads as, removes the entry. -/
def SMap.put {α : Type} [DecidableEq α] (d : α) (m : SMap α) (k : Nat) (v : α) : SMap α :=
  let m' := m.keep fun k' => !(k' == k)
  if v = d then m' else m'.ins k v

/-- Keys strictly rise from above the bound `lo`, and no value is its default (which may depend on the key). -/
def SMap.wfFrom {α : Type} [DecidableEq α] (d : Nat → α) : Option Nat → SMap α → Bool
  | _, [] => true
  | lo, (k, v) :: m =>
    (match lo with | none => true | some l => decide (l < k)) && decide (v ≠ d k) && SMap.wfFrom d (some k) m

/-- The canonical form of a sparse map. -/
def SMap.wf {α : Type} [DecidableEq α] (d : Nat → α) (m : SMap α) : Bool := SMap.wfFrom d none m

/-- `listSet l i v`: the list with element `i` replaced (unchanged where `i` is past its end). -/
def listSet {α : Type} : List α → Nat → α → List α
  | [], _, _ => []
  | _ :: l, 0, v => v :: l
  | x :: l, i + 1, v => x :: listSet l i v

/-- Insert `k` into a strictly rising list of keys. -/
def insertKey : List Nat → Nat → List Nat
  | [], k => [k]
  | x :: l, k => if k < x then k :: x :: l else if k = x then x :: l else x :: insertKey l k

/-- Fold a step over `0, 1, …, n - 1` in ascending order. -/
def forUpto {α : Type} (n : Nat) (f : Nat → α → α) (a : α) : α := Nat.fold n (fun i _ x => f i x) a

end Sys2Proof
end

