-- ==== Sys2Proof/Machine/Num.lean ====
section
/-! DEFINITION. Number formats and exact arithmetic (spec/03_number_formats.md): the element formats of R37, their
values (R42, R48), rounding to nearest even and stochastic rounding (R51, R52), IEEE binary32 arithmetic with one
rounding per operation, and the drip function (R55). Values are computed exactly and narrowed once, at the end. -/

namespace Sys2Proof

/-! ### Exact values -/

/-- The value of a floating-point datum: `fin neg m e` is `(-1)^neg * m * 2^e` (a zero keeps its sign). -/
inductive FVal where
  | nan
  | inf (neg : Bool)
  | fin (neg : Bool) (m : Nat) (e : Int)
  deriving DecidableEq, Repr

/-- `m * 2^k` for `k ≥ 0`, `m / 2^-k` rounded down otherwise. -/
def shiftInt (m : Nat) (k : Int) : Nat := if 0 ≤ k then m <<< k.toNat else m >>> (-k).toNat

namespace FVal

/-- The exact +0. -/
def zero : FVal := .fin false 0 0

/-- The value one. -/
def one : FVal := .fin false 1 0

/-- Negation; a NaN stays a NaN. -/
def neg : FVal → FVal
  | .nan => .nan
  | .inf s => .inf (!s)
  | .fin s m e => .fin (!s) m e

/-- Magnitude. -/
def abs : FVal → FVal
  | .nan => .nan
  | .inf _ => .inf false
  | .fin _ m e => .fin false m e

def isNaN : FVal → Bool
  | .nan => true
  | _ => false

def isInf : FVal → Bool
  | .inf _ => true
  | _ => false

def isFin : FVal → Bool
  | .fin .. => true
  | _ => false

def isZero : FVal → Bool
  | .fin _ m _ => m == 0
  | _ => false

/-- The signed integer `±m * 2^(e - q)` of a finite value on the grid `2^q`, exact when `q ≤ e`. -/
def mantAt (neg : Bool) (m : Nat) (e q : Int) : Int :=
  let a := m <<< (e - q).toNat
  if neg then -(Int.ofNat a) else Int.ofNat a

/-- The value `z * 2^q`; an exact zero is +0. -/
def ofInt (z q : Int) : FVal := .fin (decide (z < 0)) z.natAbs q

/-- Exact sum under IEEE 754: a zero sum of two zeros of one negative sign is -0, every other exact zero is +0. -/
def add : FVal → FVal → FVal
  | .nan, _ => .nan
  | _, .nan => .nan
  | .inf a, .inf b => if a = b then .inf a else .nan
  | .inf a, _ => .inf a
  | _, .inf b => .inf b
  | .fin a m e, .fin b n f =>
    let q := min e f
    let z := mantAt a m e q + mantAt b n f q
    if z = 0 then .fin (a && b && m == 0 && n == 0) 0 0 else ofInt z q

/-- Exact product under IEEE 754: infinity times zero is NaN. -/
def mul : FVal → FVal → FVal
  | .nan, _ => .nan
  | _, .nan => .nan
  | .inf a, .inf b => .inf (a != b)
  | .inf a, .fin b n _ => if n = 0 then .nan else .inf (a != b)
  | .fin a m _, .inf b => if m = 0 then .nan else .inf (a != b)
  | .fin a m e, .fin b n f => .fin (a != b) (m * n) (e + f)

/-- Multiplication by `2^k`, exact. -/
def scale (k : Int) : FVal → FVal
  | .fin s m e => .fin s m (e + k)
  | v => v

/-- `lt x y` for numbers (false where either is NaN; the zeros are equal). -/
def lt : FVal → FVal → Bool
  | .nan, _ => false
  | _, .nan => false
  | .inf true, .inf b => !b
  | .inf false, _ => false
  | .fin .., .inf b => !b
  | .inf true, .fin .. => true
  | .fin a m e, .fin b n f =>
    let q := min e f
    decide (mantAt a m e q < mantAt b n f q)

/-- Numbers equal in value. -/
def eqv (x y : FVal) : Bool := !x.isNaN && !y.isNaN && !lt x y && !lt y x

/-- `x ≤ y` for numbers. -/
def le (x y : FVal) : Bool := lt x y || eqv x y

end FVal

/-! ### Formats -/

/-- The element formats of R37. -/
inductive Fmt where
  | f4 | f4x | i4 | t2 | g4 | e4m3 | e5m2 | bf16 | fp16 | fp32 | i8 | i32 | u16 | s32
  deriving DecidableEq, Repr

namespace Fmt

/-- The 6-bit format codes of R37; any other code names no format. -/
def ofCode : Nat → Option Fmt
  | 0x01 => some .f4 | 0x02 => some .f4x | 0x03 => some .i4 | 0x04 => some .t2 | 0x05 => some .g4
  | 0x08 => some .e4m3 | 0x09 => some .e5m2 | 0x0C => some .bf16 | 0x0D => some .fp16 | 0x0F => some .fp32
  | 0x10 => some .i8 | 0x11 => some .i32 | 0x12 => some .u16 | 0x13 => some .s32
  | _ => none

/-- The code of a format (R37). -/
def code : Fmt → Nat
  | .f4 => 0x01 | .f4x => 0x02 | .i4 => 0x03 | .t2 => 0x04 | .g4 => 0x05 | .e4m3 => 0x08 | .e5m2 => 0x09
  | .bf16 => 0x0C | .fp16 => 0x0D | .fp32 => 0x0F | .i8 => 0x10 | .i32 => 0x11 | .u16 => 0x12 | .s32 => 0x13

/-- Bits per element (R37). -/
def bits : Fmt → Nat
  | .f4 | .f4x | .i4 | .g4 => 4
  | .t2 => 2
  | .e4m3 | .e5m2 | .i8 => 8
  | .bf16 | .fp16 | .u16 => 16
  | .fp32 | .i32 | .s32 => 32

/-- 4-bit formats with a required E8M0 block scale (R37). -/
def is4 : Fmt → Bool
  | .f4 | .f4x | .i4 | .g4 => true
  | _ => false

/-- The two 8-bit floating-point formats, whose block scale is optional (R37). -/
def is8f : Fmt → Bool
  | .e4m3 | .e5m2 => true
  | _ => false

/-- The 16-bit floating-point formats. -/
def is16f : Fmt → Bool
  | .bf16 | .fp16 => true
  | _ => false

/-- Integer formats written without a block scale. -/
def isInt : Fmt → Bool
  | .i8 | .i32 | .u16 | .s32 => true
  | _ => false

/-- Exponent bits, fraction bits and bias of a floating-point grid (R42, R48). F4X elements use the grid of F4. -/
def grid : Fmt → Option (Nat × Nat × Int)
  | .f4 | .f4x => some (2, 1, 1)
  | .g4 => some (3, 0, 4)
  | .e4m3 => some (4, 3, 7)
  | .e5m2 => some (5, 2, 15)
  | .bf16 => some (8, 7, 127)
  | .fp16 => some (5, 10, 15)
  | .fp32 => some (8, 23, 127)
  | _ => none

/-- The code of the largest finite magnitude of a floating-point format (R48, R527). -/
def maxCode : Fmt → Nat
  | .f4 | .f4x | .g4 => 7
  | .e4m3 => 0x7E
  | .e5m2 => 0x7B
  | .bf16 => 0x7F7F
  | .fp16 => 0x7BFF
  | .fp32 => 0x7F7F_FFFF
  | _ => 0

/-- The sign bit of a floating-point format. -/
def signBit (f : Fmt) : Nat := 1 <<< (f.bits - 1)

/-- The infinity code, where the format has one (R48). -/
def infCode : Fmt → Option Nat
  | .e5m2 => some 0x7C
  | .bf16 => some 0x7F80
  | .fp16 => some 0x7C00
  | .fp32 => some 0x7F80_0000
  | _ => none

/-- The canonical NaN that the Wehal writes (R48, R49). -/
def nanCode : Fmt → Option Nat
  | .e4m3 => some 0x7F
  | .e5m2 => some 0x7F
  | .bf16 => some 0x7FC0
  | .fp16 => some 0x7E00
  | .fp32 => some 0x7FC0_0000
  | _ => none

/-- maxval of R527 as an exact value, F4X with that of F4. DESIGN CHOICE: T2 has no maxval (R527), and where a slot's FMT
is T2 the comparison of R71 and the roll of R72 use 1, the largest magnitude that its grid holds (log entry 118). -/
def maxval : Fmt → FVal
  | .f4 | .f4x => .fin false 6 0
  | .g4 => .fin false 8 0
  | .i4 => .fin false 7 0
  | .e4m3 => .fin false 448 0
  | .e5m2 => .fin false 57344 0
  | .bf16 => .fin false 255 120
  | .fp16 => .fin false 65504 0
  | .fp32 => .fin false 0xFF_FFFF 104
  | .i8 => .fin false 127 0
  | .i32 | .s32 => .fin false 0x7FFF_FFFF 0
  | .u16 => .fin false 65535 0
  | .t2 => .fin false 1 0

end Fmt

/-- The value of a magnitude code on a floating-point grid. -/
def gridVal (neg : Bool) (fb : Nat) (bias : Int) (c : Nat) : FVal :=
  let ex := c >>> fb
  let fr := c % 2 ^ fb
  if ex = 0 then .fin neg fr (1 - bias - fb) else .fin neg (2 ^ fb + fr) ((ex : Int) - bias - fb)

/-- Two's complement value of the low `w` bits of `c`. -/
def sext (w : Nat) (c : Nat) : Int :=
  let c := c % 2 ^ w
  if c < 2 ^ (w - 1) then (c : Int) else (c : Int) - (2 ^ w : Nat)

/-- The element value of a code, before scaling (R42, R44, R48; 0x8 of F4 and G4 reads as zero, R43). -/
def Fmt.decode (f : Fmt) (c : Nat) : FVal :=
  let c := c % 2 ^ f.bits
  match f with
  | .t2 => if c = 1 then .one else if c = 3 then FVal.one.neg else .zero
  | .i4 => .ofInt (sext 4 c) 0
  | .i8 => .ofInt (sext 8 c) 0
  | .i32 | .s32 => .ofInt (sext 32 c) 0
  | .u16 => .fin false c 0
  | _ =>
    match f.grid with
    | none => .zero
    | some (_, fb, bias) =>
      let neg := decide (c ≥ f.signBit)
      let mag := c % f.signBit
      if mag ≤ f.maxCode then gridVal neg fb bias mag
      else if f.infCode = some mag then .inf neg
      else .nan

/-! ### Rounding -/

/-- A rounding mode: nearest even, or stochastic with `n` random bits of value `r` (R50, R52). -/
inductive Rnd where
  | rne
  | sr (n r : Nat)
  deriving DecidableEq, Repr

/-- floor(log2(n / d)) for n, d > 0. -/
def flog2 (n d : Nat) : Int :=
  let g := (Nat.log2 n : Int) - (Nat.log2 d : Int)
  if d <<< g.toNat > n <<< (-g).toNat then g - 1 else g

/-- Whether a value that lies `rem / den` above its lower neighbour moves up; `odd`: that neighbour's code is odd. -/
def roundUp (r : Rnd) (odd : Bool) (rem den : Nat) : Bool :=
  match r with
  | .rne => decide (2 * rem > den) || (decide (2 * rem = den) && odd)
  | .sr n x => decide (x < (rem * 2 ^ n) / den)

/-- The magnitude code on the grid (fraction bits, bias) that `n / d * 2^e` rounds to. The codes of a grid are
consecutive, so rounding up is the next code, also across a binade and past the largest code (R51). -/
def roundMag (fb : Nat) (bias : Int) (r : Rnd) (n d : Nat) (e : Int) : Nat :=
  if n = 0 then 0 else
  let qmin : Int := 1 - bias - fb
  let q := max (flog2 n d + e - fb) qmin
  let k := e - q
  let num := if 0 ≤ k then n <<< k.toNat else n
  let den := if 0 ≤ k then d else d <<< (-k).toNat
  let lo := num / den
  let c := ((q - qmin).toNat <<< fb) + lo
  if roundUp r (c % 2 == 1) (num % den) den then c + 1 else c

/-- Round the quotient `±n / d * 2^e` to binary32 with one rounding to nearest even (IEEE 754). -/
def ratF32 (neg : Bool) (n d : Nat) (e : Int) : F32 :=
  let c := min (roundMag 23 127 .rne n d e) 0x7F80_0000
  BitVec.ofNat 32 (c + (if neg then 0x8000_0000 else 0))

/-- rne_f32: round an exact value to binary32; overflow gives an infinity, a NaN the canonical NaN (R49). -/
def FVal.f32 : FVal → F32
  | .nan => 0x7FC0_0000
  | .inf s => if s then 0xFF80_0000 else 0x7F80_0000
  | .fin s m e => ratF32 s m 1 e

namespace F32

/-- The value of an FP32 pattern. -/
def val (x : F32) : FVal := Fmt.fp32.decode x.toNat

/-- FP32 +0. -/
def zero : F32 := 0

/-- The canonical NaN (R48). -/
def nan : F32 := 0x7FC0_0000

/-- FP32 1.0. -/
def one : F32 := 0x3F80_0000

def add (x y : F32) : F32 := ((val x).add (val y)).f32
def sub (x y : F32) : F32 := ((val x).add (val y).neg).f32
def mul (x y : F32) : F32 := ((val x).mul (val y)).f32

/-- One-rounding division (IEEE 754). -/
def div (x y : F32) : F32 :=
  match val x, val y with
  | .nan, _ => nan
  | _, .nan => nan
  | .inf _, .inf _ => nan
  | .inf a, .fin b _ _ => (FVal.inf (a != b)).f32
  | .fin a _ _, .inf b => (FVal.fin (a != b) 0 0).f32
  | .fin a m e, .fin b n f =>
    if n = 0 then (if m = 0 then nan else (FVal.inf (a != b)).f32) else ratF32 (a != b) m n (e - f)

def abs (x : F32) : F32 := x &&& 0x7FFF_FFFF

def isNaN (x : F32) : Bool := (val x).isNaN
def isInf (x : F32) : Bool := (val x).isInf

/-- The FP32 value of a natural number, rounded to nearest even. -/
def ofNat (n : Nat) : F32 := ratF32 false n 1 0

/-- Sign-preserving minimum and maximum of two numbers as written in R349, where a NaN first operand stays NaN. -/
def maxOf (x y : F32) : F32 := if isNaN x then nan else if (val x).lt (val y) then y else x
def minOf (x y : F32) : F32 := if isNaN x then nan else if (val y).lt (val x) then y else x

end F32

/-- Integer square root by bits, `k` bits of result. -/
def isqrtBits : Nat → Nat → Nat → Nat
  | 0, _, r => r
  | k + 1, n, r => let t := r + 2 ^ k; if t * t ≤ n then isqrtBits k n t else isqrtBits k n r

/-- floor(sqrt n). -/
def isqrt (n : Nat) : Nat := isqrtBits (Nat.log2 n / 2 + 1) n 0

/-- Correctly rounded square root (IEEE 754: the root of -0 is -0, of a negative number NaN). The integer root has
at least 40 bits, and a sticky bit keeps the rounding exact. -/
def F32.sqrt (x : F32) : F32 :=
  match F32.val x with
  | .nan => F32.nan
  | .inf s => if s then F32.nan else x
  | .fin s m e =>
    if m = 0 then x else if s then F32.nan else
    let k : Int := 64 + (if (e % 2) = 0 then 0 else 1)
    let n := m <<< k.toNat
    let r := isqrt n
    let st := if r * r = n then 0 else 1
    ratF32 false (2 * r + st) 1 ((e - k) / 2 - 1)

/-- c = t^(-1/q) for q = 2 or 4, one rounding (R361, log entry 33), for a finite t > 0. -/
def F32.invRoot (q : Nat) (x : F32) : F32 :=
  match F32.val x with
  | .fin false m e =>
    if m = 0 then 0x7F80_0000 else
    -- t = m 2^e; 1/t = 2^(256) / m * 2^(-e-256), made a multiple of q in the exponent
    let s : Int := (-e) % (q : Int)
    let n := (2 ^ (512 + s.toNat)) / m
    let ex : Int := (-e - s) - 512
    let r := if q = 2 then isqrt n else isqrt (isqrt n)
    ratF32 false (2 * r + 1) 1 (ex / (q : Int) - 1)
  | .fin true _ _ => F32.nan
  | .inf false => 0
  | _ => F32.nan

/-- Terms of the exponential series in fixed point with `p` fraction bits: sum of (-x)^i / i! for i < k. -/
def expSeries (p : Nat) (x : Nat) : Nat → Nat → Int → Int → Int
  | 0, _, _, acc => acc
  | k + 1, i, t, acc => expSeries p x k (i + 1) (-(t * (x : Int)) / ((i + 1 : Nat) : Int) / ((2 ^ p : Nat) : Int)) (acc + t)

/-- Square `k` times in fixed point. -/
def sqrFix (p : Nat) : Nat → Nat → Nat
  | 0, y => y
  | k + 1, y => sqrFix p k (y * y / 2 ^ p)

/-- exp_rn of R369 for an argument at most 0: e^x correctly rounded to FP32. 420 fraction bits and a reduction by
2^8 leave an error far below half a unit of the 24-bit result; a result below 2^-200 rounds to +0 (log entry 32). -/
def F32.expNonPos (x : F32) : F32 :=
  match F32.val x with
  | .nan => F32.nan
  | .inf s => if s then 0 else x
  | .fin _ m e =>
    if m = 0 then F32.one
    else if FVal.lt (.fin false 150 0) (.fin false m e) then 0
    else
      let p : Nat := 420
      let y := shiftInt m (e + (p : Int) - 8)
      let z := sqrFix p 8 (expSeries p y 64 0 ((2 ^ p : Nat) : Int) 0).toNat
      ratF32 false (2 * z + 1) 1 (-(p : Int) - 1)

/-! ### Conversion of one element -/

/-- An element as written: its code, and whether it counts as saturated or NaN-zeroed (R51). -/
structure Elem where
  code : Nat
  clip : Bool
  deriving DecidableEq, Repr

/-- Round a finite magnitude to an integer: floor, then up by the mode. -/
def roundInt (r : Rnd) (m : Nat) (e : Int) : Nat :=
  if 0 ≤ e then m <<< e.toNat else
  let den := 2 ^ (-e).toNat
  let lo := m / den
  if roundUp r (lo % 2 == 1) (m % den) den then lo + 1 else lo

/-- Convert an exact value into format `f` (not T2, and in the 4-bit formats not a NaN, which R51 handles for the
block): R51 and R52, saturation and its count included. -/
def convElem (f : Fmt) (r : Rnd) (v : FVal) : Elem :=
  match f.grid with
  | some (_, fb, bias) =>
    match v with
    | .nan => ⟨(f.nanCode).getD 0, f.nanCode.isNone⟩
    | .inf s =>
      match f.infCode with
      | some c => ⟨c + (if s then f.signBit else 0), false⟩
      | none => ⟨f.maxCode + (if s then f.signBit else 0), true⟩
    | .fin s m e =>
      let c := roundMag fb bias r m 1 e
      let big := decide (c > f.maxCode)
      let c := if big then f.maxCode else c
      -- a zero result of F4, F4X and G4 is written as 0x0 (R43)
      if c = 0 && f.is4 then ⟨0, false⟩ else ⟨c + (if s then f.signBit else 0), big⟩
  | none =>
    let w := f.bits
    let (top, bot) : Nat × Nat := match f with
      | .u16 => (65535, 0)
      | _ => (2 ^ (w - 1) - 1, 2 ^ (w - 1))
    match v with
    | .nan => ⟨0, true⟩
    | .inf s => ⟨if s then (if f = .u16 then 0 else bot) else top, true⟩
    | .fin s m e =>
      let a := roundInt r m e
      if s then (if a > bot then ⟨(2 ^ w - bot) % 2 ^ w, true⟩ else ⟨(2 ^ w - a) % 2 ^ w, false⟩)
      else (if a > top then ⟨top, true⟩ else ⟨a, false⟩)

/-- Random bits per draw of a format: 8 for 4- and 8-bit targets, 16 for 16- and 32-bit targets (R52). -/
def Fmt.drawBits (f : Fmt) : Nat := if f.bits ≤ 8 then 8 else 16

/-! ### Drips -/

/-- rotl of R55. -/
def rotl32 (x : BitVec 32) (n : Nat) : BitVec 32 := (x <<< n) ||| (x >>> (32 - n))

/-- One round of drip_block (R55). -/
def dripRound (c k : BitVec 32) (x : BitVec 32 × BitVec 32 × BitVec 32 × BitVec 32) :
    BitVec 32 × BitVec 32 × BitVec 32 × BitVec 32 :=
  let (x0, x1, x2, x3) := x
  let x0 := x0 + x1 + c + k
  let x3 := rotl32 (x3 ^^^ x0) 16
  let x2 := x2 + x3
  let x1 := rotl32 (x1 ^^^ x2) 12
  (x0, x1, x2, x3)

/-- drip_block of R55: the 128-bit block of a key and counter. -/
def dripBlock (seed : BitVec 64) (stream : BitVec 32) (counter : BitVec 64) :
    BitVec 32 × BitVec 32 × BitVec 32 × BitVec 32 :=
  let k0 : BitVec 32 := seed.extractLsb' 0 32
  let k1 : BitVec 32 := seed.extractLsb' 32 32
  let x := (counter.extractLsb' 0 32, counter.extractLsb' 32 32, stream, (0x6472_6970 : BitVec 32))
  dripRound 0x78DD_E6E4 k1 (dripRound 0xDAA6_6D2B k0 (dripRound 0x3C6E_F372 k1 (dripRound 0x9E37_79B9 k0 x)))

/-- The block as one little-endian number, bytes numbered over x0, x1, x2, x3 (R54). -/
def dripNat (seed : BitVec 64) (stream : BitVec 32) (step e16 : Nat) : Nat :=
  let c : BitVec 64 := BitVec.ofNat 64 ((step % 2 ^ 32) * 2 ^ 32 + e16 % 2 ^ 32)
  let (x0, x1, x2, x3) := dripBlock seed stream c
  x0.toNat + 2 ^ 32 * x1.toNat + 2 ^ 64 * x2.toNat + 2 ^ 96 * x3.toNat

/-- The key of a drip slot (R53). -/
structure DripKey where
  seed : BitVec 64
  stream : BitVec 32
  step : Nat
  deriving DecidableEq, Repr

/-- The draw of the element with linear index `e` (R54): byte `e mod 16` of the block of counter `e div 16` for
8-bit draws, halfword `e mod 8` of that of `e div 8` for 16-bit draws. -/
def DripKey.draw (k : DripKey) (n e : Nat) : Nat :=
  if n = 8 then (dripNat k.seed k.stream k.step (e / 16)) >>> (8 * (e % 16)) % 256
  else (dripNat k.seed k.stream k.step (e / 8)) >>> (16 * (e % 8)) % 65536

end Sys2Proof
end

