-- ==== Sys2Proof/Config.lean ====
section
/-! DEFINITION. What the manual leaves open, as constants without a body: nothing in Lean can evaluate one, so a claim
about one holds whatever its value is. Each is named in a log entry (notes/assumptions). -/

namespace Sys2Proof.Config

/-- A fresh free 64-bit value, drawn with the state's `freeCtr` (log entry 13). -/
opaque freeWord : Nat → BitVec 64

/-- The byte that an unlisted GDDR7 address reads as in generation `g` of undefined contents (R399, log entry 7). -/
opaque undefByte : Nat → Nat → BitVec 8

/-- The value of an accumulator entry or of an undefined element, by generation and index (R136, R178; log entry 13). -/
opaque freeEntry : Nat → Nat → BitVec 32

/-- SLH-DSA-SHAKE-256s verification of FIPS 205 (R470): public key, message, signature (log entry 19). -/
opaque slhVerify : List (BitVec 8) → List (BitVec 8) → List (BitVec 8) → Bool

/-- SLH-DSA-SHAKE-256s signing of FIPS 205 under the identity key made from a seed (R477, R479; log entry 19). -/
opaque slhSign : List (BitVec 8) → List (BitVec 8) → List (BitVec 8)

/-- The 64-byte identity public key that FIPS 205 key generation makes from IDSEED (R477, log entry 19). -/
opaque slhPublic : List (BitVec 8) → List (BitVec 8)

/-- Byte `i` of the fused security value `k` of one part (R469, log entry 10). -/
opaque fuseByte : Nat → Nat → BitVec 8

/-- The boot ROM's contents, whose digest is measurement M0 (R479, log entry 19). -/
opaque romImage : List (BitVec 8)

/-- The contents of the SPI flash that the board fits, by offset, before any FLASH_WRITE (R471, log entry 19). -/
opaque flashByte : Nat → BitVec 8

/-- Packets beyond the first that one channel's buffer at an output of a mesh router holds (R242, log entry 112). -/
opaque vcMore : Nat

end Sys2Proof.Config
end

