-- ==== Sys2Proof/Machine/Regs.lean ====
section
/-! DEFINITION. The register map: every register of the spec with its BAR0 offset (the doorbells of BAR2 stand at
0x1_0000_0000), its repetitions, the reset domain that restores it, and its fields with access code and reset value
(R10 to R14, R456 and the register tables of each chapter), and the offset of each register by name. A register
whose reset value no rule gives resets to 0 here (DESIGN CHOICE, log entry 11). -/

namespace Sys2Proof

/-- Access codes (00_scope.md, table of R10). -/
inductive Acc where
  | ro | rw | wo | w1c | rc | ep
  deriving DecidableEq, Repr

/-- Which reset restores a register: with a grotto, the fabric, the memory controllers, the host interface, the
management domain, the always-on logic, never (`keep`, `retained`, `unlock`: as the chapters on resets say), or the
power-on reset alone (R493 to R497). -/
inductive Dom where
  | grt | fab | mem | hif | mgt | aon | keep | retained | por | unlock
  deriving DecidableEq, Repr

/-- One field: bits `hi` to `lo`, access code, reset value; `idx` says the reset value is the register's own index. -/
structure FieldDef where
  hi : Nat
  lo : Nat
  acc : Acc
  reset : Nat
  idx : Bool
  deriving DecidableEq, Repr

/-- One register, or one array of registers: `dims` are (count, stride) pairs, widest stride first. -/
structure RegDef where
  name : String
  base : Nat
  dims : List (Nat × Nat)
  dom : Dom
  fields : List FieldDef
  deriving DecidableEq, Repr

/-- The one field of every counter (R14). -/
def cntF : List FieldDef := [⟨47, 0, .rc, 0, false⟩]

/-- The COR registers. -/
def regsCor : List RegDef := [
  ⟨"COR.ARRAY_WIDTH", 0x1000100, [(800, 0x10000)], .grt, [⟨63, 48, .ro, 0x100, false⟩, ⟨47, 40, .ro, 0x80, false⟩, ⟨39, 32, .ro, 0x40, false⟩, ⟨31, 24, .ro, 0x40, false⟩, ⟨23, 16, .ro, 0x40, false⟩, ⟨15, 8, .ro, 0x40, false⟩, ⟨7, 0, .ro, 0x40, false⟩]⟩,
  ⟨"COR.DENSE_STAT", 0x1000108, [(800, 0x10000)], .grt, [⟨23, 16, .ro, 0, false⟩, ⟨8, 8, .ro, 0, false⟩, ⟨7, 4, .ro, 0, false⟩, ⟨3, 3, .ro, 0, false⟩, ⟨2, 2, .ro, 0, false⟩, ⟨1, 0, .ro, 0, false⟩]⟩,
  ⟨"COR.DENSE_CFG", 0x1000110, [(800, 0x10000)], .grt, [⟨2, 2, .ep, 0x1, false⟩, ⟨1, 0, .ep, 0x2, false⟩]⟩,
  ⟨"COR.RETRY_CNT", 0x1000200, [(800, 0x10000)], .grt, cntF⟩,
  ⟨"COR.CLIP_CNT", 0x1000208, [(800, 0x10000)], .grt, cntF⟩,
  ⟨"COR.ESCAPE_OVF_CNT", 0x1000210, [(800, 0x10000)], .grt, cntF⟩,
  ⟨"COR.LOAD_BEAT_CNT", 0x1000218, [(800, 0x10000)], .grt, cntF⟩,
  ⟨"COR.STREAM_BEAT_CNT", 0x1000220, [(800, 0x10000)], .grt, cntF⟩,
  ⟨"COR.CONV_WAIT_CNT", 0x1000228, [(800, 0x10000)], .grt, cntF⟩,
  ⟨"COR.WGR_SKIP_CNT", 0x1000230, [(800, 0x10000)], .grt, cntF⟩,
  ⟨"COR.SPARSE_STAT", 0x1000300, [(800, 0x10000)], .grt, [⟨23, 16, .ro, 0, false⟩, ⟨7, 7, .ro, 0, false⟩, ⟨6, 6, .ro, 0, false⟩, ⟨5, 5, .ro, 0, false⟩, ⟨4, 4, .ro, 0, false⟩, ⟨3, 3, .ro, 0, false⟩, ⟨2, 2, .ro, 0, false⟩, ⟨1, 1, .ro, 0, false⟩, ⟨0, 0, .ro, 0, false⟩]⟩,
  ⟨"COR.DROP_IDX_CNT", 0x1000310, [(800, 0x10000)], .grt, cntF⟩,
  ⟨"COR.GATHER_READ_CNT", 0x1000318, [(800, 0x10000)], .grt, cntF⟩,
  ⟨"COR.GATHER_COAL_CNT", 0x1000320, [(800, 0x10000)], .grt, cntF⟩,
  ⟨"COR.MRG_MATCH_CNT", 0x1000328, [(800, 0x10000)], .grt, cntF⟩,
  ⟨"COR.MRG_TRUNC_CNT", 0x1000330, [(800, 0x10000)], .grt, cntF⟩,
  ⟨"COR.FEED_WAIT_CNT", 0x1000338, [(800, 0x10000)], .grt, cntF⟩,
  ⟨"COR.CMP_TILE_CNT", 0x1000400, [(800, 0x10000)], .grt, cntF⟩,
  ⟨"COR.CMP_RAW_CNT", 0x1000408, [(800, 0x10000)], .grt, cntF⟩,
  ⟨"COR.CMP_SAVED_CNT", 0x1000410, [(800, 0x10000)], .grt, cntF⟩,
  ⟨"COR.PRUNE_DROP_CNT", 0x1000418, [(800, 0x10000)], .grt, cntF⟩,
  ⟨"COR.SKIP_ROW_CNT", 0x1000420, [(800, 0x10000)], .grt, cntF⟩,
  ⟨"COR.TILE_BAD_CNT", 0x1000428, [(800, 0x10000)], .grt, cntF⟩,
  ⟨"COR.BAT_NZ_CNT", 0x1000430, [(800, 0x10000)], .grt, cntF⟩,
  ⟨"COR.BAT_MISS_CNT", 0x1000438, [(800, 0x10000)], .grt, cntF⟩]

/-- The SPD registers. -/
def regsSpd : List RegDef := [
  ⟨"SPD.BANK_PART[0]", 0x1000800, [(800, 0x10000)], .grt, [⟨47, 0, .ep, 0x249249DB6000, false⟩]⟩,
  ⟨"SPD.BANK_PART[1]", 0x1000808, [(800, 0x10000)], .grt, [⟨47, 0, .ep, 0x492492492492, false⟩]⟩,
  ⟨"SPD.BANK_PART[2]", 0x1000810, [(800, 0x10000)], .grt, [⟨47, 0, .ep, 0x6DB6DB924924, false⟩]⟩,
  ⟨"SPD.BANK_PART[3]", 0x1000818, [(800, 0x10000)], .grt, [⟨47, 0, .ep, 0xB6DB6D6DB6DB, false⟩]⟩,
  ⟨"SPD.BANK_CONFLICT_CNT", 0x1000840, [(800, 0x10000)], .grt, cntF⟩,
  ⟨"SPD.DENSE_SEC_CNT", 0x1000848, [(800, 0x10000)], .grt, cntF⟩,
  ⟨"SPD.ECC_CORR_CNT", 0x1000850, [(800, 0x10000)], .grt, cntF⟩,
  ⟨"SPD.ECC_UNCORR_CNT", 0x1000858, [(800, 0x10000)], .grt, cntF⟩,
  ⟨"SPD.ECC_ADDR", 0x1000860, [(800, 0x10000)], .grt, [⟨63, 63, .w1c, 0, false⟩, ⟨62, 62, .w1c, 0, false⟩, ⟨18, 0, .ro, 0, false⟩]⟩]

/-- The NOC registers. -/
def regsNoc : List RegDef := [
  ⟨"NOC.ROUTER_STAT", 0x1000C00, [(800, 0x10000)], .fab, [⟨23, 16, .ro, 0, false⟩, ⟨11, 8, .ro, 0, false⟩, ⟨3, 3, .ro, 0x1, false⟩, ⟨2, 2, .ro, 0, false⟩, ⟨1, 1, .ro, 0, false⟩, ⟨0, 0, .ro, 0, false⟩]⟩,
  ⟨"NOC.LINK_CORR_CNT", 0x1000C40, [(800, 0x10000)], .fab, cntF⟩,
  ⟨"NOC.LINK_UNCORR_CNT", 0x1000C48, [(800, 0x10000)], .fab, cntF⟩,
  ⟨"NOC.ROPE_SKIP_CNT", 0x1000C50, [(800, 0x10000)], .fab, cntF⟩,
  ⟨"NOC.ROPE_TAKE_CNT", 0x1000C58, [(800, 0x10000)], .fab, cntF⟩,
  ⟨"NOC.ROPE_STALL_CNT", 0x1000C60, [(800, 0x10000)], .fab, cntF⟩,
  ⟨"NOC.BAR_POLL_CNT", 0x1000C68, [(800, 0x10000)], .fab, cntF⟩,
  ⟨"NOC.BAR_ARRIVE_CNT", 0x1000C70, [(800, 0x10000)], .fab, cntF⟩]

/-- The SEQ registers. -/
def regsSeq : List RegDef := [
  ⟨"COR.SEQ_STAT", 0x1000E00, [(800, 0x10000)], .grt, [⟨63, 62, .ro, 0, false⟩, ⟨44, 32, .ro, 0, false⟩, ⟨31, 0, .ro, 0, false⟩]⟩,
  ⟨"COR.SEQ_FAULT", 0x1000E08, [(800, 0x10000)], .grt, [⟨63, 63, .w1c, 0, false⟩, ⟨62, 62, .w1c, 0, false⟩, ⟨55, 48, .ro, 0, false⟩, ⟨47, 40, .ro, 0, false⟩, ⟨20, 0, .ro, 0, false⟩]⟩,
  ⟨"COR.SEQ_FAULT_VA", 0x1000E10, [(800, 0x10000)], .grt, [⟨47, 0, .ro, 0, false⟩]⟩,
  ⟨"COR.SEQ_ISSUE_CNT", 0x1000E40, [(800, 0x10000)], .grt, cntF⟩,
  ⟨"COR.ISTORE_CORR_CNT", 0x1000E48, [(800, 0x10000)], .grt, cntF⟩,
  ⟨"COR.HANDLE_STALL_CNT", 0x1000E50, [(800, 0x10000)], .grt, cntF⟩]

/-- The SIP registers. -/
def regsSip : List RegDef := [
  ⟨"SIP.STAT[0..199]", 0x1000A00, [(10, 0x500000), (10, 0x40000), (2, 0x80)], .grt, [⟨38, 32, .ro, 0, false⟩, ⟨28, 16, .ro, 0, false⟩, ⟨15, 8, .ro, 0, false⟩, ⟨2, 2, .ro, 0, false⟩, ⟨1, 1, .ro, 0, false⟩, ⟨0, 0, .ro, 0, false⟩]⟩,
  ⟨"SIP.FAULT[0..199]", 0x1000A08, [(10, 0x500000), (10, 0x40000), (2, 0x80)], .grt, [⟨63, 63, .w1c, 0, false⟩, ⟨62, 62, .w1c, 0, false⟩, ⟨55, 48, .ro, 0, false⟩, ⟨47, 40, .ro, 0, false⟩, ⟨25, 16, .ro, 0, false⟩, ⟨4, 0, .ro, 0, false⟩]⟩,
  ⟨"SIP.FAULT_VA[0..199]", 0x1000A10, [(10, 0x500000), (10, 0x40000), (2, 0x80)], .grt, [⟨47, 0, .ro, 0, false⟩]⟩,
  ⟨"SIP.OOB_READ_CNT[0..199]", 0x1000A40, [(10, 0x500000), (10, 0x40000), (2, 0x80)], .grt, cntF⟩,
  ⟨"SIP.DROP_CNT[0..199]", 0x1000A48, [(10, 0x500000), (10, 0x40000), (2, 0x80)], .grt, cntF⟩,
  ⟨"SIP.TLB_MISS_CNT[0..199]", 0x1000A50, [(10, 0x500000), (10, 0x40000), (2, 0x80)], .grt, cntF⟩,
  ⟨"SIP.WALK_READ_CNT[0..199]", 0x1000A58, [(10, 0x500000), (10, 0x40000), (2, 0x80)], .grt, cntF⟩,
  ⟨"SIP.PACK_BAD_CNT[0..199]", 0x1000A60, [(10, 0x500000), (10, 0x40000), (2, 0x80)], .grt, cntF⟩,
  ⟨"SIP.STORE[0..199]", 0x1002000, [(10, 0x500000), (10, 0x40000), (2, 0x1000), (512, 0x8)], .grt, [⟨63, 0, .rw, 0, false⟩]⟩,
  ⟨"SIP.STAT[200..215]", 0xC00000, [(16, 0x100)], .fab, [⟨38, 32, .ro, 0, false⟩, ⟨28, 16, .ro, 0, false⟩, ⟨15, 8, .ro, 0, false⟩, ⟨2, 2, .ro, 0, false⟩, ⟨1, 1, .ro, 0, false⟩, ⟨0, 0, .ro, 0, false⟩]⟩,
  ⟨"SIP.FAULT[200..215]", 0xC00008, [(16, 0x100)], .fab, [⟨63, 63, .w1c, 0, false⟩, ⟨62, 62, .w1c, 0, false⟩, ⟨55, 48, .ro, 0, false⟩, ⟨47, 40, .ro, 0, false⟩, ⟨25, 16, .ro, 0, false⟩, ⟨4, 0, .ro, 0, false⟩]⟩,
  ⟨"SIP.FAULT_VA[200..215]", 0xC00010, [(16, 0x100)], .fab, [⟨47, 0, .ro, 0, false⟩]⟩,
  ⟨"SIP.OOB_READ_CNT[200..215]", 0xC00040, [(16, 0x100)], .fab, cntF⟩,
  ⟨"SIP.DROP_CNT[200..215]", 0xC00048, [(16, 0x100)], .fab, cntF⟩,
  ⟨"SIP.TLB_MISS_CNT[200..215]", 0xC00050, [(16, 0x100)], .fab, cntF⟩,
  ⟨"SIP.WALK_READ_CNT[200..215]", 0xC00058, [(16, 0x100)], .fab, cntF⟩,
  ⟨"SIP.PACK_BAD_CNT[200..215]", 0xC00060, [(16, 0x100)], .fab, cntF⟩,
  ⟨"SIP.STORE[200..215]", 0xC10000, [(16, 0x1000), (512, 0x8)], .fab, [⟨63, 0, .rw, 0, false⟩]⟩,
  ⟨"SIP.PT_ROOT", 0xC20000, [], .fab, [⟨47, 12, .ep, 0, false⟩, ⟨0, 0, .ep, 0, false⟩]⟩,
  ⟨"SIP.TLB_INV", 0xC20008, [], .fab, [⟨0, 0, .wo, 0, false⟩]⟩,
  ⟨"SIP.PT_STAT", 0xC20010, [], .fab, [⟨8, 8, .ro, 0, false⟩, ⟨7, 0, .ro, 0, false⟩]⟩]

/-- The CTL registers. -/
def regsCtl : List RegDef := [
  ⟨"CTL.EPOCH", 0x100100, [], .fab, [⟨31, 0, .ro, 0, false⟩]⟩,
  ⟨"CTL.SCHED_BASE", 0x100180, [], .fab, [⟨47, 7, .ep, 0, false⟩]⟩,
  ⟨"CTL.SCHED_ROWS", 0x100188, [], .fab, [⟨20, 0, .ep, 0, false⟩]⟩,
  ⟨"CTL.RING_ERR_CNT", 0x100200, [], .fab, cntF⟩,
  ⟨"CTL.SEQ_STAT", 0x100E00, [(4, 0x80)], .fab, [⟨63, 62, .ro, 0, false⟩, ⟨44, 32, .ro, 0, false⟩, ⟨31, 0, .ro, 0, false⟩]⟩,
  ⟨"CTL.SEQ_FAULT", 0x100E08, [(4, 0x80)], .fab, [⟨63, 63, .w1c, 0, false⟩, ⟨62, 62, .w1c, 0, false⟩, ⟨55, 48, .ro, 0, false⟩, ⟨47, 40, .ro, 0, false⟩, ⟨20, 0, .ro, 0, false⟩]⟩,
  ⟨"CTL.SEQ_FAULT_VA", 0x100E10, [(4, 0x80)], .fab, [⟨47, 0, .ro, 0, false⟩]⟩,
  ⟨"CTL.SEQ_ISSUE_CNT", 0x100E40, [(4, 0x80)], .fab, cntF⟩,
  ⟨"CTL.HANDLE_STALL_CNT", 0x100E50, [(4, 0x80)], .fab, cntF⟩,
  ⟨"CTL.SQ_CFG[q]", 0x102000, [(64, 0x40)], .fab, [⟨63, 63, .rw, 0, false⟩, ⟨55, 48, .rw, 0, true⟩, ⟨47, 12, .rw, 0, false⟩, ⟨4, 0, .rw, 0x4, false⟩]⟩,
  ⟨"CTL.SQ_STAT[q]", 0x102008, [(64, 0x40)], .fab, [⟨63, 63, .ro, 0, false⟩, ⟨55, 48, .ro, 0, false⟩, ⟨31, 0, .ro, 0, false⟩]⟩,
  ⟨"CTL.CQ_CFG[q]", 0x102010, [(64, 0x40)], .fab, [⟨63, 63, .rw, 0, false⟩, ⟨58, 48, .rw, 0, true⟩, ⟨47, 12, .rw, 0, false⟩, ⟨11, 8, .rw, 0, false⟩, ⟨4, 0, .rw, 0x4, false⟩]⟩,
  ⟨"CTL.CQ_TAIL[q]", 0x102018, [(64, 0x40)], .fab, [⟨31, 0, .ro, 0, false⟩]⟩,
  ⟨"CTL.CQ_HEAD[q]", 0x102020, [(64, 0x40)], .fab, [⟨31, 0, .rw, 0, false⟩]⟩,
  ⟨"CTL.POOL_CFG[p]", 0x103000, [(16, 0x20)], .fab, [⟨47, 12, .rw, 0, false⟩, ⟨4, 0, .rw, 0x4, false⟩]⟩,
  ⟨"CTL.POOL_STAT[p]", 0x103008, [(16, 0x20)], .fab, [⟨63, 63, .ro, 0, false⟩, ⟨48, 32, .ro, 0, false⟩, ⟨16, 0, .ro, 0, false⟩]⟩,
  ⟨"CTL.EPOCH_ACTIVE[u]", 0x110000, [(1068, 0x8)], .fab, [⟨63, 63, .ro, 0, false⟩, ⟨31, 0, .ro, 0, false⟩]⟩,
  ⟨"CTL.SQ_DOORBELL[q]", 0x100000000, [(64, 0x1000)], .fab, [⟨63, 32, .rw, 0, false⟩, ⟨31, 0, .rw, 0, false⟩]⟩]

/-- The UPD registers. -/
def regsUpd : List RegDef := [
  ⟨"UPD.STAT[m]", 0xA00000, [(16, 0x1000)], .mem, [⟨15, 8, .ro, 0xFF, false⟩, ⟨2, 2, .ro, 0, false⟩, ⟨1, 1, .ro, 0, false⟩, ⟨0, 0, .ro, 0, false⟩]⟩,
  ⟨"UPD.CFG[m]", 0xA00008, [(16, 0x1000)], .mem, [⟨11, 8, .ep, 0xC, false⟩, ⟨0, 0, .ep, 0x1, false⟩]⟩,
  ⟨"UPD.ROW_STEP[m]", 0xA00010, [(16, 0x1000)], .mem, [⟨63, 0, .ro, 0, false⟩]⟩,
  ⟨"UPD.SROW[m][k]", 0xA00080, [(16, 0x1000), (16, 0x8)], .mem, [⟨63, 32, .ro, 0, false⟩, ⟨31, 0, .ro, 0, false⟩]⟩,
  ⟨"UPD.ELEM_CNT[m]", 0xA00100, [(16, 0x1000)], .mem, cntF⟩,
  ⟨"UPD.ROW_CNT[m]", 0xA00108, [(16, 0x1000)], .mem, cntF⟩,
  ⟨"UPD.CATCHUP_CNT[m]", 0xA00110, [(16, 0x1000)], .mem, cntF⟩,
  ⟨"UPD.NONFIN_CNT[m]", 0xA00118, [(16, 0x1000)], .mem, cntF⟩,
  ⟨"UPD.NCONV_CNT[m]", 0xA00120, [(16, 0x1000)], .mem, cntF⟩,
  ⟨"UPD.PC_IDENT_CNT[m]", 0xA00128, [(16, 0x1000)], .mem, cntF⟩]

/-- The XCH registers. -/
def regsXch : List RegDef := [
  ⟨"XCH.STAT", 0x900000, [], .fab, [⟨39, 32, .ro, 0, false⟩, ⟨31, 16, .ro, 0, false⟩, ⟨3, 0, .ro, 0, false⟩]⟩,
  ⟨"XCH.LAYER_BASE", 0x900008, [], .fab, [⟨47, 12, .ep, 0, false⟩]⟩,
  ⟨"XCH.WRING_CFG[r]", 0x900100, [(4, 0x10)], .fab, [⟨63, 63, .rw, 0, false⟩, ⟨57, 52, .rw, 0, false⟩, ⟨51, 48, .rw, 0x4, false⟩, ⟨47, 12, .rw, 0, false⟩]⟩,
  ⟨"XCH.WRING_STAT[r]", 0x900108, [(4, 0x10)], .fab, [⟨63, 32, .ro, 0, false⟩, ⟨7, 0, .ro, 0, false⟩]⟩,
  ⟨"XCH.CRING_CFG[r]", 0x900300, [(4, 0x10)], .fab, [⟨63, 63, .rw, 0, false⟩, ⟨57, 52, .rw, 0, false⟩, ⟨51, 48, .rw, 0x4, false⟩, ⟨47, 12, .rw, 0, false⟩]⟩,
  ⟨"XCH.CRING_STAT[r]", 0x900308, [(4, 0x10)], .fab, [⟨63, 32, .ro, 0, false⟩, ⟨7, 0, .ro, 0, false⟩]⟩,
  ⟨"XCH.STALE_RETURN_CNT", 0x900200, [], .fab, cntF⟩,
  ⟨"XCH.SKIP_TOKEN_CNT", 0x900208, [], .fab, cntF⟩,
  ⟨"XCH.LOST_ASSIGN_CNT", 0x900210, [], .fab, cntF⟩,
  ⟨"XCH.ROUTE_NAN_CNT", 0x900218, [], .fab, cntF⟩,
  ⟨"XCH.OVERFLOW_CNT[e]", 0x901000, [(256, 0x8)], .fab, cntF⟩]

/-- The MEM registers. -/
def regsMem : List RegDef := [
  ⟨"MEM.STAT[m]", 0x600000, [(16, 0x1000)], .mem, [⟨47, 40, .ro, 0, false⟩, ⟨39, 32, .ro, 0, false⟩, ⟨2, 2, .ro, 0, false⟩, ⟨1, 1, .ro, 0, false⟩, ⟨0, 0, .ro, 0, false⟩]⟩,
  ⟨"MEM.SCRUB_CFG[m]", 0x600008, [(16, 0x1000)], .mem, [⟨16, 16, .ep, 0x1, false⟩, ⟨15, 0, .ep, 0x8, false⟩]⟩,
  ⟨"MEM.RETRAIN_CFG[m]", 0x600010, [(16, 0x1000)], .mem, [⟨16, 16, .ep, 0x1, false⟩, ⟨15, 0, .ep, 0x64, false⟩]⟩,
  ⟨"MEM.CLEAR[m]", 0x600018, [(16, 0x1000)], .mem, [⟨0, 0, .wo, 0, false⟩]⟩,
  ⟨"MEM.ECC_ADDR[m]", 0x600020, [(16, 0x1000)], .mem, [⟨63, 63, .w1c, 0, false⟩, ⟨62, 62, .w1c, 0, false⟩, ⟨61, 61, .ro, 0, false⟩, ⟨39, 7, .ro, 0, false⟩]⟩,
  ⟨"MEM.ECC_CORR_CNT[m]", 0x600040, [(16, 0x1000)], .mem, cntF⟩,
  ⟨"MEM.ECC_DIE_CNT[m]", 0x600048, [(16, 0x1000)], .mem, cntF⟩,
  ⟨"MEM.ECC_UNCORR_CNT[m]", 0x600050, [(16, 0x1000)], .mem, cntF⟩,
  ⟨"MEM.CRC_RETRY_CNT[m]", 0x600058, [(16, 0x1000)], .mem, cntF⟩,
  ⟨"MEM.RETRAIN_CNT[m]", 0x600060, [(16, 0x1000)], .mem, cntF⟩,
  ⟨"MEM.SCRUB_PASS_CNT[m]", 0x600068, [(16, 0x1000)], .mem, cntF⟩,
  ⟨"MEM.DIE_MARK[s]", 0x610000, [(8, 0x8)], .keep, [⟨63, 63, .rw, 0, false⟩, ⟨51, 48, .rw, 0, false⟩, ⟨31, 16, .rw, 0x10, false⟩, ⟨15, 0, .ro, 0, false⟩]⟩]

/-- The CXM registers. -/
def regsCxm : List RegDef := [
  ⟨"CXM.PORT_STAT[p]", 0x700000, [(4, 0x1000)], .fab, [⟨39, 32, .ro, 0, false⟩, ⟨31, 24, .ro, 0, false⟩, ⟨23, 20, .ro, 0, false⟩, ⟨19, 16, .ro, 0, false⟩, ⟨2, 2, .ro, 0, false⟩, ⟨1, 1, .ro, 0, false⟩, ⟨0, 0, .ro, 0x1, false⟩]⟩,
  ⟨"CXM.PORT_CFG[p]", 0x700008, [(4, 0x1000)], .fab, [⟨63, 63, .rw, 0, false⟩, ⟨3, 2, .rw, 0, false⟩, ⟨1, 0, .rw, 0, false⟩]⟩,
  ⟨"CXM.ARB_CFG[p]", 0x700010, [(4, 0x1000)], .fab, [⟨7, 4, .ep, 0x1, false⟩, ⟨3, 0, .ep, 0x3, false⟩]⟩,
  ⟨"CXM.CFG_ADDR[p]", 0x700018, [(4, 0x1000)], .fab, [⟨63, 63, .ro, 0, false⟩, ⟨62, 62, .ro, 0, false⟩, ⟨61, 61, .rw, 0, false⟩, ⟨55, 55, .rw, 0, false⟩, ⟨31, 24, .rw, 0, false⟩, ⟨23, 19, .rw, 0, false⟩, ⟨18, 16, .rw, 0, false⟩, ⟨11, 2, .rw, 0, false⟩]⟩,
  ⟨"CXM.CFG_DATA[p]", 0x700020, [(4, 0x1000)], .fab, [⟨31, 0, .rw, 0, false⟩]⟩,
  ⟨"CXM.HDM_BASE[p][n]", 0x700100, [(4, 0x1000), (8, 0x20)], .fab, [⟨41, 28, .rw, 0, false⟩]⟩,
  ⟨"CXM.HDM_SIZE[p][n]", 0x700108, [(4, 0x1000), (8, 0x20)], .fab, [⟨42, 28, .rw, 0, false⟩]⟩,
  ⟨"CXM.HDM_CTL[p][n]", 0x700110, [(4, 0x1000), (8, 0x20)], .fab, [⟨63, 63, .ro, 0, false⟩, ⟨62, 62, .ro, 0, false⟩, ⟨7, 7, .rw, 0x1, false⟩, ⟨6, 6, .rw, 0, false⟩, ⟨5, 4, .rw, 0, false⟩, ⟨3, 1, .rw, 0, false⟩, ⟨0, 0, .rw, 0, false⟩]⟩,
  ⟨"CXM.POISON_CNT[p]", 0x700200, [(4, 0x1000)], .fab, cntF⟩,
  ⟨"CXM.NODEC_CNT[p]", 0x700208, [(4, 0x1000)], .fab, cntF⟩,
  ⟨"CXM.LINK_DOWN_CNT[p]", 0x700210, [(4, 0x1000)], .fab, cntF⟩]

/-- The CSL registers. -/
def regsCsl : List RegDef := [
  ⟨"CSL.LINK_STAT[l]", 0x800000, [(12, 0x100)], .fab, [⟨63, 60, .ro, 0, false⟩, ⟨59, 56, .ro, 0, false⟩, ⟨52, 48, .ro, 0, false⟩, ⟨31, 0, .ro, 0, false⟩]⟩,
  ⟨"CSL.LINK_CFG[l]", 0x800008, [(12, 0x100)], .fab, [⟨63, 63, .rw, 0, false⟩, ⟨1, 0, .ep, 0, false⟩]⟩,
  ⟨"CSL.LINK_CTL[l]", 0x800010, [(12, 0x100)], .fab, [⟨2, 2, .wo, 0, false⟩, ⟨1, 1, .wo, 0, false⟩, ⟨0, 0, .wo, 0, false⟩]⟩,
  ⟨"CSL.PEER[l]", 0x800018, [(12, 0x100)], .fab, [⟨63, 32, .ro, 0, false⟩, ⟨31, 16, .ro, 0, false⟩, ⟨15, 12, .ro, 0, false⟩, ⟨11, 0, .ro, 0, false⟩]⟩,
  ⟨"CSL.FEC_CORR_CNT[l]", 0x800040, [(12, 0x100)], .fab, cntF⟩,
  ⟨"CSL.FEC_UNCORR_CNT[l]", 0x800048, [(12, 0x100)], .fab, cntF⟩,
  ⟨"CSL.REPLAY_CNT[l]", 0x800050, [(12, 0x100)], .fab, cntF⟩,
  ⟨"CSL.DEGRADE_CNT[l]", 0x800058, [(12, 0x100)], .fab, cntF⟩,
  ⟨"CSL.DOWN_CNT[l]", 0x800060, [(12, 0x100)], .fab, cntF⟩,
  ⟨"CSL.DEVID", 0x801000, [], .fab, [⟨63, 63, .ro, 0, false⟩, ⟨11, 0, .ro, 0, false⟩]⟩,
  ⟨"CSL.GSTEP", 0x801008, [], .fab, [⟨63, 0, .ro, 0, false⟩]⟩,
  ⟨"CSL.GCFG_PTR", 0x801010, [], .fab, [⟨47, 12, .rw, 0, false⟩]⟩,
  ⟨"CSL.QLOG", 0x801018, [], .fab, [⟨63, 63, .w1c, 0, false⟩, ⟨62, 62, .w1c, 0, false⟩, ⟨59, 56, .ro, 0, false⟩, ⟨55, 52, .ro, 0, false⟩, ⟨39, 28, .ro, 0, false⟩, ⟨11, 0, .ro, 0, false⟩]⟩,
  ⟨"CSL.DIGEST[k]", 0x801040, [(8, 0x8)], .fab, [⟨63, 0, .ro, 0, false⟩]⟩,
  ⟨"CSL.ROUTE_DROP_CNT", 0x801100, [], .fab, cntF⟩,
  ⟨"CSL.STEP_REFUSE_CNT", 0x801108, [], .fab, cntF⟩,
  ⟨"CSL.ROUTE[d]", 0x808000, [(4096, 0x8)], .fab, [⟨11, 0, .rw, 0, false⟩]⟩]

/-- The RSL registers. -/
def regsRsl : List RegDef := [
  ⟨"RSL.STAT", 0xB00000, [], .fab, [⟨3, 3, .ro, 0, false⟩, ⟨2, 2, .ro, 0, false⟩, ⟨1, 1, .ro, 0, false⟩, ⟨0, 0, .ro, 0, false⟩]⟩,
  ⟨"RSL.POLICY", 0xB00008, [], .fab, [⟨1, 1, .rw, 0x1, false⟩, ⟨0, 0, .rw, 0x1, false⟩]⟩,
  ⟨"RSL.CAIRN_CFG", 0xB00010, [], .fab, [⟨0, 0, .ep, 0x1, false⟩]⟩,
  ⟨"RSL.ROSTER", 0xB00018, [], .fab, [⟨47, 0, .rw, 0, false⟩]⟩,
  ⟨"RSL.CUR_BASE", 0xB00020, [], .fab, [⟨47, 0, .rw, 0, false⟩]⟩,
  ⟨"RSL.DROP", 0xB00028, [], .fab, [⟨11, 0, .wo, 0, false⟩]⟩,
  ⟨"RSL.DROP_LOG", 0xB00030, [], .fab, [⟨63, 63, .w1c, 0, false⟩, ⟨62, 62, .w1c, 0, false⟩, ⟨61, 61, .ro, 0, false⟩, ⟨59, 48, .ro, 0, false⟩, ⟨47, 0, .ro, 0, false⟩]⟩,
  ⟨"RSL.PENDING", 0xB00038, [], .fab, [⟨63, 63, .w1c, 0, false⟩, ⟨35, 24, .ro, 0, false⟩, ⟨11, 0, .ro, 0, false⟩]⟩,
  ⟨"RSL.SUSPECT", 0xB00040, [], .fab, [⟨63, 63, .w1c, 0, false⟩, ⟨62, 62, .w1c, 0, false⟩, ⟨11, 0, .ro, 0, false⟩]⟩,
  ⟨"RSL.HOLD", 0xB00048, [], .fab, [⟨63, 63, .wo, 0, false⟩, ⟨62, 62, .ro, 0, false⟩, ⟨55, 48, .ro, 0, false⟩, ⟨47, 0, .rw, 0, false⟩]⟩,
  ⟨"RSL.RESTORE", 0xB00050, [], .fab, [⟨31, 0, .wo, 0, false⟩]⟩,
  ⟨"RSL.RESTORE_STAT", 0xB00058, [], .fab, [⟨63, 63, .ro, 0, false⟩, ⟨39, 32, .ro, 0, false⟩, ⟨31, 0, .ro, 0, false⟩]⟩,
  ⟨"RSL.CAIRN_STAT", 0xB00060, [], .fab, [⟨63, 62, .ro, 0, false⟩, ⟨39, 32, .ro, 0, false⟩, ⟨31, 0, .ro, 0, false⟩]⟩,
  ⟨"RSL.DROPPED_MB_CNT", 0xB00080, [], .fab, cntF⟩,
  ⟨"RSL.CAIRN_CNT", 0xB00088, [], .fab, cntF⟩,
  ⟨"RSL.RESTORE_PIECE_CNT", 0xB00090, [], .fab, cntF⟩,
  ⟨"RSL.REFETCH_CNT", 0xB00098, [], .fab, cntF⟩,
  ⟨"RSL.UNVERIFIED_CNT", 0xB000A0, [], .fab, cntF⟩]

/-- The HIF registers. -/
def regsHif : List RegDef := [
  ⟨"HIF.ID", 0x0, [], .hif, [⟨47, 32, .ro, 0, false⟩, ⟨31, 16, .ro, 0x800, false⟩, ⟨7, 0, .ro, 0xB0, false⟩]⟩,
  ⟨"HIF.LINK_STAT", 0x8, [], .hif, [⟨12, 8, .ro, 0, false⟩, ⟨4, 3, .ro, 0, false⟩, ⟨2, 2, .ro, 0, false⟩, ⟨1, 1, .ro, 0, false⟩, ⟨0, 0, .ro, 0, false⟩]⟩,
  ⟨"HIF.WIN_BASE", 0x10, [], .hif, [⟨47, 30, .rw, 0, false⟩]⟩,
  ⟨"HIF.HOSTWIN_BASE", 0x18, [], .hif, [⟨63, 12, .rw, 0, false⟩]⟩,
  ⟨"HIF.BAD_ADDR", 0x20, [], .hif, [⟨63, 63, .w1c, 0, false⟩, ⟨62, 62, .w1c, 0, false⟩, ⟨61, 61, .ro, 0, false⟩, ⟨51, 48, .ro, 0, false⟩, ⟨39, 0, .ro, 0, false⟩]⟩,
  ⟨"HIF.BAD_ACCESS_CNT", 0x40, [], .hif, cntF⟩,
  ⟨"HIF.DMA_ERR_CNT", 0x48, [], .hif, cntF⟩,
  ⟨"HIF.POISON_TX_CNT", 0x50, [], .hif, cntF⟩,
  ⟨"HIF.MSIX_ADDR[v]", 0x10000, [(2048, 0x10)], .hif, [⟨63, 0, .rw, 0, false⟩]⟩,
  ⟨"HIF.MSIX_DATA[v]", 0x10008, [(2048, 0x10)], .hif, [⟨32, 32, .rw, 0x1, false⟩, ⟨31, 0, .rw, 0, false⟩]⟩,
  ⟨"HIF.PBA[w]", 0x18000, [(32, 0x8)], .hif, [⟨63, 0, .ro, 0, false⟩]⟩]

/-- The SEC registers. -/
def regsSec : List RegDef := [
  ⟨"SEC.BOOT_STAT", 0x300000, [], .aon, [⟨63, 60, .ro, 0, false⟩, ⟨59, 56, .ro, 0xF, false⟩, ⟨55, 48, .ro, 0, false⟩, ⟨47, 40, .ro, 0, false⟩, ⟨32, 32, .ro, 0, false⟩, ⟨31, 0, .ro, 0, false⟩]⟩,
  ⟨"SEC.ROLLBACK", 0x300008, [], .aon, [⟨6, 0, .ro, 0, false⟩]⟩,
  ⟨"SEC.ROLLBACK_ADV", 0x300010, [], .aon, [⟨6, 0, .wo, 0, false⟩]⟩,
  ⟨"SEC.PEER_IDS", 0x300018, [], .aon, [⟨47, 0, .rw, 0, false⟩]⟩,
  ⟨"SEC.DEBUG_CTL", 0x300020, [], .aon, [⟨1, 1, .wo, 0, false⟩, ⟨0, 0, .wo, 0, false⟩]⟩,
  ⟨"SEC.DEBUG_STAT", 0x300028, [], .unlock, [⟨63, 63, .ro, 0, false⟩, ⟨2, 0, .ro, 0, false⟩]⟩,
  ⟨"SEC.DEBUG_NONCE[k]", 0x300040, [(4, 0x8)], .aon, [⟨63, 0, .ro, 0, false⟩]⟩,
  ⟨"SEC.MEAS_M0[k]", 0x300100, [(8, 0x8)], .aon, [⟨63, 0, .ro, 0, false⟩]⟩,
  ⟨"SEC.MEAS_M1[k]", 0x300140, [(8, 0x8)], .aon, [⟨63, 0, .ro, 0, false⟩]⟩,
  ⟨"SEC.IDHASH[k]", 0x300180, [(4, 0x8)], .aon, [⟨63, 0, .ro, 0, false⟩]⟩,
  ⟨"SEC.ATTEST_BUSY_CNT", 0x300200, [], .aon, cntF⟩]

/-- The PWR registers. -/
def regsPwr : List RegDef := [
  ⟨"PWR.STAT", 0x400000, [], .aon, [⟨51, 40, .ro, 0xFFF, false⟩, ⟨39, 39, .ro, 0, false⟩, ⟨38, 38, .ro, 0, false⟩, ⟨37, 37, .ro, 0, false⟩, ⟨31, 16, .ro, 0, false⟩, ⟨15, 0, .ro, 0, false⟩]⟩,
  ⟨"PWR.ENVELOPE", 0x400008, [], .retained, [⟨11, 0, .rw, 0xC80, false⟩]⟩,
  ⟨"PWR.VLIMIT", 0x400010, [], .retained, [⟨31, 16, .rw, 0x370, false⟩, ⟨15, 0, .rw, 0x244, false⟩]⟩,
  ⟨"PWR.TEMP", 0x400018, [], .aon, [⟨23, 16, .ro, 0, false⟩, ⟨15, 0, .ro, 0, false⟩]⟩,
  ⟨"PWR.THERM_STEP_CNT", 0x400040, [], .aon, cntF⟩,
  ⟨"PWR.ENV_STEP_CNT", 0x400048, [], .aon, cntF⟩,
  ⟨"PWR.GATE_CNT", 0x400050, [], .aon, cntF⟩]

/-- The RST registers. -/
def regsRst : List RegDef := [
  ⟨"RST.CAUSE", 0x500000, [], .por, [⟨47, 32, .ro, 0, false⟩, ⟨23, 16, .w1c, 0x1, false⟩, ⟨9, 9, .ro, 0, false⟩, ⟨8, 8, .ro, 0, false⟩, ⟨7, 0, .ro, 0x1, false⟩]⟩,
  ⟨"RST.READY", 0x500008, [], .aon, [⟨63, 48, .ro, 0, false⟩, ⟨47, 44, .ro, 0, false⟩, ⟨43, 32, .ro, 0, false⟩, ⟨31, 16, .ro, 0, false⟩, ⟨6, 6, .ro, 0, false⟩, ⟨5, 5, .ro, 0, false⟩, ⟨4, 4, .ro, 0, false⟩, ⟨3, 3, .ro, 0, false⟩, ⟨2, 2, .ro, 0, false⟩, ⟨1, 1, .ro, 0, false⟩, ⟨0, 0, .ro, 0, false⟩]⟩,
  ⟨"RST.FAIL", 0x500010, [], .aon, [⟨63, 48, .ro, 0, false⟩, ⟨47, 44, .ro, 0, false⟩, ⟨43, 32, .ro, 0, false⟩, ⟨31, 16, .ro, 0, false⟩, ⟨6, 6, .ro, 0, false⟩, ⟨5, 5, .ro, 0, false⟩, ⟨4, 4, .ro, 0, false⟩, ⟨3, 3, .ro, 0, false⟩, ⟨2, 2, .ro, 0, false⟩, ⟨1, 1, .ro, 0, false⟩, ⟨0, 0, .ro, 0, false⟩]⟩,
  ⟨"RST.SW_RESET", 0x500018, [], .aon, [⟨63, 32, .wo, 0, false⟩, ⟨0, 0, .wo, 0, false⟩]⟩,
  ⟨"RST.LOCKUP", 0x500020, [], .por, [⟨63, 63, .w1c, 0, false⟩, ⟨62, 62, .w1c, 0, false⟩, ⟨10, 0, .ro, 0, false⟩]⟩,
  ⟨"RST.STRAP", 0x500028, [], .retained, [⟨28, 17, .ro, 0, false⟩, ⟨16, 16, .ro, 0, false⟩, ⟨12, 12, .ro, 0, false⟩, ⟨11, 0, .ro, 0, false⟩]⟩,
  ⟨"RST.PINMAP", 0x500030, [], .aon, [⟨29, 0, .ro, 0, false⟩]⟩,
  ⟨"RST.READY_CORE[k]", 0x500100, [(13, 0x8)], .aon, [⟨63, 0, .ro, 0, false⟩]⟩]

/-- The MGT registers. -/
def regsMgt : List RegDef := [
  ⟨"MGT.EVENT", 0x200000, [], .mgt, [⟨7, 0, .w1c, 0, false⟩]⟩,
  ⟨"MGT.EVENT_CFG", 0x200008, [], .mgt, [⟨26, 16, .rw, 0x7FF, false⟩, ⟨15, 8, .rw, 0, false⟩, ⟨7, 0, .rw, 0, false⟩]⟩,
  ⟨"MGT.DRAIN_TIMEOUT", 0x200010, [], .mgt, [⟨15, 0, .rw, 0x32, false⟩]⟩,
  ⟨"MGT.WDOG", 0x200018, [], .mgt, [⟨63, 63, .rw, 0, false⟩, ⟨62, 62, .ro, 0, false⟩, ⟨15, 0, .rw, 0x3E8, false⟩]⟩,
  ⟨"MGT.WDOG_KICK", 0x200020, [], .mgt, [⟨63, 32, .wo, 0, false⟩]⟩,
  ⟨"MGT.FUNC_REQ", 0x200028, [], .mgt, [⟨31, 28, .rw, 0, false⟩, ⟨27, 24, .rw, 0, false⟩, ⟨15, 0, .rw, 0, false⟩]⟩,
  ⟨"MGT.FUNC_STAT", 0x200030, [], .mgt, [⟨63, 63, .ro, 0, false⟩, ⟨55, 48, .ro, 0, false⟩, ⟨47, 32, .ro, 0, false⟩, ⟨31, 28, .ro, 0, false⟩, ⟨27, 24, .ro, 0, false⟩, ⟨15, 0, .ro, 0, false⟩]⟩,
  ⟨"MGT.INTERNAL", 0x200038, [], .mgt, [⟨63, 63, .w1c, 0, false⟩, ⟨62, 62, .w1c, 0, false⟩, ⟨55, 48, .ro, 0, false⟩, ⟨42, 32, .ro, 0, false⟩]⟩,
  ⟨"MGT.MBOX_REQ", 0x200040, [], .mgt, [⟨63, 63, .rw, 0, false⟩, ⟨47, 32, .rw, 0, false⟩, ⟨19, 0, .rw, 0, false⟩]⟩,
  ⟨"MGT.MBOX_RSP", 0x200048, [], .mgt, [⟨63, 63, .ro, 0, false⟩, ⟨55, 48, .ro, 0, false⟩, ⟨47, 32, .ro, 0, false⟩, ⟨19, 0, .ro, 0, false⟩]⟩,
  ⟨"MGT.INPUT", 0x200050, [], .mgt, [⟨63, 32, .ro, 0, false⟩, ⟨31, 0, .ro, 0, false⟩]⟩,
  ⟨"MGT.REQ_REJECT_CNT", 0x200080, [], .mgt, cntF⟩,
  ⟨"MGT.ABORT_CNT", 0x200088, [], .mgt, cntF⟩,
  ⟨"MGT.TEST_FAIL_CNT", 0x200090, [], .mgt, cntF⟩,
  ⟨"MGT.TEMP[n]", 0x200800, [(64, 0x8)], .mgt, [⟨15, 0, .ro, 0, false⟩]⟩,
  ⟨"MGT.RAIL[r]", 0x200A00, [(5, 0x8)], .mgt, [⟨47, 32, .ro, 0, false⟩, ⟨31, 0, .ro, 0, false⟩]⟩,
  ⟨"MGT.RATE_G[n]", 0x201000, [(100, 0x8)], .mgt, [⟨47, 32, .ro, 0, false⟩, ⟨31, 31, .ro, 0, false⟩, ⟨15, 0, .ro, 0, false⟩]⟩]

/-- Every register: exactly the counters and the fault and record registers of the catalogue of R519 among them. -/
def regTable : List RegDef := regsCor ++ regsSpd ++ regsNoc ++ regsSeq ++ regsSip ++ regsCtl ++ regsUpd ++ regsXch ++ regsMem ++ regsCxm ++ regsCsl ++ regsRsl ++ regsHif ++ regsSec ++ regsPwr ++ regsRst ++ regsMgt

/-- The counters of the block: those of the catalogue of R519 and no others. -/
def counters : List RegDef := regTable.filter fun r => r.fields == cntF

/-- The indices of offset `d` in an array with these dimensions, or none where no element starts there. -/
def dimIndex : List (Nat × Nat) → Nat → Option (List Nat)
  | [], d => if d = 0 then some [] else none
  | (n, st) :: ds, d => if d / st < n then (dimIndex ds (d % st)).map fun l => (d / st) :: l else none

/-- The register at an offset, with its indices. -/
def findReg (off : Nat) : Option (RegDef × List Nat) :=
  regTable.findSome? fun r => if r.base ≤ off then (dimIndex r.dims (off - r.base)).map fun ix => (r, ix) else none

/-- Bits `hi` to `lo` of a word. -/
def bits (hi lo : Nat) (v : Word) : Nat := (v.toNat >>> lo) % 2 ^ (hi + 1 - lo)

/-- `v` with bits `hi` to `lo` replaced by `x`. -/
def setBits (hi lo : Nat) (v : Word) (x : Nat) : Word :=
  let m := (2 ^ (hi + 1 - lo) - 1) <<< lo
  (v &&& ~~~(BitVec.ofNat 64 m)) ||| BitVec.ofNat 64 ((x % 2 ^ (hi + 1 - lo)) <<< lo)

/-- The reset value of a register with these indices. -/
def RegDef.resetVal (r : RegDef) (ix : List Nat) : Word :=
  r.fields.foldl (fun v f => setBits f.hi f.lo v (if f.idx then ix.headD 0 else f.reset)) 0

/-- The reset value of the register at an offset (0 where none stands). -/
def regReset (off : Nat) : Word :=
  match findReg off with
  | some (r, ix) => r.resetVal ix
  | none => 0

/-- Whether the register at an offset is a counter of R14. -/
def RegDef.isCnt (r : RegDef) : Bool := r.fields.any fun f => f.acc == .rc

/-! ### Offsets by name -/

namespace Reg

def corArrayWidth (i : Nat) : Nat := 0x1000100 + 0x10000 * i
def corDenseStat (i : Nat) : Nat := 0x1000108 + 0x10000 * i
def corDenseCfg (i : Nat) : Nat := 0x1000110 + 0x10000 * i
def corRetryCnt (i : Nat) : Nat := 0x1000200 + 0x10000 * i
def corClipCnt (i : Nat) : Nat := 0x1000208 + 0x10000 * i
def corEscapeOvfCnt (i : Nat) : Nat := 0x1000210 + 0x10000 * i
def corLoadBeatCnt (i : Nat) : Nat := 0x1000218 + 0x10000 * i
def corStreamBeatCnt (i : Nat) : Nat := 0x1000220 + 0x10000 * i
def corConvWaitCnt (i : Nat) : Nat := 0x1000228 + 0x10000 * i
def corWgrSkipCnt (i : Nat) : Nat := 0x1000230 + 0x10000 * i
def corSparseStat (i : Nat) : Nat := 0x1000300 + 0x10000 * i
def corDropIdxCnt (i : Nat) : Nat := 0x1000310 + 0x10000 * i
def corGatherReadCnt (i : Nat) : Nat := 0x1000318 + 0x10000 * i
def corGatherCoalCnt (i : Nat) : Nat := 0x1000320 + 0x10000 * i
def corMrgMatchCnt (i : Nat) : Nat := 0x1000328 + 0x10000 * i
def corMrgTruncCnt (i : Nat) : Nat := 0x1000330 + 0x10000 * i
def corFeedWaitCnt (i : Nat) : Nat := 0x1000338 + 0x10000 * i
def corCmpTileCnt (i : Nat) : Nat := 0x1000400 + 0x10000 * i
def corCmpRawCnt (i : Nat) : Nat := 0x1000408 + 0x10000 * i
def corCmpSavedCnt (i : Nat) : Nat := 0x1000410 + 0x10000 * i
def corPruneDropCnt (i : Nat) : Nat := 0x1000418 + 0x10000 * i
def corSkipRowCnt (i : Nat) : Nat := 0x1000420 + 0x10000 * i
def corTileBadCnt (i : Nat) : Nat := 0x1000428 + 0x10000 * i
def corBatNzCnt (i : Nat) : Nat := 0x1000430 + 0x10000 * i
def corBatMissCnt (i : Nat) : Nat := 0x1000438 + 0x10000 * i
def spdBankPart0 (i : Nat) : Nat := 0x1000800 + 0x10000 * i
def spdBankPart1 (i : Nat) : Nat := 0x1000808 + 0x10000 * i
def spdBankPart2 (i : Nat) : Nat := 0x1000810 + 0x10000 * i
def spdBankPart3 (i : Nat) : Nat := 0x1000818 + 0x10000 * i
def spdBankConflictCnt (i : Nat) : Nat := 0x1000840 + 0x10000 * i
def spdDenseSecCnt (i : Nat) : Nat := 0x1000848 + 0x10000 * i
def spdEccCorrCnt (i : Nat) : Nat := 0x1000850 + 0x10000 * i
def spdEccUncorrCnt (i : Nat) : Nat := 0x1000858 + 0x10000 * i
def spdEccAddr (i : Nat) : Nat := 0x1000860 + 0x10000 * i
def nocRouterStat (i : Nat) : Nat := 0x1000C00 + 0x10000 * i
def nocLinkCorrCnt (i : Nat) : Nat := 0x1000C40 + 0x10000 * i
def nocLinkUncorrCnt (i : Nat) : Nat := 0x1000C48 + 0x10000 * i
def nocRopeSkipCnt (i : Nat) : Nat := 0x1000C50 + 0x10000 * i
def nocRopeTakeCnt (i : Nat) : Nat := 0x1000C58 + 0x10000 * i
def nocRopeStallCnt (i : Nat) : Nat := 0x1000C60 + 0x10000 * i
def nocBarPollCnt (i : Nat) : Nat := 0x1000C68 + 0x10000 * i
def nocBarArriveCnt (i : Nat) : Nat := 0x1000C70 + 0x10000 * i
def corSeqStat (i : Nat) : Nat := 0x1000E00 + 0x10000 * i
def corSeqFault (i : Nat) : Nat := 0x1000E08 + 0x10000 * i
def corSeqFaultVa (i : Nat) : Nat := 0x1000E10 + 0x10000 * i
def corSeqIssueCnt (i : Nat) : Nat := 0x1000E40 + 0x10000 * i
def corIstoreCorrCnt (i : Nat) : Nat := 0x1000E48 + 0x10000 * i
def corHandleStallCnt (i : Nat) : Nat := 0x1000E50 + 0x10000 * i
def sipPtRoot : Nat := 0xC20000
def sipTlbInv : Nat := 0xC20008
def sipPtStat : Nat := 0xC20010
def ctlEpoch : Nat := 0x100100
def ctlSchedBase : Nat := 0x100180
def ctlSchedRows : Nat := 0x100188
def ctlRingErrCnt : Nat := 0x100200
def ctlSeqStat (i : Nat) : Nat := 0x100E00 + 0x80 * i
def ctlSeqFault (i : Nat) : Nat := 0x100E08 + 0x80 * i
def ctlSeqFaultVa (i : Nat) : Nat := 0x100E10 + 0x80 * i
def ctlSeqIssueCnt (i : Nat) : Nat := 0x100E40 + 0x80 * i
def ctlHandleStallCnt (i : Nat) : Nat := 0x100E50 + 0x80 * i
def ctlSqCfg (i : Nat) : Nat := 0x102000 + 0x40 * i
def ctlSqStat (i : Nat) : Nat := 0x102008 + 0x40 * i
def ctlCqCfg (i : Nat) : Nat := 0x102010 + 0x40 * i
def ctlCqTail (i : Nat) : Nat := 0x102018 + 0x40 * i
def ctlCqHead (i : Nat) : Nat := 0x102020 + 0x40 * i
def ctlPoolCfg (i : Nat) : Nat := 0x103000 + 0x20 * i
def ctlPoolStat (i : Nat) : Nat := 0x103008 + 0x20 * i
def ctlEpochActive (i : Nat) : Nat := 0x110000 + 0x8 * i
def ctlSqDoorbell (i : Nat) : Nat := 0x100000000 + 0x1000 * i
def updStat (i : Nat) : Nat := 0xA00000 + 0x1000 * i
def updCfg (i : Nat) : Nat := 0xA00008 + 0x1000 * i
def updRowStep (i : Nat) : Nat := 0xA00010 + 0x1000 * i
def updSrow (i : Nat) (j : Nat) : Nat := 0xA00080 + 0x1000 * i + 0x8 * j
def updElemCnt (i : Nat) : Nat := 0xA00100 + 0x1000 * i
def updRowCnt (i : Nat) : Nat := 0xA00108 + 0x1000 * i
def updCatchupCnt (i : Nat) : Nat := 0xA00110 + 0x1000 * i
def updNonfinCnt (i : Nat) : Nat := 0xA00118 + 0x1000 * i
def updNconvCnt (i : Nat) : Nat := 0xA00120 + 0x1000 * i
def updPcIdentCnt (i : Nat) : Nat := 0xA00128 + 0x1000 * i
def xchStat : Nat := 0x900000
def xchLayerBase : Nat := 0x900008
def xchWringCfg (i : Nat) : Nat := 0x900100 + 0x10 * i
def xchWringStat (i : Nat) : Nat := 0x900108 + 0x10 * i
def xchCringCfg (i : Nat) : Nat := 0x900300 + 0x10 * i
def xchCringStat (i : Nat) : Nat := 0x900308 + 0x10 * i
def xchStaleReturnCnt : Nat := 0x900200
def xchSkipTokenCnt : Nat := 0x900208
def xchLostAssignCnt : Nat := 0x900210
def xchRouteNanCnt : Nat := 0x900218
def xchOverflowCnt (i : Nat) : Nat := 0x901000 + 0x8 * i
def memStat (i : Nat) : Nat := 0x600000 + 0x1000 * i
def memScrubCfg (i : Nat) : Nat := 0x600008 + 0x1000 * i
def memRetrainCfg (i : Nat) : Nat := 0x600010 + 0x1000 * i
def memClear (i : Nat) : Nat := 0x600018 + 0x1000 * i
def memEccAddr (i : Nat) : Nat := 0x600020 + 0x1000 * i
def memEccCorrCnt (i : Nat) : Nat := 0x600040 + 0x1000 * i
def memEccDieCnt (i : Nat) : Nat := 0x600048 + 0x1000 * i
def memEccUncorrCnt (i : Nat) : Nat := 0x600050 + 0x1000 * i
def memCrcRetryCnt (i : Nat) : Nat := 0x600058 + 0x1000 * i
def memRetrainCnt (i : Nat) : Nat := 0x600060 + 0x1000 * i
def memScrubPassCnt (i : Nat) : Nat := 0x600068 + 0x1000 * i
def memDieMark (i : Nat) : Nat := 0x610000 + 0x8 * i
def cxmPortStat (i : Nat) : Nat := 0x700000 + 0x1000 * i
def cxmPortCfg (i : Nat) : Nat := 0x700008 + 0x1000 * i
def cxmArbCfg (i : Nat) : Nat := 0x700010 + 0x1000 * i
def cxmCfgAddr (i : Nat) : Nat := 0x700018 + 0x1000 * i
def cxmCfgData (i : Nat) : Nat := 0x700020 + 0x1000 * i
def cxmHdmBase (i : Nat) (j : Nat) : Nat := 0x700100 + 0x1000 * i + 0x20 * j
def cxmHdmSize (i : Nat) (j : Nat) : Nat := 0x700108 + 0x1000 * i + 0x20 * j
def cxmHdmCtl (i : Nat) (j : Nat) : Nat := 0x700110 + 0x1000 * i + 0x20 * j
def cxmPoisonCnt (i : Nat) : Nat := 0x700200 + 0x1000 * i
def cxmNodecCnt (i : Nat) : Nat := 0x700208 + 0x1000 * i
def cxmLinkDownCnt (i : Nat) : Nat := 0x700210 + 0x1000 * i
def cslLinkStat (i : Nat) : Nat := 0x800000 + 0x100 * i
def cslLinkCfg (i : Nat) : Nat := 0x800008 + 0x100 * i
def cslLinkCtl (i : Nat) : Nat := 0x800010 + 0x100 * i
def cslPeer (i : Nat) : Nat := 0x800018 + 0x100 * i
def cslFecCorrCnt (i : Nat) : Nat := 0x800040 + 0x100 * i
def cslFecUncorrCnt (i : Nat) : Nat := 0x800048 + 0x100 * i
def cslReplayCnt (i : Nat) : Nat := 0x800050 + 0x100 * i
def cslDegradeCnt (i : Nat) : Nat := 0x800058 + 0x100 * i
def cslDownCnt (i : Nat) : Nat := 0x800060 + 0x100 * i
def cslDevid : Nat := 0x801000
def cslGstep : Nat := 0x801008
def cslGcfgPtr : Nat := 0x801010
def cslQlog : Nat := 0x801018
def cslDigest (i : Nat) : Nat := 0x801040 + 0x8 * i
def cslRouteDropCnt : Nat := 0x801100
def cslStepRefuseCnt : Nat := 0x801108
def cslRoute (i : Nat) : Nat := 0x808000 + 0x8 * i
def rslStat : Nat := 0xB00000
def rslPolicy : Nat := 0xB00008
def rslCairnCfg : Nat := 0xB00010
def rslRoster : Nat := 0xB00018
def rslCurBase : Nat := 0xB00020
def rslDrop : Nat := 0xB00028
def rslDropLog : Nat := 0xB00030
def rslPending : Nat := 0xB00038
def rslSuspect : Nat := 0xB00040
def rslHold : Nat := 0xB00048
def rslRestore : Nat := 0xB00050
def rslRestoreStat : Nat := 0xB00058
def rslCairnStat : Nat := 0xB00060
def rslDroppedMbCnt : Nat := 0xB00080
def rslCairnCnt : Nat := 0xB00088
def rslRestorePieceCnt : Nat := 0xB00090
def rslRefetchCnt : Nat := 0xB00098
def rslUnverifiedCnt : Nat := 0xB000A0
def hifId : Nat := 0x0
def hifLinkStat : Nat := 0x8
def hifWinBase : Nat := 0x10
def hifHostwinBase : Nat := 0x18
def hifBadAddr : Nat := 0x20
def hifBadAccessCnt : Nat := 0x40
def hifDmaErrCnt : Nat := 0x48
def hifPoisonTxCnt : Nat := 0x50
def hifMsixAddr (i : Nat) : Nat := 0x10000 + 0x10 * i
def hifMsixData (i : Nat) : Nat := 0x10008 + 0x10 * i
def hifPba (i : Nat) : Nat := 0x18000 + 0x8 * i
def secBootStat : Nat := 0x300000
def secRollback : Nat := 0x300008
def secRollbackAdv : Nat := 0x300010
def secPeerIds : Nat := 0x300018
def secDebugCtl : Nat := 0x300020
def secDebugStat : Nat := 0x300028
def secDebugNonce (i : Nat) : Nat := 0x300040 + 0x8 * i
def secMeasM0 (i : Nat) : Nat := 0x300100 + 0x8 * i
def secMeasM1 (i : Nat) : Nat := 0x300140 + 0x8 * i
def secIdhash (i : Nat) : Nat := 0x300180 + 0x8 * i
def secAttestBusyCnt : Nat := 0x300200
def pwrStat : Nat := 0x400000
def pwrEnvelope : Nat := 0x400008
def pwrVlimit : Nat := 0x400010
def pwrTemp : Nat := 0x400018
def pwrThermStepCnt : Nat := 0x400040
def pwrEnvStepCnt : Nat := 0x400048
def pwrGateCnt : Nat := 0x400050
def rstCause : Nat := 0x500000
def rstReady : Nat := 0x500008
def rstFail : Nat := 0x500010
def rstSwReset : Nat := 0x500018
def rstLockup : Nat := 0x500020
def rstStrap : Nat := 0x500028
def rstPinmap : Nat := 0x500030
def rstReadyCore (i : Nat) : Nat := 0x500100 + 0x8 * i
def mgtEvent : Nat := 0x200000
def mgtEventCfg : Nat := 0x200008
def mgtDrainTimeout : Nat := 0x200010
def mgtWdog : Nat := 0x200018
def mgtWdogKick : Nat := 0x200020
def mgtFuncReq : Nat := 0x200028
def mgtFuncStat : Nat := 0x200030
def mgtInternal : Nat := 0x200038
def mgtMboxReq : Nat := 0x200040
def mgtMboxRsp : Nat := 0x200048
def mgtInput : Nat := 0x200050
def mgtReqRejectCnt : Nat := 0x200080
def mgtAbortCnt : Nat := 0x200088
def mgtTestFailCnt : Nat := 0x200090
def mgtTemp (i : Nat) : Nat := 0x200800 + 0x8 * i
def mgtRail (i : Nat) : Nat := 0x200A00 + 0x8 * i
def mgtRateG (i : Nat) : Nat := 0x201000 + 0x8 * i

/-- The register block of a siphon (R238): 0 to 199 in their grotto's block, 200 to 215 at the memory edges. -/
def sip (s : Nat) : Nat :=
  if s < 200 then 0x1000A00 + 0x500000 * (s / 2 / 10) + 0x40000 * (s / 2 % 10) + 0x80 * (s % 2)
  else 0xC00000 + 0x100 * (s - 200)

/-- The program store of a siphon (R215). -/
def sipStore (s : Nat) : Nat :=
  if s < 200 then 0x1002000 + 0x500000 * (s / 2 / 10) + 0x40000 * (s / 2 % 10) + 0x1000 * (s % 2)
  else 0xC10000 + 0x1000 * (s - 200)
def sipFault (s : Nat) : Nat := sip s + 0x8
def sipFaultVa (s : Nat) : Nat := sip s + 0x10
def sipOobReadCnt (s : Nat) : Nat := sip s + 0x40
def sipDropCnt (s : Nat) : Nat := sip s + 0x48
def sipTlbMissCnt (s : Nat) : Nat := sip s + 0x50
def sipWalkReadCnt (s : Nat) : Nat := sip s + 0x58
def sipPackBadCnt (s : Nat) : Nat := sip s + 0x60

end Reg

end Sys2Proof
end

