-- ==== Sys2Proof/Machine/State.lean ====
section
/-! DEFINITION. The state of the block, as plain data: every register, memory, buffer, queue and mode the spec gives
the Wehal, each unit's part in a record of its own, and the queue of waiting commands. -/

namespace Sys2Proof.Machine
open Sys2Proof

/-! ### Stops -/

/-- The reasons the whole block could stop with a fault. There is none: every fault the spec describes is recorded in
a register or carried by a completion code, and the block goes on, so the type has no constructor. -/
inductive Fault where
  deriving DecidableEq, Repr

/-- The reasons a command has no meaning. -/
inductive Refusal where
  /-- A command whose meaning is not written; the arm of `exec` answers it. Safe: the block stops. -/
  | notModelled (mnemonic : String)
  deriving DecidableEq, Repr

/-! ### Completion codes -/

/-- The completion codes of R334: exactly those of the second table of R519. -/
inductive Code where
  | ok | counts | aborted | cancelled | prot | trans | desc | retry | link | peer | ecc | notConv | internal
  deriving DecidableEq, Repr

namespace Code

/-- The byte that carries the code (R334). -/
def toNat : Code → Nat
  | .ok => 0x00 | .counts => 0x01 | .aborted => 0x10 | .cancelled => 0x11 | .prot => 0x20 | .trans => 0x21
  | .desc => 0x22 | .retry => 0x30 | .link => 0x40 | .peer => 0x41 | .ecc => 0x50 | .notConv => 0x60
  | .internal => 0x7F

/-- The rank of the code, 0 the least severe (R334). -/
def rank : Code → Nat
  | .ok => 0 | .counts => 1 | .notConv => 2 | .retry => 3 | .cancelled => 4 | .aborted => 5 | .peer => 6
  | .link => 7 | .desc => 8 | .trans => 9 | .prot => 10 | .ecc => 11 | .internal => 12

/-- Wherever codes combine, the code of highest rank wins (R334); the first of two equal ranks stays (R278). -/
def max (x y : Code) : Code := if y.rank > x.rank then y else x

end Code

/-! ### Sequencers -/

/-- A handle (R276). -/
inductive Handle where
  | free
  | busy
  | done (code : Code)
  deriving DecidableEq, Repr

/-- COR.SEQ_STAT.STATE (R289): idle, running, ending after END or a fault, waiting in WAIT, WAITM or BAR.WAIT. -/
inductive RunState where
  | idle | running | ending | waiting
  deriving DecidableEq, Repr

/-- The four event counts that a completion record carries (R330, R530). -/
structure Counts where
  drops : Nat := 0
  clips : Nat := 0
  escapes : Nat := 0
  retries : Nat := 0
  deriving DecidableEq, Repr

/-- Where the work of a tensor instruction stands: issued, begun, or ended with its code and its handle still BUSY. -/
inductive WStatus where
  | queued
  | running
  | ended (code : Code)
  deriving DecidableEq, Repr

/-- A tensor instruction that was issued and whose handle is not yet DONE, with the operands copied at issue (R291). -/
structure Work where
  /-- its place in the unit's issue order -/
  seq : Nat
  handle : Nat
  instr : Instr
  /-- the copied descriptor slots -/
  descs : List Desc
  /-- the copied registers -/
  vals : List Word
  /-- the copied parameter, rope or entry block -/
  block : List Byte
  /-- it starts only when every earlier instruction below this place has completed (R308) -/
  fence : Nat
  /-- the places of the instructions it waits for (R256, R278) -/
  after : List Nat
  status : WStatus
  /-- the cores or engines whose share is not finished (R314, R319) -/
  left : List Nat
  /-- the combined code of the shares finished (R314, R319) -/
  acc : Code
  /-- the device's epoch when it was issued (R193) -/
  epoch : BitVec 32 := 0
  /-- byte runs (address, length) that another access not ordered with it shares, whose values are undefined
  (R129, R171, R197, R283; log entry 70) -/
  race : List (Nat × Nat) := []
  /-- the byte runs that a transfer has written so far (R228) -/
  wrote : List (Nat × Nat) := []
  /-- a WGR all of whose columns were masked when it issued: it reads and writes no chamber row but its mask (R120) -/
  skips : Bool := false
  deriving DecidableEq, Repr

/-- What launched the running program (R319, R326, R329). -/
inductive Launcher where
  | none
  /-- a RUN of a control processor, by its place in that unit's issue order -/
  | run (n : Fin 4) (seq : Nat)
  /-- a PROG or CORES command, by queue and ring index -/
  | cmd (q : Nat) (idx : Nat)
  deriving DecidableEq, Repr

/-- One sequencer (R266 to R289). -/
structure Seq where
  run : RunState := .idle
  pc : Nat := 0
  /-- s1 to s31; s0 reads as 0 -/
  s : SMap Word := []
  a : SMap (BitVec 48) := []
  /-- p1 to p7; p0 reads as 1 -/
  p : SMap Bool := []
  d : SMap Desc := []
  h : SMap Handle := []
  /-- tensor instructions issued and not yet DONE, in issue order -/
  works : List Work := []
  /-- the instructions whose handles became DONE, the last for each handle: until the program has seen the handle they
  order nothing (R129) -/
  unseen : List Work := []
  /-- the bytes that the program has stored at peers, by global address (R282) -/
  sent : SMap (Option Byte) := []
  /-- a poisoned packet brings the answer of the next global load (R245) -/
  poisoned : Bool := false
  /-- the place of the next tensor instruction -/
  nseq : Nat := 0
  /-- the place of the last FNC (R308) -/
  fence : Nat := 0
  /-- the instruction store of a core (R268) -/
  istore : SMap Word := []
  /-- the step number of the command stream (R318, R329) -/
  step : Word := 0
  /-- whether the stream runs a step loop (R336, R341) -/
  inLoop : Bool := false
  /-- a LOOP.STEP of the stream has not branched back: its step loop is over (R54, R288, log entry 23) -/
  loopOver : Bool := false
  /-- the code of highest rank so far (R287) -/
  result : Code := .ok
  /-- a fault's completion code, while the program ends (R284) -/
  faulted : Option Code := none
  launcher : Launcher := .none
  counts : Counts := {}
  /-- the BAR.WAIT in progress: the counter's home address, or its job virtual address where a peer holds it, and the
  target (R257) -/
  barWait : Option (Nat × BitVec 32) := none
  deriving DecidableEq, Repr

/-- A program launch that waits for its core to run no program (R319). -/
structure Launch where
  core : Nat
  by_ : Launcher
  entry : Nat
  /-- word index of the image in the control-cluster SRAM, and its instructions -/
  image : Nat
  len : Nat
  regs : List Word
  step : Word
  deriving DecidableEq, Repr

/-! ### Siphons, ropes and barriers -/

/-- How a transfer moves data (R302). -/
inductive XMode where
  | prog | pack | unpack | rope
  deriving DecidableEq, Repr

/-- A transfer that a siphon has started and that has not completed (R218, R236). -/
structure Transfer where
  id : Nat
  /-- the issuing unit and the place of the XFR in its issue order -/
  unit : Nat
  work : Nat
  mode : XMode
  src : Desc
  dst : Desc
  list : Desc
  slot : Nat
  prog : List Word
  /-- whether the destination is driven -/
  drv : Bool
  /-- coordinates, loop counters, rotations, reversals and poisoned dimensions -/
  x : List Int
  c : List Nat
  rot : List Nat
  rev : List Nat
  bad : List Nat
  p : Nat
  pc : Nat
  operand : Nat
  /-- barrier addresses and running targets of B0 and B1 -/
  bar : List Nat
  t : List (BitVec 32)
  /-- it has advanced its target at a WAITB and waits -/
  waiting : Bool
  /-- the passive side's position in its walk -/
  pos : Nat
  /-- T2 row scales already given (R223) -/
  scaled : List Nat
  /-- tiles and bytes moved by PACK or UNPACK (R229) -/
  tiles : Nat
  bytes : Nat
  /-- local address of its parameter block -/
  result : Nat
  /-- its program has ended, or a fault stopped it -/
  ended : Bool
  code : Code
  /-- its program store slot was written while it ran: its addresses are undefined (R215) -/
  spoiled : Bool
  deriving DecidableEq, Repr

/-- One cached leaf translation (R233): page number and size of the virtual page, and the leaf entry. -/
structure TlbEntry where
  vpage : Nat
  shift : Nat
  leaf : Word
  deriving DecidableEq, Repr

/-- One siphon (R202 to R239). -/
structure Siphon where
  transfers : List Transfer := []
  /-- the most recently used entry first -/
  tlb : List TlbEntry := []
  nextId : Nat := 0
  deriving DecidableEq, Repr

/-- A packet in an output buffer of a mesh router (R242). -/
structure MeshPkt where
  /-- its destination router -/
  dst : Nat
  owner : PacketOwner
  /-- a flit of it met an uncorrectable error (R245) -/
  poisoned : Bool
  deriving DecidableEq, Repr

/-- A rope pass (R247 to R253): staged, and once launched on its way. -/
structure Pass where
  id : Nat
  /-- the issuing unit and the place of the ROP or XFR in its issue order -/
  unit : Nat
  work : Nat
  /-- an edge siphon's number, or none for a core's pass -/
  siphon : Option Nat
  col : Bool
  num : Nat
  /-- towards higher numbers -/
  up : Bool
  /-- the source's place on the rope, -1 or 20 for an edge siphon -/
  start : Int
  span : Nat
  take : Nat
  data : List Byte
  src : Nat
  len : Nat
  dest : Nat
  ctr : Option Nat
  /-- the fence of its instruction (R308) -/
  fence : Nat
  launched : Bool
  /-- the last span position whose core has taken, skipped or forwarded the tile -/
  pos : Nat
  skips : Nat
  code : Code
  deriving DecidableEq, Repr

/-- A wait at a counter's home (R259). -/
structure Watch where
  home : Nat
  target : BitVec 32
  who : Waiter
  /-- the table was full: the waiter reads the counter repeatedly -/
  poll : Bool
  /-- released: the notification is on its way -/
  fired : Bool
  deriving DecidableEq, Repr

/-! ### Commands and pools -/

/-- A command that was fetched and whose record is not written (R327). -/
structure Cmd where
  q : Nat
  idx : Nat
  entry : List Byte
  running : Bool
  /-- its operation was begun (its program started, its launches made, its epoch raised) -/
  begun : Bool
  /-- its work has ended: the record is held until the completion ring has room (R331) -/
  finished : Bool
  cancelled : Bool
  epoch : Nat
  code : Code
  counts : Counts
  info : Nat
  /-- the cores of a CORES command that still run -/
  left : List Nat
  deriving DecidableEq, Repr

/-- A pool (R337 to R340): its entries of 128 bytes, oldest first. -/
structure Pool where
  isOpen : Bool := false
  entries : List (List Byte) := []
  deriving DecidableEq, Repr

/-! ### Fuses -/

/-- The fuse map of one part (R103, R104, R421, R454, R469, R500): plain data, the same for the whole life of the part
but for the anti-rollback bits, which SEC.ROLLBACK_ADV blows (R476). -/
structure Fuses where
  /-- FW-800-H5 rather than FW-800-T1 (R2, R387) -/
  h5 : Bool := false
  /-- bypassed columns of the four sub-arrays of each core, 0 to 2 each (R103) -/
  bypass : SMap (List Nat) := []
  /-- logical cores that no working physical core backs (R498) -/
  offCores : List Nat := []
  /-- vendor ID (R454) -/
  vendor : Nat := 0
  /-- DEVID and MASTER_SEL where the straps are not fitted (R421, R501) -/
  devid : Nat := 0
  master : Bool := false
  /-- 3-bit codes of the ten configurable pins (R500) -/
  pins : Nat := 0x2DB6DB6D
  /-- security fuses (R469): digests of the four signing keys, revoked slots, anti-rollback count, identity seed,
  digest of the root key, digests of the two debug-token keys, life cycle -/
  keyHash : List (List Byte) := []
  keyRev : Nat := 0
  rollback : Nat := 0
  idSeed : List Byte := []
  rootHash : List Byte := []
  dbgHash : List (List Byte) := []
  lifecycle : Nat := 1
  /-- PWR.ENVELOPE in watts, 0 where unprogrammed (R504) -/
  envelope : Nat := 0
  /-- SMBus address, 0 where unprogrammed (R505); subsystem vendor and subsystem ID (R454) -/
  smbAddr : Nat := 0
  subVendor : Nat := 0
  subId : Nat := 0
  deriving DecidableEq, Repr

/-- The fuses of the part that the model starts from: the security values are free (R469, log entry 10). -/
def Fuses.part : Fuses :=
  let value (k n : Nat) : List Byte := (List.range n).map (Config.fuseByte k)
  { keyHash := [value 0 64, value 1 64, value 2 64, value 3 64], idSeed := value 4 32, rootHash := value 5 64,
    dbgHash := [value 6 64, value 7 64] }

/-! ### The dense engine -/

/-- A stationary tile in the cells (R84 to R87). -/
structure Tile where
  /-- loaded transposed -/
  trn : Bool
  fmt : Nat
  /-- a 2:4 tile (layout NM) -/
  nm : Bool
  kr : Nat
  /-- by output column: the reduction index and the code of each element held, in ascending index -/
  cols : List (List (Nat × Nat))
  /-- by output column, by block along the reduction: the scale bytes; empty without a block-scale array -/
  scales : List (List Nat)
  /-- by output column: the E4M3 row scales of a T2 tile -/
  rowScales : List Nat
  tscale : BitVec 32
  /-- the place of the instruction that loaded it -/
  src : Nat := 0
  /-- the byte runs of its descriptor, and the bytes that the load read (R93, R100) -/
  from_ : List (Nat × Nat) := []
  held : List Byte := []
  deriving DecidableEq, Repr

/-- A computed accumulator tile that waits for its conversion (R91, R97). -/
structure HeldTile where
  /-- its first accumulator row and the number of rows it holds -/
  lo : Nat
  rows : Nat
  /-- its last attempt overflowed through finite operands -/
  ovr_ : Bool
  /-- the operand bytes that its attempt read (R93) -/
  ins : List Byte
  deriving DecidableEq, Repr

/-- A started LDS, MMA, MMAT or WGR. -/
structure Dense where
  /-- the place of its instruction in the core's issue order -/
  work : Nat
  /-- waits for its stationary load -/
  load : Bool
  /-- the stationary tile it streams against (R85) -/
  stat : Option Tile
  /-- the accumulator tile that is converted next -/
  tile : Nat
  /-- accumulator tiles computed so far -/
  computed : Nat
  /-- those of them not yet converted, in order -/
  tiles : List HeldTile
  /-- retries and recomputes of the tile converted next (R66, R67) -/
  tries : Nat
  recs : Nat
  /-- a recompute of that tile is due -/
  redo : Bool
  /-- masked output columns (R117) -/
  masked : List Nat
  /-- the retry policy taken up at its start (R106) -/
  maxRetry : Nat
  recomp : Bool
  /-- codes of tiles converted for stream destinations, primary and secondary, and the retries and EXH by feed row -/
  held : List (List (List Nat × Nat))
  how : List (Nat × Nat × Bool)
  code : Code
  deriving DecidableEq, Repr

/-- The dense engine of a core (R75 to R106). -/
structure Core where
  /-- the ganging mode code (R76) -/
  mode : Nat := 0
  /-- loaded tiles by array: the sub-array in G11, 0 otherwise -/
  tiles : SMap (Option Tile) := []
  /-- the load whose tile the cells of each array hold: another than the loaded tile's after a recompute (R100) -/
  cells : SMap (Option Nat) := []
  /-- accumulator entries by linear index (R78) -/
  acc : SMap (BitVec 32) := []
  /-- 0: an unlisted entry reads +0 (R200); otherwise the generation of free contents it holds (log entry 44) -/
  accGen : Nat := 0
  /-- started dense instructions by array, oldest first (R85) -/
  runs : SMap (List Dense) := []
  /-- by array and accumulator row (1024 * array + row), the chain of FILE and KEEP that the row's entries belong to:
  the columns masked in some and in all of its instructions (R121) -/
  chains : SMap (Option (List Nat × List Nat)) := []
  /-- the epoch under which the last dense instruction started (R106) -/
  cfgEpoch : BitVec 32 := 0
  deriving DecidableEq, Repr

/-! ### Cascade links -/

/-- A packet (R412): the device it goes to, and the fields of its header. -/
structure Packet where
  dev : Nat
  addr : Nat
  kind : Nat
  vc : Nat
  hops : Nat
  src : Nat
  tag : Nat
  code : Nat
  body : List Byte
  deriving DecidableEq, Repr

/-- A data frame in the retry buffer, with its replays in a row (R413, R414). -/
structure Frame where
  seq : Nat
  body : List Byte
  replays : Nat
  /-- the packet whose last bytes it carries -/
  ends : Option Packet
  deriving DecidableEq, Repr

/-- Where the attestation of a link's peer stands (R418). -/
inductive Attested where
  | pending | verified | failed
  deriving DecidableEq, Repr

/-- One cascade link, beside its registers. -/
structure Link where
  /-- this side's session number (R417) -/
  session : BitVec 32 := 0
  /-- SEQ of the next data frame sent, and of the next one expected -/
  txSeq : Nat := 0
  rxSeq : Nat := 0
  /-- a NAK was sent for the expected frame -/
  naked : Bool := false
  retry : List Frame := []
  /-- packets that wait for a place in the retry buffer, for ACTIVE, or behind a drain -/
  waiting : List Packet := []
  /-- bytes accepted behind the last whole packet, and the packets for this device that no step has processed (R412,
  R413) -/
  rx : List Byte := []
  inbox : List Packet := []
  /-- the state in which a retrain found the link, 0 outside a retrain -/
  prior : Nat := 0
  /-- the retrain was asked for by a write of RETRAIN (R414) -/
  asked : Bool := false
  /-- the last hello received -/
  hello : Option Hello := none
  /-- the nonce of this side's attestation request -/
  nonce : List Word := []
  attest : Attested := .pending
  /-- the QREASON last reported to the master -/
  reported : Nat := 0
  deriving DecidableEq, Repr

/-! ### Messages that leave the block -/

/-- What the block has sent to the outside, in order. -/
inductive Sent where
  /-- an MSI-X message (R465): vector, address, data -/
  | msix (vector addr data : Nat)
  /-- a data frame on a cascade link: its body and its frame word (R412) -/
  | data (link : Nat) (body : List Byte) (word : BitVec 32)
  /-- a frame on a cascade link other than a data frame: control (1) or hello (3), with its body as numbers (R413, R417) -/
  | frame (link type : Nat) (body : List Nat)
  /-- a CXL configuration request (R406): port, CFG_ADDR and the data of a write -/
  | cxlCfg (port addr data : Nat)
  /-- a management notice to a device as it enters the management channel: its kind as the model names it, and its values;
  its packet goes by the route of the device (R412, R424) -/
  | notice (dev : Nat) (kind : String) (body : List Nat)
  /-- a management answer to the host or its controller: the protocol as the model names it, and its bytes -/
  | answer (kind : String) (body : List Byte)
  deriving DecidableEq, Repr

/-- What a remote request was made for. -/
inductive ReqFor where
  /-- a BAR.ARRIVE, by unit and place in its issue order -/
  | arrive (unit work : Nat)
  /-- a wait at a peer's counter -/
  | wait (who : Waiter)
  /-- a posted global store of a sequencer, by unit and address (R282) -/
  | store (unit va : Nat)
  /-- a write of a siphon's transfer: the siphon, the issuing unit, the place in its issue order, the address (R425) -/
  | xfer (n unit work va : Nat)
  deriving DecidableEq, Repr

/-- A request that a peer has not answered (R415, R425). -/
structure Req where
  id : Nat
  link : Nat
  dev : Nat
  purpose : ReqFor
  deriving DecidableEq, Repr

/-! ### Update engines -/

/-- One engine's part of an update invocation (R347, R353, R361). -/
structure Inv where
  /-- the issuing control processor and the place of its UPD -/
  unit : Nat
  work : Nat
  block : List Byte
  /-- the schedule row copied at the start -/
  row : List (BitVec 32)
  step : Word
  /-- the step number of its drip draws (R54) -/
  drip : Nat
  /-- MAXIT of R361 -/
  maxIt : Nat
  /-- phase 1 is not done -/
  phase1 : Bool
  /-- the engine has finished its elements -/
  done : Bool
  /-- preconditioned gradients by element -/
  gt : List (Nat × BitVec 32)
  /-- new values of E4M3 states: state 1 or 2, element, value -/
  news : List (Nat × Nat × BitVec 32)
  /-- rows updated -/
  rows : List Nat
  /-- the byte runs, by job virtual address, of the parameters and states that it updates (R23, R348) -/
  writes : List (Nat × Nat) := []
  /-- the byte runs that it only reads -/
  reads : List (Nat × Nat) := []
  /-- the byte runs that an access against R348 has met: what stands there is free -/
  race : List (Nat × Nat) := []
  code : Code
  deriving DecidableEq, Repr

/-- An update engine: the schedule row it has loaded, 32 values, and the step of that row (R352). -/
structure Upd where
  row : Option (List (BitVec 32)) := none
  rowStep : Word := 0
  inv : Option Inv := none
  deriving DecidableEq, Repr

/-! ### The exchange unit -/

/-- A block that the exchange unit has taken and that has not ended (R365, R427). -/
structure XBlock where
  /-- work ring 0 to 3, or 4 + the collective ring -/
  ring : Nat
  idx : Nat
  /-- its local address, where its results are written -/
  addr : Nat
  bytes : List Byte
  started : Bool
  /-- its batch's tag (DISPATCH, COMBINE_B) -/
  tag : Nat
  /-- a collective: 1 once its contributions are sent, 2 once its reduced shard is (ALL_REDUCE) -/
  sent : Nat
  /-- the code so far, and the contributions that entered the result -/
  code : Code
  live : Nat
  /-- local address of its layer slot, taken up at its start (R341, R367) -/
  slot : Nat := 0
  /-- the wait at a peer's START counter was sent, and has ended (R365, R425) -/
  asked : Bool := false
  reached : Bool := false
  deriving DecidableEq, Repr

/-- Where an assignment of a batch stands (R374, R382). -/
inductive AssignState where
  | pending | landed | lost
  deriving DecidableEq, Repr

/-- An admitted assignment of a batch: its place t * K + r, its destination. -/
structure Assign where
  slot : Nat
  dev : Nat
  st : AssignState
  deriving DecidableEq, Repr

/-- A batch at its source (R379 to R382). -/
structure Batch where
  tag : Nat
  ring : Nat
  /-- local address of the block that dispatched it, by which LINK names it -/
  addr : Nat
  bytes : List Byte
  layer : Nat
  /-- local address of its layer slot (R341, R367) -/
  place : Nat
  half : Nat
  h : Nat
  k : Nat
  tokens : Nat
  /-- bytes of an answer row -/
  rowLen : Nat
  sent : Bool
  assigns : List Assign
  /-- the destinations of its headers, and those that refused it -/
  dests : List Nat
  refused : List Nat
  /-- code of the writes of answers -/
  code : Code
  live : Bool
  /-- a cancellation retires it -/
  due : Bool
  /-- destinations whose acknowledgement of the retirement is awaited -/
  acks : List Nat
  deriving DecidableEq, Repr

/-- One source's header and rows at a destination. -/
structure InHead where
  src : Nat
  tag : Nat
  h : Nat
  rows : List XRow
  /-- no answer is sent: the tag was retired, or the source was dropped -/
  mute : Bool
  deriving DecidableEq, Repr

/-- A batch at this destination: the sources' headers in ascending order (R373). -/
structure Inbound where
  step : Nat
  layer : Nat
  /-- local address of its layer slot, as its first header found it (R341, R367) -/
  place : Nat
  half : Nat
  dir : Nat
  heads : List InHead
  /-- its rows are placed; `left` holds the pool entries not yet put -/
  placed : Bool
  left : List (List Byte)
  /-- the value that CTR reaches once every entry is computed -/
  target : BitVec 32
  deriving DecidableEq, Repr

/-- The exchange unit, beside its registers (R364 to R383, R427 to R432). -/
structure Xch where
  blocks : List XBlock := []
  /-- batches of this device that are live, or retired and kept until their tag is assigned again; newest first -/
  batches : List Batch := []
  inbound : List Inbound := []
  lastTag : Nat := 0
  /-- the step whose loads the layer table gathers (R377) -/
  step : Option Nat := none
  /-- contributions that arrived (R429) -/
  parts : List CollPart := []
  /-- collectives that another member cancelled or refused before their block here, with the code (R426, R432) -/
  doomed : List (Nat × Nat × Code) := []
  /-- collectives of the steps about GSTEP whose block here has ended: a notice that names one comes too late (R432) -/
  ended : List (Nat × Nat) := []
  deriving DecidableEq, Repr

/-! ### The resilience unit -/

/-- A restore in progress (R442, R443). -/
structure Restore where
  block : List Byte
  segs : List Byte
  /-- the segment and the offset of the next piece; the state records stand after the last segment -/
  seg : Nat
  off : Nat
  /-- a piece was refetched or left unverified -/
  noted : Bool
  deriving DecidableEq, Repr

/-- A drain of a snapshot region (R448). -/
structure Drain where
  id : Nat
  snap : Nat
  snapLen : Nat
  total : Nat
  dst : Nat
  done : Nat
  /-- what stood in the region when the drain began: a later write there leaves the drained bytes free -/
  held : List (Nat × Byte) := []
  deriving DecidableEq, Repr

/-- The resilience unit, beside its registers (R434 to R451). -/
structure Rsl where
  /-- the hold step that this member obeys -/
  hold : Option Nat := none
  /-- it has reported its wait -/
  told : Bool := false
  /-- it was cut off from the master: its LOOP.STEP waits until a restore begins (R440) -/
  cut : Bool := false
  /-- master: the members that have reported their wait -/
  reports : List Nat := []
  restore : Option Restore := none
  /-- the cairn that pauses the device, by unit and place in its issue order -/
  cairn : Option (Nat × Nat) := none
  drains : List Drain := []
  deriving DecidableEq, Repr

/-! ### Management, security, reset and power -/

/-- Where a management or attestation answer goes (R480, R505, R506). -/
inductive ReplyTo where
  | mailbox
  | mctp
  | doe
  | link (l : Nat)
  deriving DecidableEq, Repr

/-- A request of R512 that runs. -/
structure FuncRun where
  action : Nat
  kind : Nat
  index : Nat
  /-- the drain is over: a test, a release test or a retrain runs -/
  going : Bool
  /-- a FUNC message waits for the end -/
  reply : Option ReplyTo
  deriving DecidableEq, Repr

/-- The management processor, beside its registers (R505 to R517). -/
structure Mgt where
  /-- the BAR2 request and response buffers -/
  req : SMap Byte := []
  rsp : SMap Byte := []
  /-- a request was handed over with GO and is not DONE -/
  asked : Bool := false
  /-- a message whose response is awaited -/
  serving : Option ReplyTo := none
  /-- the MCTP endpoint ID -/
  eid : Nat := 0
  func : Option FuncRun := none
  deriving DecidableEq, Repr

/-- A request for an attestation report; the one at the front has its body, which is being signed (R479, R480). -/
structure Report where
  reply : ReplyTo
  nonce : List Byte
  body : Option (List Byte)
  deriving DecidableEq, Repr

/-- The security core, beside its registers (R469 to R483). -/
structure Sec where
  /-- the SPI flash, as far as FLASH_WRITE changed it: other bytes are those of `Config.flashByte` -/
  flash : SMap Byte := []
  /-- SVN of the running image -/
  svn : Nat := 0
  /-- the debug nonce is drawn and not consumed -/
  nonceLive : Bool := false
  reports : List Report := []
  deriving DecidableEq, Repr

/-- The reset controller and the trip latch, beside the registers (R490 to R497). -/
structure Rst where
  /-- the sources of the reset in its hold, as bits of R491; none outside a hold -/
  joined : List Nat := []
  /-- the domains that the reset in its hold clears -/
  holding : List Nat := []
  /-- sources that are active: the bit, and which input (1 for PERST_N, the number of a reference) -/
  active : List (Nat × Nat) := []
  /-- the last brown-out was an over-voltage cut-off -/
  ov : Bool := false
  /-- the latch of die 0; the next power-on reset follows a trip -/
  tripped : Bool := false
  tripNote : Bool := false
  powered : Bool := true
  deriving DecidableEq, Repr

/-- The governor's gate: tenths of the grottoes that are held, and the first one (R489). -/
structure Gate where
  share : Nat := 0
  first : Nat := 0
  deriving DecidableEq, Repr

/-! ### The state -/

/-- The state of the block. -/
structure State where
  /-- the commands that wait, first in, first out -/
  pending : List Instr
  /-- registers by offset; an unlisted register holds its reset value (R10 to R13, R456) -/
  regs : SMap Word
  /-- counters by offset (R14) -/
  cnt : SMap Nat
  /-- memory by local address (R458) -/
  mem : SMap Byte
  /-- uncorrectable units by their first address: chamber words, GDDR7 codewords, CXL lines (R198, R393, R408) -/
  poison : List Nat
  /-- uncorrectable chamber words that a bank's access has found and counted, and that the step whose access it was has not
  read yet: the MODEL's own field (log entry 116) -/
  fresh : List Nat
  /-- the sequencers, by unit number: core c at c, control processor n at 0x3FC + n (R288) -/
  seqs : SMap Seq
  launches : List Launch
  siphons : SMap Siphon
  passes : List Pass
  nextPass : Nat
  /-- output buffers of the mesh routers, oldest packet first: by 16 * router + 4 * direction + channel (R242) -/
  mesh : SMap (List MeshPkt)
  /-- the channel that each output link (4 * router + direction) served last (R242) -/
  meshTurn : SMap Nat
  watches : List Watch
  /-- fetched commands in fetch order; finished ones move to the end -/
  cmds : List Cmd
  /-- the ring each control processor served last (R325) -/
  turn : SMap Nat
  /-- records without NOIRQ written since the last message, by completion ring (R332) -/
  sinceMsg : SMap Nat
  pools : SMap Pool
  /-- CTL.EPOCH (R341) -/
  epoch : BitVec 32
  /-- the values of the EP registers that each epoch took up (R13, R316) -/
  snaps : SMap (SMap Word)
  /-- the epoch each unit of R341 runs under -/
  unitEpoch : SMap (BitVec 32)
  fuses : Fuses
  /-- reset domains held in reset: 0 AON, 1 MGT, 2 HIF, 3 MEM, 4 FAB, 5 + g grotto g (R495) -/
  held : List Nat
  /-- functions powered down, as 1024 * KIND + INDEX of R512 (R513, R516) -/
  offline : List Nat
  /-- functions that refuse new work while they drain or are tested (R513, R515) -/
  refusing : List Nat
  /-- cores and grottoes under self-test (R515) -/
  testing : List Nat
  cores : SMap Core
  /-- messages sent, in order -/
  out : List Sent
  /-- remote requests without their answer -/
  reqs : List Req
  nextReq : Nat
  /-- the MSI-X function mask (R465) -/
  fnMask : Bool
  /-- MSI-X vectors that wait for the host (R464) -/
  msixWait : List Nat
  /-- submitted commands that were cancelled before their fetch, as queue and index (R328) -/
  cancels : List (Nat × Nat)
  upds : SMap Upd
  links : SMap Link
  /-- the step of each drop that this device has applied (R436) -/
  dropStep : SMap Nat
  /-- chambers whose contents outside quad 0 are undefined (R361), with the generation of what unlisted addresses read as:
  the MODEL's own field (log entry 7) -/
  chGen : SMap Nat
  xch : Xch
  rsl : Rsl
  mgt : Mgt
  sec : Sec
  rst : Rst
  gate : Gate
  /-- log2 of the size of BAR4 (R455) -/
  bar4 : Nat
  /-- draws of free values so far: the MODEL's own field (log entry 13) -/
  freeCtr : Nat
  /-- by controller and channel pair (8 * m + k), which generation of undefined contents unlisted GDDR7 addresses read
  as, 0 where they read as 0: the MODEL's own field (log entry 7) -/
  memGen : SMap Nat
  /-- die corrections by stack and memory die, 16 * s + d (R392) -/
  dieCnt : SMap Nat
  /-- the codeword that a controller's scrub reads next (R397) -/
  scrubAt : SMap Nat
  /-- the pair whose retraining slice comes next (R396) -/
  sliceAt : SMap Nat
  deriving DecidableEq, Repr

/-- The block right after a power-on reset began: in its hold, every domain in reset (R491 to R496, log entry 5). -/
def State.reset : State where
  pending := []
  regs := []
  cnt := []
  mem := []
  poison := []
  fresh := []
  seqs := []
  launches := []
  siphons := []
  passes := []
  nextPass := 0
  mesh := []
  meshTurn := []
  watches := []
  cmds := []
  turn := []
  sinceMsg := []
  pools := []
  epoch := 0
  snaps := []
  unitEpoch := []
  fuses := .part
  held := List.range 105
  offline := []
  refusing := []
  testing := []
  cores := []
  out := []
  reqs := []
  nextReq := 0
  fnMask := false
  msixWait := []
  cancels := []
  upds := []
  links := []
  dropStep := []
  chGen := []
  xch := {}
  rsl := {}
  mgt := {}
  sec := {}
  rst := { joined := [0], holding := List.range 105 }
  gate := {}
  bar4 := 30
  freeCtr := 1
  memGen := (List.range 128).map fun i => (i, 1)
  dieCnt := []
  scrubAt := []
  sliceAt := []

end Sys2Proof.Machine
end

