-- ==== Sys2Proof/Machine/Ops.lean ====
section
/-! DEFINITION. The named operations every meaning is written over: registers and counters, memory with its
uncorrectable units, the address map, translation, epochs, and the life of a program on a sequencer (its issue, its
faults and its end). -/

namespace Sys2Proof.Machine
open Sys2Proof

/-- What a command answers. -/
abbrev Out := Host.Outcome State Fault Refusal

/-! ### Registers and counters -/

/-- The stored value of the register at an offset. -/
def State.reg (s : State) (off : Nat) : Word := SMap.get (regReset off) s.regs off

/-- Store a register. -/
def State.setReg (s : State) (off : Nat) (v : Word) : State :=
  { s with regs := SMap.put (regReset off) s.regs off v }

/-- Bits `hi` to `lo` of a register. -/
def State.fld (s : State) (off hi lo : Nat) : Nat := bits hi lo (s.reg off)

/-- Store bits `hi` to `lo` of a register. -/
def State.setFld (s : State) (off hi lo x : Nat) : State := s.setReg off (setBits hi lo (s.reg off) x)

/-- Whether bit `b` of a register is 1. -/
def State.bit (s : State) (off b : Nat) : Bool := s.fld off b b == 1

/-- The value of a counter (R14). -/
def State.count (s : State) (off : Nat) : Nat := SMap.get 0 s.cnt off

/-- Count `n` events; a counter saturates at 2^48 - 1 (R14). -/
def State.bump (s : State) (off n : Nat) : State :=
  { s with cnt := SMap.put 0 s.cnt off (min (s.count off + n) (2 ^ 48 - 1)) }

/-- A first-record register: with VALID (bit 63) clear it takes `v` with VALID set, otherwise MULTI (bit 62) is set. -/
def State.recordFirst (s : State) (off : Nat) (v : Word) : State :=
  if s.bit off 63 then s.setFld off 62 62 1 else s.setReg off (setBits 63 63 v 1)

/-! ### Free values -/

/-- A fresh free value (log entry 13). -/
def State.free (s : State) : Word := Config.freeWord s.freeCtr

/-- Advance to the next free value. -/
def State.drawn (s : State) : State := { s with freeCtr := s.freeCtr + 1 }

/-! ### Identity -/

/-- Width of sub-array `i` of a core: 64 columns less those bypassed (R103). -/
def State.saWidth (s : State) (c i : Nat) : Nat := 64 - min 2 ((SMap.get [] s.fuses.bypass c).getD i 0)

/-- COR.ARRAY_WIDTH (R104). -/
def State.arrayWidth (s : State) (c : Nat) : Word :=
  let w := s.saWidth c
  let g22 := min (w 0) (w 2) + min (w 1) (w 3)
  let g41 := min (min (w 0) (w 1)) (min (w 2) (w 3))
  let g14 := w 0 + w 1 + w 2 + w 3
  BitVec.ofNat 64 (g14 <<< 48 + g22 <<< 40 + g41 <<< 32 + w 3 <<< 24 + w 2 <<< 16 + w 1 <<< 8 + w 0)

/-- Whether the device is the master of its group (R421, R501). -/
def State.isMaster (s : State) : Bool := s.bit Reg.rstStrap 12

/-- The device id: 0 for the master, otherwise that of the straps (R421). -/
def State.devId (s : State) : Nat := if s.isMaster then 0 else s.fld Reg.rstStrap 11 0

/-! ### The address map (R458) -/

/-- What a local address names. -/
inductive Target where
  | gddr (m : Nat) (c : Nat)
  | cxl (p : Nat) (off : Nat)
  | chamber (c : Nat) (off : Nat)
  | sram (off : Nat)
  | regs (off : Nat)
  | host
  | unpopulated
  deriving DecidableEq, Repr

/-- The memory controller that serves a GDDR7 address: the exclusive or of its nibbles from bit 12 (R388). -/
def gddrCtl (a : Nat) : Nat :=
  let n (i : Nat) := a >>> i % 16
  Nat.xor (n 12) (Nat.xor (n 16) (Nat.xor (n 20) (Nat.xor (n 24) (Nat.xor (n 28) (Nat.xor (n 32) (n 36))))))

/-- The address within the controller (R388). -/
def gddrOff (a : Nat) : Nat := (a >>> 16) <<< 12 + a % 4096

/-- The channel pair of a GDDR7 address (R389). -/
def gddrPair (a : Nat) : Nat := gddrOff a >>> 7 % 8

/-- The first local address of a core's chamber (R184). -/
def chamberBase (c : Nat) : Nat := 0x2000_0000_0000 + 0x40_0000 * c

/-- The first local address of the control-cluster SRAM (R335). -/
def sramBase : Nat := 0x3000_0000_0000

/-- The address map. -/
def target (h5 : Bool) (a : Nat) : Target :=
  if a < 0x100_0000_0000 then
    if h5 && a >>> 39 % 2 == 1 then .unpopulated else .gddr (gddrCtl a) (gddrOff a)
  else if 0x1000_0000_0000 ≤ a && a < 0x2000_0000_0000 then
    .cxl ((a - 0x1000_0000_0000) / 0x400_0000_0000) ((a - 0x1000_0000_0000) % 0x400_0000_0000)
  else if 0x2000_0000_0000 ≤ a && a < 0x2000_C800_0000 then
    let o := a - 0x2000_0000_0000
    if o % 0x40_0000 < 0x20_0000 then .chamber (o / 0x40_0000) (o % 0x40_0000) else .unpopulated
  else if sramBase ≤ a && a < sramBase + 0x400_0000 then .sram (a - sramBase)
  else if 0x3F00_0000_0000 ≤ a && a < 0x3F00_1000_0000 then .regs (a - 0x3F00_0000_0000)
  else if 0x4000_0000_0000 ≤ a && a < 2 ^ 48 then .host
  else .unpopulated

/-- What a local address names in this part. -/
def State.target (s : State) (a : Nat) : Target := Machine.target s.fuses.h5 a

/-- The grotto of a logical core: four columns by two rows (R9). -/
def grottoOf (c : Nat) : Nat := 10 * (c / 40 / 2) + c % 40 / 4

/-- Whether a reset domain is out of reset (R495). -/
def State.domUp (s : State) (d : Nat) : Bool := !s.held.contains d

/-- Whether a function of R512 is powered down; a core also with its grotto, and where the fuses name it. -/
def State.isOff (s : State) (kind i : Nat) : Bool := s.offline.contains (1024 * kind + i)

/-- Whether a function refuses new work: powered down, or draining (R513). -/
def State.refuses (s : State) (kind i : Nat) : Bool := s.isOff kind i || s.refusing.contains (1024 * kind + i)

/-- Whether a core is disabled or in reset. -/
def State.coreOff (s : State) (c : Nat) : Bool :=
  s.isOff 0 c || s.isOff 1 (grottoOf c) || s.fuses.offCores.contains c || !s.domUp (5 + grottoOf c)

/-- Whether a siphon is powered down: its own disable, or its grotto's (R512). -/
def State.sipOff (s : State) (n : Nat) : Bool := if n < 200 then s.isOff 2 n || s.isOff 1 (n / 2) else s.isOff 3 (n - 200)

/-- Whether a siphon takes no new transfer (R513). -/
def State.sipRefuses (s : State) (n : Nat) : Bool :=
  if n < 200 then s.refuses 2 n || s.refuses 1 (n / 2) else s.refuses 3 (n - 200)

/-- The reset domain of a siphon (R495). -/
def sipDom (n : Nat) : Nat := if n < 200 then 5 + n / 2 else 4

/-- Whether a core's rope stages only forward: disabled, in reset or under self-test (R250, R263). -/
def State.fwdOnly (s : State) (c : Nat) : Bool :=
  s.coreOff c || s.testing.contains c || s.testing.contains (1024 + grottoOf c)

/-- Whether a core takes no new program (R513): disabled, in reset, draining or under test. -/
def State.coreRefuses (s : State) (c : Nat) : Bool :=
  s.coreOff c || s.refusing.contains c || s.refusing.contains (1024 + grottoOf c)

/-- Whether the governor holds a sequencer back from issuing tensor instructions (R489). -/
def State.gated (s : State) (u : SeqId) : Bool :=
  match u with
  | .core c => decide ((grottoOf c.val + 100 - s.gate.first) % 100 < 10 * s.gate.share)
  | .cp _ => false

/-- The committed decoder of a CXL port that covers a window offset (R405). -/
def State.hdmFind (s : State) (p off : Nat) : Option Nat :=
  (List.range 8).find? fun n =>
    s.bit (Reg.cxmHdmCtl p n) 63 &&
    (let b := s.fld (Reg.cxmHdmBase p n) 41 28; let z := s.fld (Reg.cxmHdmSize p n) 42 28
     decide (b ≤ off / 2 ^ 28) && decide (off / 2 ^ 28 < b + z))

/-- The link of a CXL port that an access at a window offset takes through decoder `n`: 0 a, 1 b (R405). -/
def State.hdmLink (s : State) (p n off : Nat) : Nat :=
  let ctl := Reg.cxmHdmCtl p n
  if s.fld ctl 5 4 == 1 && (off / (256 * 2 ^ s.fld ctl 3 1)) % 2 == 1 then s.fld ctl 7 7 else s.fld ctl 6 6

/-- Whether the host link is up with Bus Master Enable set (R464). -/
def State.hostUp (s : State) : Bool := s.bit Reg.hifLinkStat 0 && s.bit Reg.hifLinkStat 1

/-- The code with which a device access to a local address fails, if it does: an unpopulated target or a CXL address
without a decoder (R232, R404), the register space (R232), a disabled memory pair (R402), a CXL link that is down or a
port that refuses new accesses (R408, R513), host memory that is not reachable (R464). -/
def State.accessFail (s : State) (a : Nat) : Option Code :=
  match s.target a with
  | .unpopulated => some .trans
  | .regs _ => some .prot
  | .gddr m _ => if s.bit (Reg.memStat m) (40 + gddrPair a) then some .aborted else none
  | .cxl p off =>
    match s.hdmFind p off with
    | none => some .trans
    | some n =>
      if s.refuses 5 p then some .aborted
      else if s.bit (Reg.cxmPortStat p) (1 + s.hdmLink p n off) then none else some .link
  | .host => if s.hostUp then none else some .prot
  | .chamber .. => none
  | .sram _ => none

/-- Whether `n` bytes at a local address lie in a channel pair whose retraining slice runs: accesses to it wait (R396,
log entry 120). -/
def State.training (s : State) (a n : Nat) : Bool :=
  ((List.range 16).any fun m => s.fld (Reg.memStat m) 39 32 != 0) &&
  (List.range (n / 128 + 2)).any fun i =>
    let u := a / 128 * 128 + 128 * i
    decide (u < a + n) && (match s.target u with | .gddr m _ => s.bit (Reg.memStat m) (32 + gddrPair u) | _ => false)

/-- Entries of a ring from its LOG2N field: 4 to 16, other values acting as 16 (R344). -/
def ringSize (cfg : Word) : Nat := 2 ^ (if 4 ≤ bits 4 0 cfg ∧ bits 4 0 cfg ≤ 16 then bits 4 0 cfg else 16)

/-- The pools that hold entries and whose ring in GDDR7 an access meets (R337). -/
def State.poolHit (s : State) (a n : Nat) : List Nat :=
  (s.pools.filter fun e => !e.2.entries.isEmpty &&
    (let c := s.reg (Reg.ctlPoolCfg e.1)
     decide (a < bits 47 12 c * 4096 + 128 * ringSize c) && decide (bits 47 12 c * 4096 < a + n))).map (·.1)

/-- An access to a pool's ring by anything but the control cluster: the pool's contents are free (R337). -/
def State.poolTouch (s : State) (a n : Nat) : State :=
  match s.poolHit a n with
  | [] => s
  | l =>
    let free (p i : Nat) : List Byte := (List.range 128).map fun j => Config.undefByte s.freeCtr (2 ^ 52 + 2 ^ 24 * p + 128 * i + j)
    ({ s with pools := s.pools.map fun e =>
      if l.contains e.1 then (e.1, { e.2 with entries := (e.2.entries.zipIdx).map fun x => free e.1 x.2 }) else e } : State).drawn

/-- The counter that a failing device access raises (R404, R464). -/
def State.noteAccessFail (s : State) (a : Nat) : State :=
  match s.target a with
  | .cxl p off => if (s.hdmFind p off).isNone then s.bump (Reg.cxmNodecCnt p) 1 else s
  | .host => if s.hostUp then s else s.bump Reg.hifDmaErrCnt 1
  | _ => s

/-- Whether a cairn pauses the device (R446). -/
def State.paused (s : State) : Bool := s.fld Reg.rslCairnStat 63 62 == 1

/-! ### Messages and events -/

/-- The little-endian bytes of a number. -/
def natLE : Nat → Nat → List Byte
  | 0, _ => []
  | n + 1, v => BitVec.ofNat 8 v :: natLE n (v / 256)

/-- Send a message. -/
def State.send (s : State) (m : Sent) : State := { s with out := s.out ++ [m] }

/-- Send an MSI-X message: a masked vector sets its pending bit (R465), and a message for a host that cannot be reached
waits (R464). -/
def State.msix (s : State) (v : Nat) : State :=
  if s.fnMask || s.bit (Reg.hifMsixData v) 32 then s.setFld (Reg.hifPba (v / 64)) (v % 64) (v % 64) 1
  else if !s.hostUp then { s with msixWait := s.msixWait ++ [v] }
  else s.send (.msix v (s.reg (Reg.hifMsixAddr v)).toNat (s.fld (Reg.hifMsixData v) 31 0))

/-- An event of R510 occurs: its bit becomes 1, and where MSI_EN enables it the change sends the vector. -/
def State.event (s : State) (b : Nat) : State :=
  if !s.domUp 1 || s.bit Reg.mgtEvent b then s
  else
    let s := s.setFld Reg.mgtEvent b b 1
    if s.bit Reg.mgtEventCfg b then s.msix (s.fld Reg.mgtEventCfg 26 16) else s

/-- Change the management processor's state. -/
def State.onMgt (s : State) (f : Mgt → Mgt) : State := { s with mgt := f s.mgt }

/-- Write bytes into a buffer at rising offsets. -/
def putBuf (m : SMap Byte) (a : Nat) : List Byte → SMap Byte
  | [] => m
  | b :: bs => putBuf (SMap.put 0 m a b) (a + 1) bs

/-! ### Memory -/

/-- What an unlisted address reads as: a free byte of undefined GDDR7 contents after a reset that lost them (R399,
log entry 7), or of a chamber that a preconditioner used (R361), otherwise 0 (log entry 6). -/
def State.unlisted (s : State) (a : Nat) : Byte :=
  if a < 0x100_0000_0000 then
    let g := SMap.get 0 s.memGen (8 * gddrCtl a + gddrPair a)
    if g = 0 then 0 else Config.undefByte g a
  else if 0x2000_0000_0000 ≤ a ∧ a < 0x2000_C800_0000 ∧ 0x2_0000 ≤ (a - 0x2000_0000_0000) % 0x40_0000 ∧
      (a - 0x2000_0000_0000) % 0x40_0000 < 0x20_0000 then
    let g := SMap.get 0 s.chGen ((a - 0x2000_0000_0000) / 0x40_0000)
    if g = 0 then 0 else Config.undefByte g a
  else 0

/-- Where a local address is stored: host memory by its bus address (R463), above every local address. -/
def State.cell (s : State) (a : Nat) : Nat :=
  if a < 0x4000_0000_0000 then a
  else 2 ^ 64 + ((s.fld Reg.hifHostwinBase 63 12 * 4096 + (a - 0x4000_0000_0000)) % 2 ^ 64)

/-- The stored byte at a local address. -/
def State.byte (s : State) (a : Nat) : Byte := SMap.get (s.unlisted (s.cell a)) s.mem (s.cell a)

/-- Store one byte; the reserved window of the control-cluster SRAM discards writes and reads as 0 (R335). -/
def State.putByte (s : State) (a : Nat) (v : Byte) : State :=
  if sramBase + 0x03FD_0000 ≤ a ∧ a < sramBase + 0x03FE_0000 then s
  else { s with mem := SMap.put (s.unlisted (s.cell a)) s.mem (s.cell a) v }

/-- Store bytes at rising addresses. -/
def State.putBytes (s : State) (a : Nat) : List Byte → State
  | [] => s
  | b :: bs => (s.putByte a b).putBytes (a + 1) bs

/-- Size of the unit in which errors are found at an address: a chamber word (R198), a GDDR7 codeword (R393), a CXL
line (R408); nothing elsewhere. -/
def eccSize (h5 : Bool) (a : Nat) : Nat :=
  match target h5 a with
  | .chamber .. => 4
  | .gddr .. => 128
  | .cxl .. => 64
  | _ => 0

/-- The first address of the unit that holds an address. -/
def eccUnit (h5 : Bool) (a : Nat) : Nat :=
  let z := eccSize h5 a
  if z = 0 then a else a / z * z

/-- Whether an address lies in an uncorrectable unit. -/
def State.poisoned (s : State) (a : Nat) : Bool := s.poison.contains (eccUnit s.fuses.h5 a)

/-- The uncorrectable units that a range of `n` bytes touches. -/
def State.poisonIn (s : State) (a n : Nat) : List Nat :=
  s.poison.filter fun u => decide (u < a + n) && decide (a < u + eccSize s.fuses.h5 u)

/-- Whether a clear of the GDDR7 controller that serves an address is in progress (R401). -/
def State.clearing (s : State) (a : Nat) : Bool :=
  match s.target a with
  | .gddr m _ => s.bit (Reg.memStat m) 2
  | _ => false

/-- One byte as an access delivers it: undefined in an uncorrectable unit (R198, R393), or during a clear (R401). -/
def State.rd (s : State) (a : Nat) : Byte :=
  if s.poisoned a || s.clearing a then (Config.undefByte s.freeCtr (2 ^ 48 + a)) else s.byte a

/-- `n` bytes as an access delivers them. -/
def State.rdBytes (s : State) (a n : Nat) : List Byte := (List.range n).map fun i => s.rd (a + i)

/-- Little-endian value of bytes (R8). -/
def leNat : List Byte → Nat
  | [] => 0
  | b :: bs => b.toNat + 256 * leNat bs

/-- An `n`-byte little-endian number as an access delivers it. -/
def State.rdLE (s : State) (a n : Nat) : Nat := leNat (s.rdBytes a n)

/-- Count and record one uncorrectable unit found by a read or a partial write, but for one that its bank has counted for
this access (R198, R393, R408, R510). -/
def State.noteUncorr (s : State) (u : Nat) : State :=
  if s.fresh.contains u then { s with fresh := s.fresh.erase u } else
  match s.target u with
  | .chamber c off =>
    ((s.bump (Reg.spdEccUncorrCnt c) 1).recordFirst (Reg.spdEccAddr c) (BitVec.ofNat 64 (off / 4))).event 4
  | .gddr m _ =>
    ((s.bump (Reg.memEccUncorrCnt m) 1).recordFirst (Reg.memEccAddr m) (BitVec.ofNat 64 (u % 2 ^ 40))).event 4
  | .cxl p _ => (s.bump (Reg.cxmPoisonCnt p) 1).event 4
  | _ => s

/-- Count and record every uncorrectable unit of a range that is read. -/
def State.noteRead (s : State) (a n : Nat) : State :=
  match s.poisonIn a n with
  | [] => if s.clearing a || s.clearing (a + n - 1) then s.drawn else s
  | l => (l.foldl State.noteUncorr s).drawn

/-- Whether a read of a range completes with 0x50. -/
def State.rdBad (s : State) (a n : Nat) : Bool := !(s.poisonIn a n).isEmpty

/-- Write bytes and repair the units that they replace whole (R198, R394). -/
def State.wrQuiet (s : State) (a : Nat) (bs : List Byte) : State :=
  let keep (u : Nat) : Bool := !(decide (a ≤ u) && decide (u + eccSize s.fuses.h5 u ≤ a + bs.length))
  { s.putBytes a bs with poison := s.poison.filter keep, fresh := s.fresh.filter keep }

/-- Write bytes as an access does: a unit that is written whole is repaired, one written in part stays
uncorrectable, is counted, and gives the writer 0x50 (R198, R394). -/
def State.wr (s : State) (a : Nat) (bs : List Byte) : State :=
  let s' := s.putBytes a bs
  match s.poisonIn a bs.length with
  | [] => s'
  | l =>
    let whole (u : Nat) : Bool := decide (a ≤ u) && decide (u + eccSize s.fuses.h5 u ≤ a + bs.length)
    (l.filter fun u => !whole u).foldl State.noteUncorr
      { s' with
        poison := s.poison.filter fun u => !(l.contains u && whole u)
        fresh := s.fresh.filter fun u => !(l.contains u && whole u) }

/-- Whether a write of `n` bytes meets an uncorrectable unit in part. -/
def State.wrBad (s : State) (a n : Nat) : Bool :=
  (s.poisonIn a n).any fun u => !(decide (a ≤ u) && decide (u + eccSize s.fuses.h5 u ≤ a + n))

/-- Write an `n`-byte little-endian number. -/
def State.wrLE (s : State) (a n v : Nat) : State := s.wr a (natLE n v)

/-! ### Epochs (R341) -/

/-- The active value of an EP register in a unit: what the unit's epoch took up (R13). -/
def State.epReg (s : State) (u off : Nat) : Word :=
  SMap.get (regReset off) (SMap.get [] s.snaps (SMap.get 0 s.unitEpoch u).toNat) off

/-- A field of the active value of an EP register. -/
def State.epFld (s : State) (u off hi lo : Nat) : Nat := bits hi lo (s.epReg u off)

/-- The EP registers among the stored ones, with their shadow values. -/
def epShadows (regs : SMap Word) : SMap Word :=
  regs.filter fun kv => match findReg kv.1 with
    | some (r, _) => r.fields.any fun f => f.acc == .ep
    | none => false

/-- Raise the configuration epoch by 1 and take up every shadow value (R316). -/
def State.commit (s : State) : State :=
  let e := s.epoch + 1
  { s with epoch := e, snaps := SMap.put [] s.snaps e.toNat (epShadows s.regs) }

/-! ### Messages and routes -/

def State.link (s : State) (l : Nat) : Link := SMap.get {} s.links l

def State.onLink (s : State) (l : Nat) (f : Link → Link) : State :=
  { s with links := SMap.put {} s.links l (f (s.link l)) }

/-- STATE of a link (R416). -/
def State.linkState (s : State) (l : Nat) : Nat := s.fld (Reg.cslLinkStat l) 63 60

/-- The links that CSL.ROUTE[d] names. -/
def State.routeLinks (s : State) (d : Nat) : List Nat :=
  (List.range 12).filter fun i => (s.fld (Reg.cslRoute d) 11 0).testBit i

/-- The link at place `h mod n` among the `n` links of CSL.ROUTE[d] that are not draining, none where there is none
(R424, R513). -/
def State.routeBy (s : State) (d h : Nat) : Option Nat :=
  let l := (s.routeLinks d).filter fun i => !s.refusing.contains (4096 + i)
  l[h % l.length]?

/-- The key of a memory access to a device (R424). -/
def routeKey (d a : Nat) : Nat :=
  Nat.xor (a >>> 36 % 4096) (Nat.xor (a >>> 24 % 4096) (Nat.xor (a >>> 12 % 4096) d))

/-- The key of a packet: memory accesses by their address, exchange packets by their tag, management packets 0. -/
def Packet.key (p : Packet) : Nat :=
  if p.kind = 5 then Nat.xor p.tag p.dev else if p.kind = 6 then 0 else routeKey p.dev p.addr

/-- Whether a link may carry a packet of a virtual channel now (R416, R418). -/
def State.carries (s : State) (l vc : Nat) : Bool := s.linkState l == 3 || (s.linkState l == 2 && vc == 3)

/-- Whether a packet waits for another link to its device that drains and holds unacknowledged frames (R513). -/
def State.behindDrain (s : State) (l : Nat) (p : Packet) : Bool :=
  let r := s.routeLinks p.dev
  match r[p.key % r.length]? with
  | some k => k != l && s.refusing.contains (4096 + k) && !(s.link k).retry.isEmpty
  | none => false

/-- The header of a packet (R412). -/
def Packet.header (p : Packet) : List Byte :=
  natLE 8 p.addr ++ natLE 1 0 ++ natLE 1 p.code ++ natLE 2 p.tag ++
  natLE 4 ((p.body.length + 3) / 4 + (p.src % 2 ^ 12) <<< 12 + (p.hops % 4) <<< 24 + (p.vc % 4) <<< 26 +
    (p.kind % 16) <<< 28)

/-- Cut bytes into frame bodies of 256 bytes, the last one filled with zeros. -/
def frameBodies : Nat → List Byte → List (List Byte)
  | 0, _ => []
  | n + 1, bs => ((List.range 256).map fun i => bs.getD i 0) :: frameBodies n (bs.drop 256)

/-- The frame bodies of a packet: each packet begins a frame (log entry 51). -/
def Packet.bodies (p : Packet) : List (List Byte) :=
  let bs := p.header ++ p.body
  frameBodies ((bs.length + 255) / 256) bs

/-- One step of the CRC of R412, most significant bit first. -/
def crcStep (c : BitVec 16) (b : Bool) : BitVec 16 :=
  let x := c <<< 1
  if xor (c.getLsbD 15) b then x ^^^ 0x8BB7 else x

/-- The CRC over bytes: polynomial 0x8BB7, initial value 0xFFFF. -/
def crc16 (bs : List Byte) : BitVec 16 :=
  bs.foldl (fun c b => (List.range 8).foldl (fun c i => crcStep c (b.getLsbD (7 - i))) c) 0xFFFF

/-- The CRC of a frame: its body, then bits [23:16] and [31:24] of the frame word (R412). -/
def frameCrc (body : List Byte) (w : BitVec 32) : BitVec 16 :=
  crc16 (body ++ [(w >>> 16).setWidth 8, (w >>> 24).setWidth 8])

/-- The frame word of a frame (R412). -/
def frameWord (type seq : Nat) (body : List Byte) : BitVec 32 :=
  let w := BitVec.ofNat 32 ((type % 16) <<< 28 + (seq % 4096) <<< 16)
  w ||| (frameCrc body w).setWidth 32

/-- Send data frames, or send them again (R412, R413). -/
def State.sendFrames (s : State) (l : Nat) (fs : List Frame) : State :=
  { s with out := s.out ++ fs.map fun f => .data l f.body (frameWord 0 f.seq f.body) }

/-- The data frames of a packet from a sequence number on. -/
def Packet.frames (p : Packet) (seq : Nat) : List Frame :=
  let bs := p.bodies
  (bs.zipIdx).map fun (b, i) => ⟨(seq + i) % 4096, b, 0, if i + 1 = bs.length then some p else none⟩

/-- Put a packet into data frames in the retry buffer, and send them (R413). -/
def State.transmit (s : State) (l : Nat) (p : Packet) : State :=
  let fs := p.frames (s.link l).txSeq
  (s.onLink l fun k => { k with retry := k.retry ++ fs, txSeq := (k.txSeq + fs.length) % 4096 }).sendFrames l fs

/-- Send the waiting packets of a link that may go: each where the link carries its channel, no packet of that channel
waits before it, and the retry buffer of 512 frames has room (R413, R419, R513). -/
def State.pump (s : State) (l : Nat) : State :=
  let q := (s.link l).waiting
  q.foldl (fun s p =>
    let k := s.link l
    if s.carries l p.vc && !(k.waiting.any fun x => x.vc == p.vc) && !s.behindDrain l p &&
        decide (k.retry.length + p.bodies.length ≤ 512)
    then s.transmit l p else s.onLink l fun k => { k with waiting := k.waiting ++ [p] })
    (s.onLink l fun k => { k with waiting := [] })

/-- Send a packet on a link, or let it wait there. -/
def State.sendOn (s : State) (l : Nat) (p : Packet) : State :=
  (s.onLink l fun k => { k with waiting := k.waiting ++ [p] }).pump l

/-- Send a packet of this device. -/
def State.sendPkt (s : State) (l d kind vc tag addr : Nat) (body : List Byte) : State :=
  s.sendOn l ⟨d, addr, kind, vc, 0, s.devId, tag, 0, body⟩

/-- Payloads of up to 1,024 bytes (R412). -/
def payloads : Nat → List Byte → List (List Byte)
  | 0, _ => []
  | n + 1, bs => bs.take 1024 :: payloads n (bs.drop 1024)

/-- The payloads of a message. -/
def allPayloads (bs : List Byte) : List (List Byte) := payloads ((bs.length + 1023) / 1024) bs

/-- The bytes of a range that lie in one aligned KiB each, as offset and number: a packet carries one of them (R412). -/
def kibParts : Nat → Nat → Nat → Nat → List (Nat × Nat)
  | 0, _, _, _ => []
  | fuel + 1, a, o, n =>
    if n = 0 then [] else
    let k := min n (1024 - (a + o) % 1024)
    (o, k) :: kibParts fuel a (o + k) (n - k)

/-- Send management packets to a device over a link: KIND 6 on virtual channel 3 (R412, R416). -/
def State.sendManage (s : State) (l d : Nat) (body : List Byte) : State :=
  (allPayloads body).foldl (fun s p => s.sendPkt l d 6 3 0 (d <<< 48) p) s

/-- The notices by which devices manage a group; a notice begins with the place of its kind in this list (log entry 53). -/
def noteKinds : List String :=
  ["gstep", "lost", "drop", "hold", "release", "holdReport", "rejoin", "retire", "retired", "collCancel", "quarantine",
   "digest", "digestAsk", "loads", "refuse", "collRefuse", "attest", "report"]

/-- The bytes of a notice: its kind, then its values (log entry 53). -/
def noteBytes (kind : String) (body : List Nat) : List Byte := natLE 4 (noteKinds.idxOf kind) ++ body.flatMap (natLE 8)

/-! ### The roster (R434) -/

/-- The bit of a device in one half of the roster block; there is no roster where its address is outside the
control-cluster SRAM (log entry 52). -/
def State.rosterBit (s : State) (half d : Nat) : Bool :=
  let b := s.fld Reg.rslRoster 47 0
  decide (sramBase ≤ b) && decide (b + 1024 ≤ sramBase + 0x400_0000) && decide (d < 4096) &&
  (s.byte (b + 512 * half + d / 8)).toNat.testBit (d % 8)

/-- Whether a device was dropped. -/
def State.dropped (s : State) (d : Nat) : Bool := s.rosterBit 1 d

/-- Whether a device is a live member. -/
def State.isLive (s : State) (d : Nat) : Bool := s.rosterBit 0 d && !s.dropped d

/-- The live members. -/
def State.live (s : State) : List Nat := (List.range 4096).filter s.isLive

/-- Whether a link is lost, excluded or was never trained; a link in a retrain is not (R414, R415, R435). -/
def State.linkGone (s : State) (l : Nat) : Bool :=
  let st := s.linkState l
  st == 0 || st == 4 || (st == 1 && (s.link l).prior == 0)

/-- Mark the assignments to a lost device, and count them (R382); a retired batch awaits it no longer. -/
def State.loseTo (s : State) (f : Nat) : State :=
  let hit (a : Assign) : Bool := a.dev == f && a.st == .pending
  let n := ((s.xch.batches.filter (·.live)).map fun b => (b.assigns.filter hit).length).sum
  { s with xch := { s.xch with batches := s.xch.batches.map fun (b : Batch) =>
      { b with assigns := b.assigns.map fun a => if hit a then { a with st := .lost } else a,
               acks := b.acks.filter (· != f) } } }.bump Reg.xchLostAssignCnt n

/-- Change a batch. -/
def State.onBatch (s : State) (tag : Nat) (f : Batch → Batch) : State :=
  { s with xch := { s.xch with batches := s.xch.batches.map fun b => if b.tag = tag then f b else b } }

/-- Mark the assignments of a batch to one device as lost, and count them (R382). -/
def State.loseBatchTo (s : State) (tag d : Nat) : State :=
  let hit (a : Assign) : Bool := a.dev == d && a.st == .pending
  let n := ((s.xch.batches.filter fun b => b.tag == tag && b.live).map fun b => (b.assigns.filter hit).length).sum
  (s.onBatch tag fun b => { b with assigns := b.assigns.map fun a => if hit a then { a with st := .lost } else a }).bump
    Reg.xchLostAssignCnt n

/-- Give the answer to a management message or an attestation request: in the mailbox with DONE, SEQ, STATUS and the length,
and event MBOX; elsewhere as a message that leaves the block (R506, R507, R480). -/
def State.respond (s : State) (r : ReplyTo) (status : Nat) (body : List Byte) : State :=
  match r with
  | .mailbox =>
    let seq := s.fld Reg.mgtMboxReq 47 32
    let s := s.onMgt fun g => { g with rsp := putBuf g.rsp 0 body, asked := false, serving := none }
    (s.setReg Reg.mgtMboxRsp (BitVec.ofNat 64 (2 ^ 63 + status <<< 48 + seq <<< 32 + body.length % 2 ^ 20))).event 7
  | .mctp => (s.onMgt fun g => { g with serving := none }).send (.answer "mctp" (natLE 1 status ++ body))
  | .doe => s.send (.answer "doe" body)
  | .link l => s.sendManage l (s.fld (Reg.cslPeer l) 11 0) (natLE 4 (noteKinds.idxOf "report") ++ body)

/-- End the request of R512 that runs: its result in MGT.FUNC_STAT, event FUNC, and the answer to a FUNC message that waits
for it. -/
def State.endFunc (s : State) (result acount : Nat) : State :=
  match s.mgt.func with
  | none => s
  | some f =>
    let v := result <<< 48 + (acount % 2 ^ 16) <<< 32 + f.action <<< 28 + f.kind <<< 24 + f.index
    let s := ((s.onMgt fun g => { g with func := none }).setReg Reg.mgtFuncStat (BitVec.ofNat 64 v)).event 2
    match f.reply with
    | some r => s.respond r 0 (natLE 8 v)
    | none => s

/-- End a retrain that management has requested. -/
def State.retrainOver (s : State) (kind i result : Nat) : State :=
  match s.mgt.func with
  | some f => if f.action = 4 ∧ f.kind = kind ∧ f.index = i ∧ f.going then s.endFunc result 0 else s
  | none => s

/-- The link on which a memory access to a peer leaves (R424). Where there is none the packet is returned with 0x40 and
counted; a link that is lost or excluded, or a dropped peer, gives 0x40 (R415, R420, R437). -/
def State.linkTo (s : State) (d a : Nat) : State × Option Nat :=
  if s.dropped d then (s, none) else
  match s.routeBy d (routeKey d a) with
  | none => (s.bump Reg.cslRouteDropCnt 1, none)
  | some l => (s, if s.linkGone l then none else some l)

/-- A global address (R422). -/
def globalAddr (d a : Nat) : Nat := 8 <<< 60 + d <<< 48 + a

/-- What a peer answers to an access of this device is not of this device: its outcome is a free choice among success, a
lost link and the negative responses of R423 (log entry 9). -/
def State.peerCode (s : State) : Code :=
  match s.free.toNat % 4 with | 0 => .ok | 1 => .link | 2 => .prot | _ => .trans

/-- Read `n` bytes of a peer's memory: the request packets, the answer's code, and bytes that are free (log entry 9). A
read request's payload is the number of bytes asked for (log entry 51). -/
def State.peerRead (s : State) (d a n : Nat) : State × Code × List Byte :=
  let r := (kibParts (n / 1024 + 2) a 0 n).foldl (fun (r : State × Bool) (o, k) =>
    if !r.2 then r else
    match r.1.linkTo d (a + o) with
    | (s, none) => (s, false)
    | (s, some l) => (s.sendPkt l d 0 0 0 (globalAddr d (a + o)) (natLE 4 k), true)) (s, true)
  if r.2 then (r.1.drawn, r.1.peerCode, (List.range n).map fun i => Config.undefByte r.1.freeCtr (2 ^ 50 + i))
  else (r.1, .link, [])

/-- Note a request to a peer. -/
def State.request (s : State) (l d : Nat) (p : ReqFor) : State :=
  { s with reqs := s.reqs ++ [⟨s.nextReq, l, d, p⟩], nextReq := s.nextReq + 1 }

/-- Send the packets of a write to a peer, each noted where its ack is awaited (R425); false where it cannot leave. -/
def State.peerSend (s : State) (d a : Nat) (bs : List Byte) (p : Option ReqFor) : State × Bool :=
  (kibParts (bs.length / 1024 + 2) a 0 bs.length).foldl (fun (r : State × Bool) (o, k) =>
    if !r.2 then r else
    match r.1.linkTo d (a + o) with
    | (s, none) => (s, false)
    | (s, some l) =>
      let tag := if p.isSome then s.nextReq % 65536 else 0
      let s := s.sendPkt l d 2 0 tag (globalAddr d (a + o)) ((bs.drop o).take k)
      (match p with | some p => s.request l d p | none => s, true)) (s, true)

/-- Write bytes to a peer's memory, for a unit whose step holds the peer's answer too. -/
def State.peerWrite (s : State) (d a : Nat) (bs : List Byte) : State × Code :=
  match s.peerSend d a bs none with
  | (s, false) => (s, .link)
  | (s, true) => (s.drawn, s.peerCode)

/-! ### Translation (R230 to R232) -/

/-- What a job virtual address leads to. -/
inductive Xlat where
  | local_ (a : Nat)
  | remote (dev : Nat) (a : Nat)
  | fault (code : Code) (cause : Nat)
  deriving DecidableEq, Repr

/-- A leaf found by a walk, with its page size in bits, or the fault the walk meets. -/
inductive WalkRes where
  | leaf (e : Word) (shift : Nat)
  | fault (code : Code) (cause : Nat)
  deriving DecidableEq, Repr

/-- The levels of the page tables: the shift of their index field, and its width (R231). -/
def ptLevels : List (Nat × Nat) := [(39, 9), (30, 9), (21, 9), (16, 5)]

/-- Walk the page tables from level to level; within a level the causes are tested in the order of R232. The first
part of the answer is the addresses of the entries read. -/
def State.walkFrom (s : State) (va : Nat) : List (Nat × Nat) → Nat → List Nat → List Nat × WalkRes
  | [], _, n => (n, .fault .trans 0x02)
  | (sh, w) :: ls, tbl, n =>
    match s.target tbl with
    | .gddr _ _ =>
      let ea := tbl + 8 * (va >>> sh % 2 ^ w)
      match s.accessFail ea with
      | some c => (n, .fault c 0)
      | none =>
        let n := n ++ [ea]
        if s.poisoned ea then (n, .fault .ecc 0x06) else
        let e : Word := BitVec.ofNat 64 (s.rdLE ea 8)
        if bits 0 0 e = 0 then (n, .fault .trans 0x01)
        else if bits 1 1 e = 1 then (if sh = 39 then (n, .fault .trans 0x02) else (n, .leaf e sh))
        else if ls.isEmpty then (n, .fault .trans 0x02)
        else s.walkFrom va ls (bits 47 12 e <<< 12) n
    | _ => (n, .fault .trans 0x03)

/-- A whole walk under a PT_ROOT value; cause 0x05 with translation off (R231, R232). -/
def State.walk (s : State) (root : Word) (va : Nat) : List Nat × WalkRes :=
  if bits 0 0 root = 0 then ([], .fault .trans 0x05) else s.walkFrom va ptLevels (bits 47 12 root <<< 12) []

/-- Count and record the uncorrectable codeword that a walk meets (R232, R393). -/
def State.noteWalk (s : State) (root : Word) (va : Nat) : State :=
  match s.walk root va with
  | (l, .fault .ecc _) => (match l.getLast? with
    | some a => s.noteUncorr (eccUnit s.fuses.h5 a)
    | none => s)
  | _ => s

/-- The local address that a leaf gives a job virtual address. -/
def leafAddr (e : Word) (shift va : Nat) : Nat := ((bits 47 12 e <<< 12) >>> shift) <<< shift + va % 2 ^ shift

/-- The cause with which a leaf refuses a requester: its ENG bit, then R, then W (R232). -/
def leafDenied (e : Word) (eng : Nat) (rd wr : Bool) : Option Nat :=
  if bits (8 + eng) (8 + eng) e = 0 then some 0x12
  else if rd && bits 2 2 e == 0 then some 0x10
  else if wr && bits 3 3 e == 0 then some 0x11
  else none

/-- The checks after the leaf, in the order of R232: the requester's ENG bit, permission, register space,
unpopulated targets; a REMOTE leaf passes to the peer, whose own checks reach the requester as cause 0x88, and one that
names this device's own id is served locally (R422). -/
def State.leafCheck (s : State) (e : Word) (shift va eng : Nat) (rd wr : Bool) : Xlat :=
  let a := leafAddr e shift va
  match leafDenied e eng rd wr with
  | some k => .fault .prot k
  | none =>
  if bits 60 60 e = 1 ∧ bits 59 48 e ≠ s.devId then .remote (bits 59 48 e) a
  else match s.accessFail a with
    | some .prot => (match s.target a with
      | .regs _ => .fault .prot 0x13
      | _ => .fault .prot (if wr then 0x11 else 0x10))
    | some .trans => .fault .trans 0x04
    | some c => .fault c 0
    | none => .local_ a

/-- Whether an address lies in the chamber window (R230). -/
def inChamberWindow (va : Nat) : Bool := decide (0x2000_0000_0000 ≤ va) && decide (va < 0x2000_C800_0000)

/-- Translate a job virtual address for a requester with permission bit `eng` under a PT_ROOT value. -/
def State.translate (s : State) (root : Word) (va eng : Nat) (rd wr : Bool) : Xlat :=
  if inChamberWindow va then
    match s.target va with
    | .unpopulated => .fault .trans 0x04
    | _ => .local_ va
  else match (s.walk root va).2 with
    | .fault c k => .fault c k
    | .leaf e sh => s.leafCheck e sh va eng rd wr

/-- The counter of a failing access behind a leaf that grants it: none where the leaf refuses the requester or names a
peer (R404). -/
def State.noteLeaf (s : State) (e : Word) (shift va eng : Nat) (rd wr : Bool) : State :=
  if (leafDenied e eng rd wr).isSome || bits 60 60 e = 1 then s else s.noteAccessFail (leafAddr e shift va)

/-- What a translation that faults leaves: the counters of the walk's uncorrectable codeword and of the access that
failed. -/
def State.noteXlat (s : State) (root : Word) (va eng : Nat) (rd wr : Bool) : State :=
  if inChamberWindow va then s
  else match s.walk root va with
    | (_, .leaf e sh) => s.noteLeaf e sh va eng rd wr
    | _ => s.noteWalk root va

/-! ### Sequencer state -/

end Sys2Proof.Machine

namespace Sys2Proof

/-- The unit number of a sequencer: core c is c, control processor n is 0x3FC + n (R288). -/
def SeqId.num : SeqId → Nat
  | .core c => c.val
  | .cp n => 0x3FC + n.val

/-- Whether the unit is a control processor. -/
def SeqId.isCp : SeqId → Bool
  | .core _ => false
  | .cp _ => true

/-- The unit of R341 under whose epoch the sequencer works: a core its own, a control processor the control cluster. -/
def SeqId.epochUnit : SeqId → Nat
  | .core c => c.val
  | .cp _ => 1067

/-- The sequencer of a unit number. -/
def SeqId.ofNum (n : Nat) : SeqId :=
  if h : n < 800 then .core ⟨n, h⟩ else .cp ⟨(n - 0x3FC) % 4, Nat.mod_lt _ (by decide)⟩

/-- Offsets of the sequencer registers of a unit (R289). -/
def SeqId.regBase : SeqId → Nat
  | .core c => Reg.corSeqStat c.val
  | .cp n => Reg.ctlSeqStat n.val

end Sys2Proof

namespace Sys2Proof.Machine
open Sys2Proof

/-- The first local address of a sequencer's scalar store: its chamber, or the control-cluster SRAM (R280). -/
def storeBase : SeqId → Nat
  | .core c => chamberBase c.val
  | .cp _ => sramBase

/-- Words in that store (R280). -/
def storeWords : SeqId → Nat
  | .core _ => 524288
  | .cp _ => 16777216

/-- Instructions in the instruction store (R266). -/
def pcLimit : SeqId → Nat
  | .core _ => 8192
  | .cp _ => 2097152

namespace Seq

/-- s-registers; s0 reads as 0 (R266). -/
def getS (q : Seq) (r : SReg) : Word := if r = 0 then 0 else SMap.get 0 q.s r.toNat
/-- Writes to s0 are discarded (R266). -/
def setS (q : Seq) (r : SReg) (v : Word) : Seq := if r = 0 then q else { q with s := SMap.put 0 q.s r.toNat v }
def getA (q : Seq) (r : AReg) : BitVec 48 := SMap.get 0 q.a r.toNat
def setA (q : Seq) (r : AReg) (v : BitVec 48) : Seq := { q with a := SMap.put 0 q.a r.toNat v }
/-- p-registers; p0 reads as 1 (R266). -/
def getP (q : Seq) (r : PReg) : Bool := if r = 0 then true else SMap.get false q.p r.toNat
/-- Writes to p0 are discarded (R266). -/
def setP (q : Seq) (r : PReg) (v : Bool) : Seq :=
  if r = 0 then q else { q with p := SMap.put false q.p r.toNat v }
def getD (q : Seq) (r : Slot) : Desc := SMap.get 0 q.d r.toNat
def setD (q : Seq) (r : Slot) (v : Desc) : Seq := { q with d := SMap.put 0 q.d r.toNat v }
def getH (q : Seq) (h : Nat) : Handle := SMap.get .free q.h h
def setH (q : Seq) (h : Nat) (v : Handle) : Seq := { q with h := SMap.put .free q.h h v }

/-- A register of any class, as a 64-bit value (R266). -/
def getX (q : Seq) : XReg → Word
  | .s r => q.getS r
  | .a r => (q.getA r).zeroExtend 64
  | .p r => if q.getP r then 1 else 0
/-- Write a register of any class: an a-register keeps bits [47:0], a p-register stores whether the value is not 0. -/
def setX (q : Seq) (r : XReg) (v : Word) : Seq :=
  match r with
  | .s r => q.setS r v
  | .a r => q.setA r (v.setWidth 48)
  | .p r => q.setP r (decide (v ≠ 0))

/-- The handles that satisfy a test, as a mask. -/
def mask (q : Seq) (f : Handle → Bool) : Nat :=
  (List.range 32).foldl (fun m i => if f (q.getH i) then m + 2 ^ i else m) 0

def isBusy : Handle → Bool
  | .busy => true
  | _ => false
def isDone : Handle → Bool
  | .done _ => true
  | _ => false

/-- The step number that drip draws, PRN and SYSR STEP take: that of the running command stream, 0 outside a step loop
(R54, R173, R288; log entry 23). -/
def stepNow (q : Seq) : Word := if q.loopOver then 0 else q.step

/-- Whether any handle is BUSY. -/
def anyBusy (q : Seq) : Bool := (List.range 32).any fun i => isBusy (q.getH i)

/-- The lowest-numbered FREE handle (R276). -/
def freeHandle (q : Seq) : Option Nat := (List.range 32).find? fun i => decide (q.getH i = .free)

/-- An idle sequencer as a program start leaves it (R267), but for its instruction store. -/
def started (q : Seq) (entry : Nat) (regs : List Word) (l : Launcher) (step : Word) : Seq :=
  { run := .running, pc := entry, istore := q.istore, launcher := l, step := step,
    s := (List.range 15).foldl (fun m i => SMap.put 0 m (i + 1) (regs.getD i 0)) [] }

end Seq

/-- The sequencer of a unit. -/
def State.seq (s : State) (u : SeqId) : Seq := SMap.get {} s.seqs u.num

/-- Store a sequencer. -/
def State.setSeq (s : State) (u : SeqId) (q : Seq) : State := { s with seqs := SMap.put {} s.seqs u.num q }

/-- Apply a function to one sequencer. -/
def State.onSeq (s : State) (u : SeqId) (f : Seq → Seq) : State := s.setSeq u (f (s.seq u))

/-- One siphon. -/
def State.siph (s : State) (n : Nat) : Siphon := SMap.get {} s.siphons n

/-- Apply a function to one siphon. -/
def State.onSiph (s : State) (n : Nat) (f : Siphon → Siphon) : State :=
  { s with siphons := SMap.put {} s.siphons n (f (s.siph n)) }

/-- Add events to the counts of a unit's program (R530). -/
def State.addCounts (s : State) (u : Nat) (f : Counts → Counts) : State :=
  s.onSeq (SeqId.ofNum u) fun q => { q with counts := f q.counts }

/-- Sum of two count records. -/
def Counts.add (x y : Counts) : Counts :=
  ⟨x.drops + y.drops, x.clips + y.clips, x.escapes + y.escapes, x.retries + y.retries⟩

/-! ### The end of a program -/

/-- Mark a unit's work as ended with a code, where it has not ended already. -/
def State.endWork (s : State) (u : SeqId) (seq : Nat) (c : Code) : State :=
  s.onSeq u fun q => { q with works := q.works.map fun w =>
    if w.seq = seq then (match w.status with | .ended _ => w | _ => { w with status := .ended c }) else w }

/-- A command's work has ended: its record waits behind those that ended before it (R331). -/
def State.finishCmd (s : State) (q idx : Nat) (f : Cmd → Cmd) : State :=
  let mine (c : Cmd) : Bool := c.q == q && c.idx == idx && !c.finished
  { s with cmds := s.cmds.filter (fun c => !mine c) ++
      (s.cmds.filter mine).map fun c =>
        let c := { f c with finished := true }
        if c.cancelled then { c with code := .cancelled } else c }

/-- Report the end of one unit's program to whatever launched it: a RUN or CORES combines the code (R319), a PROG
completes with it (R329). -/
def State.reportEnd (s : State) (u : SeqId) (code : Code) : State :=
  let q := s.seq u
  match q.launcher with
  | .none => s
  | .run n seq =>
    let s := s.addCounts (SeqId.cp n).num (·.add q.counts)
    s.onSeq (.cp n) fun r => { r with works := r.works.map fun w =>
      if w.seq = seq then
        let w := { w with left := w.left.erase u.num, acc := w.acc.max code }
        if w.left.isEmpty then { w with status := .ended w.acc } else w
      else w }
  | .cmd cq idx =>
    if u.isCp then
      s.finishCmd cq idx fun c =>
        { c with code := c.code.max code, counts := c.counts.add q.counts, info := (q.step.toNat) % 2 ^ 32 }
    else
      let s := { s with cmds := s.cmds.map fun (c : Cmd) =>
        if c.q = cq ∧ c.idx = idx ∧ !c.finished then
          { c with left := c.left.erase u.num, code := c.code.max code, counts := c.counts.add q.counts }
        else c }
      if s.cmds.any (fun (c : Cmd) => c.q == cq && c.idx == idx && !c.finished && c.left.isEmpty)
      then s.finishCmd cq idx id else s

/-- Load a core's instruction store and start its program (R267, R319). -/
def State.startCore (s : State) (l : Launch) : State :=
  s.onSeq (SeqId.ofNum l.core) fun q =>
    Seq.started { q with istore := forUpto l.len (fun i m =>
        SMap.put 0 m i (BitVec.ofNat 64 (s.rdLE (sramBase + 4 * l.image + 8 * i) 8))) q.istore }
      l.entry l.regs l.by_ l.step

/-- Start one launch that waits for a core, if any; which of several is undefined (R319), so a free value picks. -/
def State.startNext (s : State) (c : Nat) : State :=
  let l := s.launches.filter fun x => x.core == c
  match l with
  | [] => s
  | x :: xs =>
    let i := s.free.toNat % (xs.length + 1)
    let y := l.getD i x
    ({ s.drawn with launches := s.launches.erase y }).startCore y

/-- End a program with its result: every handle is freed and nothing of it survives (R267, R284, R287). -/
def State.endProgram (s : State) (u : SeqId) (code : Code) : State :=
  let s := s.reportEnd u code
  let s := s.onSeq u fun q => { pc := q.pc, istore := q.istore, step := q.step, loopOver := q.loopOver }
  match u with
  | .core c => s.startNext c.val
  | .cp _ => s

/-- End the program if it is ending and nothing of it is BUSY. -/
def State.checkEnd (s : State) (u : SeqId) : State :=
  let q := s.seq u
  if q.run = .ending ∧ q.anyBusy = false then s.endProgram u (q.faulted.getD q.result) else s

/-- Drop the waits of a sequencer at counters. -/
def State.dropWaits (s : State) (u : SeqId) : State :=
  { s with watches := s.watches.filter fun w => w.who != .seq u,
           reqs := s.reqs.filter fun r => r.purpose != .wait (.seq u) }

/-- Begin the end of a program, by END or by a fault; a wait of its LOOP.STEP ends with it (R284, R287, R452). -/
def State.beginEnd (s : State) (u : SeqId) (f : Option Code) : State :=
  let s := if u.isCp then s.setFld Reg.rslStat 1 1 0 else s
  ((s.dropWaits u).onSeq u fun q => { q with run := .ending, faulted := f, barWait := none }).checkEnd u

/-- A sequencer fault (R284): the first one is recorded with its code, cause and index, the address of a faulting
global access beside it; the sequencer stops issuing and ends its program once its BUSY work has run out. -/
def State.seqFault (s : State) (u : SeqId) (code : Code) (cause va : Nat) : State :=
  let pc := (s.seq u).pc
  let b := u.regBase
  let s' := s.recordFirst (b + 8) (BitVec.ofNat 64 (code.toNat <<< 48 + cause <<< 40 + pc % 2 ^ 21))
  let s' := if s.bit (b + 8) 63 then s' else s'.setReg (b + 0x10) (BitVec.ofNat 64 va)
  s'.beginEnd u (some code)

/-! ### Issue (R274, R275) -/

/-- The count of a corrected fetch (R269). -/
def noteFetch (w : Issue) (s : State) : State :=
  match w.fetch, w.u with
  | .corrected, .core c => s.bump (Reg.corIstoreCorrCnt c.val) 1
  | _, _ => s

/-- What an issue leaves to the instruction: the sequencer running, its fetch counted (R274). -/
def issued (w : Issue) (s : State) : State :=
  ((noteFetch w s).onSeq w.u fun q => { q with run := .running }).bump (w.u.regBase + 0x40) 1

/-- A unit's next instruction: it issues where the unit runs a program. An uncorrectable fetch faults with cause 0x86
and a PC outside the store with 0x82; an instruction whose predicate is 0 only passes; one that is not `ready` waits
with `stall` and is presented again (log entry 2); any other is counted and runs `body`. -/
def issueWhen (w : Issue) (ready : State → Bool) (stall : State → State) (s : State) (body : State → State) : Out :=
  let q := s.seq w.u
  let running : Bool := match q.run with | .running => true | .waiting => q.barWait.isNone | _ => false
  if !running then .next s
  else if w.fetch = .uncorrectable then .next (s.seqFault w.u .ecc 0x86 0)
  else if pcLimit w.u ≤ q.pc then .next (s.seqFault w.u .desc 0x82 0)
  else if xor (q.getP w.ps) w.neg = false then .next ((issued w s).onSeq w.u fun q => { q with pc := q.pc + 1 })
  else if !ready s then .next (stall s)
  else .next (body (issued w s))

/-- An instruction that never waits. -/
def issue (w : Issue) (s : State) (body : State → State) : Out := issueWhen w (fun _ => true) id s body

/-- Advance to the next instruction. -/
def State.adv (s : State) (u : SeqId) : State := s.onSeq u fun q => { q with pc := q.pc + 1 }

/-- Go to an instruction index; a target outside the store faults with cause 0x82, and the branch has no effect. -/
def State.jump (s : State) (u : SeqId) (t : Int) (f : Seq → Seq) : State :=
  if 0 ≤ t ∧ t < pcLimit u then s.onSeq u fun q => { f q with pc := t.toNat } else s.seqFault u .desc 0x82 0

/-- The sequencer waits in WAIT, WAITM or BAR.WAIT (R289). -/
def State.park (s : State) (u : SeqId) : State := s.onSeq u fun q => { q with run := .waiting }

/-- IMM as it enters arithmetic: sign-extended (R272). -/
def sx (imm : Imm) : Word := imm.signExtend 64

/-- An unsigned use of IMM: zero-extended (R272). -/
def zx (imm : Imm) : Word := imm.zeroExtend 64

end Sys2Proof.Machine
end

