-- ==== Sys2Proof/Machine/Operands.lean ====
section
/-! DEFINITION. Tensor operands: the fields of a descriptor (R204 to R209), where each element, block scale, escape
word and tile slot of it lies (R210 to R212, R160), the checks every use of a descriptor repeats (R213, R214), and
the reading and writing of elements. -/

namespace Sys2Proof.Machine
open Sys2Proof

/-! ### Descriptor fields -/

/-- Layout codes (R210). -/
inductive Layout where
  | rm | cm | si | fi | bt | nm | cl
  deriving DecidableEq, Repr

def Layout.ofCode : Nat → Option Layout
  | 0 => some .rm | 1 => some .cm | 2 => some .si | 3 => some .fi | 4 => some .bt | 5 => some .nm | 6 => some .cl
  | _ => none

/-- BT, NM and CL are tile streams (R212). -/
def Layout.isStream : Layout → Bool
  | .bt | .nm | .cl => true
  | _ => false

/-- A decoded tensor descriptor (R204). `fmt` and `layout` are none where their code names nothing. -/
structure TD where
  fill : Nat
  base : Nat
  tsc : Bool
  layout : Option Layout
  fmt : Option Fmt
  amax : Nat
  /-- byte address of the tensor-scale word -/
  sptr : Nat
  cols : Bool
  padw : Bool
  neg : Bool
  bdim : Nat
  drip : Nat
  /-- byte address of the auxiliary array -/
  aptr : Nat
  tcols : Nat
  trows : Nat
  sizes : List Nat
  strides : List Int
  deriving DecidableEq, Repr

/-- Bits `hi` to `lo` of a descriptor as one number. -/
def dbits (d : Desc) (hi lo : Nat) : Nat := (d.toNat >>> lo) % 2 ^ (hi + 1 - lo)

/-- Decode a descriptor (R204). -/
def td (d : Desc) : TD where
  fill := dbits d 63 48
  base := dbits d 47 0
  tsc := dbits d 127 127 == 1
  layout := Layout.ofCode (dbits d 126 124)
  fmt := Fmt.ofCode (dbits d 123 118)
  amax := dbits d 117 108
  sptr := 16 * dbits d 107 64
  cols := dbits d 189 189 == 1
  padw := dbits d 188 188 == 1
  neg := dbits d 187 187 == 1
  bdim := dbits d 186 184
  drip := dbits d 183 172
  aptr := 16 * dbits d 171 128
  tcols := dbits d 223 216 + 1
  trows := dbits d 215 208 + 1
  sizes := (List.range 6).map fun i => dbits d (224 + 48 * i + 23) (224 + 48 * i)
  strides := (List.range 6).map fun i =>
    sext 20 (dbits d (224 + 48 * i + 43) (224 + 48 * i + 24)) * 2 ^ dbits d (224 + 48 * i + 47) (224 + 48 * i + 44)

namespace TD

def size (t : TD) (i : Nat) : Nat := t.sizes.getD i 0
def stride (t : TD) (i : Nat) : Int := t.strides.getD i 0
/-- Bits per element; 8 where the format code names nothing (such a descriptor is refused). -/
def bits (t : TD) : Nat := (t.fmt.map Fmt.bits).getD 8
/-- The format, F4 where the code names nothing (such a descriptor is refused). -/
def fm (t : TD) : Fmt := t.fmt.getD .f4
def lay (t : TD) : Layout := t.layout.getD .rm
def isStream (t : TD) : Bool := t.lay.isStream
/-- A dimension is present when its size is not 0 (R206). -/
def has (t : TD) (i : Nat) : Bool := t.size i != 0
/-- The number of present dimensions. -/
def ndims (t : TD) : Nat := (t.sizes.takeWhile (· != 0)).length
def shape (t : TD) : List Nat := t.sizes.take t.ndims
/-- The number of elements. -/
def count (t : TD) : Nat := t.shape.foldl (· * ·) 1

/-- The linear index e of R54: dimension 0 fastest. -/
def linear (t : TD) (m : List Nat) : Nat :=
  ((List.range t.ndims).reverse).foldl (fun e i => e * t.size i + m.getD i 0) 0

/-- The coordinates of a linear index. -/
def coordsOf : List Nat → Nat → List Nat
  | [], _ => []
  | z :: zs, e => (e % z) :: coordsOf zs (e / z)

def coords (t : TD) (e : Nat) : List Nat := coordsOf t.shape e

/-- Whether the tensor has a block-scale array (R208). -/
def hasBlocks (t : TD) : Bool := t.bdim < 6 && t.fm != .t2

/-- The size of dimension `i` of the grid of blocks (R39). -/
def gridSize (t : TD) (i : Nat) : Nat := if i = t.bdim then (t.size i + 31) / 32 else t.size i

/-- The block of an element, numbered in the order of the blocks' first elements (R41). -/
def block (t : TD) (m : List Nat) : Nat :=
  ((List.range t.ndims).reverse).foldl
    (fun e i => e * t.gridSize i + (if i = t.bdim then m.getD i 0 / 32 else m.getD i 0)) 0

/-- The number of scale bytes after the tensor-scale word: one per block, or one row scale per index (R208). -/
def scaleCount (t : TD) : Nat :=
  if t.fm = .t2 then t.size t.bdim
  else if t.bdim < 6 then (List.range t.ndims).foldl (fun n i => n * t.gridSize i) 1 else 0

/-- Address of the scale byte of a block, or of a T2 row scale (R205, R208). -/
def scaleAddr (t : TD) (n : Nat) : Nat := t.sptr + 8 + n

/-- Address of the escape word of a block (R46). -/
def escAddr (t : TD) (n : Nat) : Nat := t.aptr + 4 * n

/-- KG of an SI tensor, in bits (R211). -/
def kg (t : TD) : Nat := 1024 * ((16 * ((t.size 1 + 1) / 2) * t.bits + 1023) / 1024)

/-- RS of an FI tensor, in bits (R211). -/
def rs (t : TD) : Nat := 1024 * ((t.size 1 * t.bits + 1023) / 1024)

/-- The element offset that dimensions 2 to 5 add (R210). -/
def outerOff (t : TD) (m : List Nat) : Int :=
  (List.range 4).foldl (fun z i => z + (m.getD (i + 2) 0 : Int) * t.stride (i + 2)) 0

/-- The bit address of the element at mapped coordinates `m` (R210). -/
def elemBit (t : TD) (m : List Nat) : Int :=
  let m0 := m.getD 0 0
  let m1 := m.getD 1 0
  let b := t.bits
  let off : Int := match t.lay with
    | .rm => (m0 : Int) * t.stride 0 + m1
    | .cm => (m0 : Int) + (m1 : Int) * t.stride 1
    | .si => ((m0 / 8 * (t.kg / b) + m1 / 2 * 16 + m1 % 2 * 8 + m0 % 8 : Nat) : Int)
    | .fi => ((m0 * (t.rs / b) + m1 : Nat) : Int)
    | _ => 0
  8 * (t.base : Int) + (b : Int) * (off + t.outerOff m)

/-! ### Tile streams (R160) -/

def gridCols (t : TD) : Nat := (t.size 1 + t.tcols - 1) / t.tcols
def gridRows (t : TD) : Nat := (t.size 0 + t.trows - 1) / t.trows
def tiles (t : TD) : Nat := t.gridRows * t.gridCols
/-- Rows and columns of tile `n` that lie inside the tensor. -/
def tileRows (t : TD) (n : Nat) : Nat := min t.trows (t.size 0 - n / t.gridCols * t.trows)
def tileCols (t : TD) (n : Nat) : Nat := min t.tcols (t.size 1 - n % t.gridCols * t.tcols)
/-- Bytes of the dense payload of a full tile, padded to 8 (R157). -/
def densePay (t : TD) : Nat := (t.trows * t.tcols * t.bits + 63) / 64 * 8
/-- Bytes of a slot. -/
def slot (t : TD) : Nat := (8 + t.densePay + 127) / 128 * 128
def tileAddr (t : TD) (n : Nat) : Nat := t.base + n * t.slot

/-! ### Regions -/

/-- Lowest and highest bit address (exclusive) of the elements, whole KG, RS and slot spans included. -/
def span (t : TD) : Int × Int :=
  let b : Int := t.bits
  let ext (i : Nat) : Int := ((t.size i : Int) - 1) * t.stride i
  let out := (List.range 4).filterMap fun i => if t.has (i + 2) then some (ext (i + 2)) else none
  let lo0 : Int := out.foldl (fun z x => z + min x 0) 0
  let hi0 : Int := out.foldl (fun z x => z + max x 0) 0
  let (lo, hi) : Int × Int := match t.lay with
    | .rm => (b * (lo0 + min (ext 0) 0), b * (hi0 + max (ext 0) 0 + (max (t.size 1) 1 : Nat)))
    | .cm => (b * (lo0 + min (ext 1) 0), b * (hi0 + max (ext 1) 0 + (t.size 0 : Nat)))
    | .si => (b * lo0, b * hi0 + ((t.size 0 + 7) / 8 * t.kg : Nat))
    | .fi => (b * lo0, b * hi0 + (t.size 0 * t.rs : Nat))
    | _ => (b * lo0, b * hi0 + (8 * t.tiles * t.slot : Nat))
  (8 * (t.base : Int) + lo, 8 * (t.base : Int) + hi)

/-- The byte ranges of the tensor: its elements, its tensor scale and block scales, its escape words. -/
def ranges (t : TD) : List (Int × Int) :=
  let (lo, hi) := t.span
  [(lo / 8, (hi + 7) / 8)] ++
  (if t.tsc || t.bdim != 7 then [((t.sptr : Int), ((t.sptr + 8 + t.scaleCount : Nat) : Int))] else []) ++
  (if t.fm = .f4x then [((t.aptr : Int), ((t.aptr + 4 * t.scaleCount : Nat) : Int))] else [])

/-- Whether the whole tensor lies in the chamber of core `c` (R80). -/
def inChamber (t : TD) (c : Nat) : Bool :=
  t.ranges.all fun (lo, hi) => decide ((chamberBase c : Int) ≤ lo) && decide (hi ≤ (chamberBase c + 0x20_0000 : Nat))

/-- The core whose chamber holds the base of the tensor. -/
def homeCore (t : TD) : Nat := (t.base - 0x2000_0000_0000) / 0x40_0000

/-- Whether the whole tensor lies in the chamber of some core. -/
def inSomeChamber (t : TD) : Bool :=
  inChamberWindow t.base && decide (t.homeCore < 800) && t.inChamber t.homeCore

/-! ### Checks -/

/-- The field checks of R213 that every use repeats (R214), the region check left out. -/
def ok (t : TD) : Bool :=
  match t.fmt, t.layout with
  | some f, some l =>
    let nd := t.ndims
    let unit : Int := max 1 (8 / f.bits)
    let row : Int := 1024 / f.bits
    t.bdim != 6 && nd != 0 && (t.sizes.drop nd).all (· == 0) &&
    (match l with | .rm | .cm => decide (2 ≤ nd) | _ => true) &&
    (if f.is4 || f == .t2 then decide (t.bdim < nd)
     else if f.is8f then t.bdim == 7 || decide (t.bdim < nd) else t.bdim == 7) &&
    (!(t.tsc || t.bdim != 7) || t.sptr != 0) && (f != .f4x || t.aptr != 0) &&
    (match l with
     | .rm => t.stride 1 == 1 && (List.range nd).all fun i => i == 1 || t.stride i % unit == 0
     | .cm => t.stride 0 == 1 && (List.range nd).all fun i => i == 0 || t.stride i % unit == 0
     | _ => t.stride 0 == 0 && t.stride 1 == 0 && (List.range nd).all fun i => i < 2 || t.stride i % row == 0) &&
    (match l with
     | .bt | .cl => f != .t2
     | .nm => (f == .f4 || f.is8f || f.is16f) && t.trows % (if t.bdim != 7 then 32 else 4) == 0
     | _ => true)
  | _, _ => false

/-- The port alignment of R192: base and every stride that is not contiguous are multiples of the width in bits. -/
def aligned (t : TD) (width : Nat) : Bool :=
  (8 * t.base) % width == 0 &&
  (List.range t.ndims).all fun i =>
    let z := t.stride i
    z == 0 || z == 1 || (z * (t.bits : Int)) % (width : Int) == 0

/-- The list form of R130 and R297: dimension 1 absent or of size 1, and nothing above it (log entry 25). -/
def isList (t : TD) : Bool := t.has 0 && (t.size 1 ≤ 1) && !t.has 2

/-- The checks of a list operand: those of `ok`, except that a list of RM may leave dimension 1 absent; its stride is
then not looked at (log entry 25). -/
def okList (t : TD) : Bool :=
  t.isList && (if t.has 1 then t.ok
    else ({ t with sizes := t.sizes.set 1 1, strides := t.strides.set 1 (if t.lay = .rm then 1 else 0) } : TD).ok)

/-- A list read as a tensor with dimension 1 of size 1. -/
def asList (t : TD) : TD := { t with sizes := t.sizes.set 1 1 }

/-- Dimensions 2 to 5 absent (R529). -/
def flat (t : TD) : Bool := !t.has 2

/-! ### The bytes of a tensor -/

/-- The outer coordinates (dimensions 2 to 5) of a tensor, dimension 2 fastest. -/
def outers (t : TD) : List (List Nat) :=
  let sh := t.shape.drop 2
  (List.range (sh.foldl (· * ·) 1)).map (coordsOf sh)

/-- The stream at one outer coordinate: its tiles lie at the offset that dimensions 2 to 5 add (R210). -/
def at_ (t : TD) (o : List Nat) : TD :=
  { t with base := (t.base : Int) + t.outerOff (0 :: 0 :: o) * t.bits / 8 |>.toNat }

/-- The bytes of the elements as runs (address, length): a run per row of RM and FI, per column of CM, per group of
eight rows of SI with its padding, per plane of a stream (R210 to R212); `keep` picks the rows of RM, FI and SI. -/
def runs (t : TD) (keep : Nat → Bool) : List (Nat × Nat) :=
  t.outers.flatMap fun o =>
    let run (m0 m1 n : Nat) : Nat × Nat :=
      let a := (t.elemBit (m0 :: m1 :: o)).toNat
      (a / 8, (a % 8 + n + 7) / 8)
    match t.lay with
    | .rm => ((List.range (t.size 0)).filter keep).map fun r => run r 0 (max 1 (t.size 1) * t.bits)
    | .cm => (List.range (max 1 (t.size 1))).map fun c => run 0 c (t.size 0 * t.bits)
    | .si => ((List.range ((t.size 0 + 7) / 8)).filter fun g => (List.range 8).any fun i => keep (8 * g + i)).map
        fun g => run (8 * g) 0 t.kg
    | .fi => ((List.range (t.size 0)).filter keep).map fun r => run r 0 t.rs
    | _ => [((t.at_ o).base, t.tiles * t.slot)]

/-- The bytes of the tensor scale, the block scales and the escape words. -/
def sideRuns (t : TD) : List (Nat × Nat) :=
  (if t.tsc || t.bdim != 7 then [(t.sptr, 8 + t.scaleCount)] else []) ++
  (if t.fm = .f4x then [(t.aptr, 4 * t.scaleCount)] else [])

/-- Every byte of the tensor. -/
def bytes (t : TD) : List (Nat × Nat) := (if t.isList then t.asList else t).runs (fun _ => true) ++ t.sideRuns

end TD

/-- The bytes that two lists of runs share. -/
def meet (xs ys : List (Nat × Nat)) : List (Nat × Nat) :=
  xs.flatMap fun x => ys.filterMap fun y =>
    let lo := max x.1 y.1
    let hi := min (x.1 + x.2) (y.1 + y.2)
    if lo < hi then some (lo, hi - lo) else none

/-! ### Reading elements -/

/-- `n` bits at a bit address of memory, as an access delivers them. -/
def State.rdBits (s : State) (a : Int) (n : Nat) : Nat :=
  let a := a.toNat
  (s.rdLE (a / 8) ((a % 8 + n + 7) / 8) >>> (a % 8)) % 2 ^ n

/-- The code of an element. -/
def State.code (s : State) (t : TD) (m : List Nat) : Nat := s.rdBits (t.elemBit m) t.bits

/-- The scale byte that governs an element, 0x7F without a block-scale array (R41). -/
def State.scaleByte (s : State) (t : TD) (m : List Nat) : Nat :=
  if t.hasBlocks then (s.rd (t.scaleAddr (t.block m))).toNat else 0x7F

/-- The row scale of a T2 element (R44). -/
def State.rowScale (s : State) (t : TD) (m : List Nat) : FVal :=
  Fmt.e4m3.decode (s.rd (t.scaleAddr (m.getD t.bdim 0))).toNat

/-- The escape word of the block of an element, 0 outside F4X. -/
def State.escWord (s : State) (t : TD) (m : List Nat) : Nat :=
  if t.fm = .f4x then s.rdLE (t.escAddr (t.block m)) 4 else 0

/-- What an escape word adds to the element at position `pos` of its block; CNT 3 reads as 2 (R46, R47). -/
def escAdd (w pos : Nat) : List FVal :=
  let cnt := min 2 (w >>> 30)
  (List.range cnt).filterMap fun k =>
    if w >>> (18 + 5 * k) % 32 = pos then some (Fmt.e4m3.decode (w >>> (8 * k) % 256)) else none

/-- An element value without scales, escapes added (R42 to R48, R47). -/
def elemVal (f : Fmt) (code w pos : Nat) : FVal := (escAdd w pos).foldl FVal.add (f.decode code)

/-- The position of an element in its block. -/
def TD.blockPos (t : TD) (m : List Nat) : Nat := m.getD t.bdim 0 % 32

/-- The element value without scales. -/
def State.elem (s : State) (t : TD) (m : List Nat) : FVal :=
  elemVal t.fm (s.code t m) (s.escWord t m) (t.blockPos m)

/-- A value under an E8M0 scale byte (R38, R40). -/
def underScale (b : Nat) (v : FVal) : FVal := if b = 0xFF then .nan else v.scale ((b : Int) - 127)

/-- An element with its block scale, or with its T2 row scale, but without the tensor scale. -/
def State.blockVal (s : State) (t : TD) (m : List Nat) : FVal :=
  if t.fm = .t2 then (s.elem t m).mul (s.rowScale t m) else underScale (s.scaleByte t m) (s.elem t m)

/-- The per-tensor scale (R209). -/
def State.tscale (s : State) (t : TD) : F32 := if t.tsc then BitVec.ofNat 32 (s.rdLE t.sptr 4) else F32.one

/-- The value of an element with every scale applied (R40, R44). -/
def State.value (s : State) (t : TD) (m : List Nat) : FVal := (s.blockVal t m).mul (F32.val (s.tscale t))

/-- The fill value's code in the tensor's format (R207). -/
def TD.fillCode (t : TD) (fill : Nat) : Nat :=
  match t.fm with
  | .fp32 => fill * 2 ^ 16
  | .i32 | .s32 => (sext 16 fill % (2 ^ 32 : Nat)).toNat
  | f => fill % 2 ^ f.bits

/-- A signed list entry (S32), of a list operand. -/
def State.entry (s : State) (t : TD) (p : Nat) : Int := sext 32 (s.code t.asList [p, 0])

/-! ### Writing elements -/

/-- One element write: bit address, width, code. -/
abbrev ElemWrite := Nat × Nat × Nat

/-- Store `n` bits at a bit address: whole bytes, or part of one byte as a read-modify-write (R224). -/
def State.putBits (s : State) (a n v : Nat) : State :=
  if 8 ≤ n then s.putBytes (a / 8) (natLE (n / 8) v)
  else
    let old := (s.byte (a / 8)).toNat
    let sh := a % 8
    let keep := old - ((old >>> sh) % 2 ^ n) <<< sh
    s.putByte (a / 8) (BitVec.ofNat 8 (keep + (v % 2 ^ n) <<< sh))

/-- The writes that reach the unit at `u`. -/
def unitWrites (h5 : Bool) (u : Nat) (ws : List ElemWrite) : List ElemWrite :=
  ws.filter fun w => decide (w.1 < 8 * (u + eccSize h5 u)) && decide (8 * u < w.1 + w.2.1)

/-- The distinct bits of the unit at `u` that a set of writes covers. -/
def coveredBits (h5 : Bool) (u : Nat) (ws : List ElemWrite) : Nat :=
  let l := unitWrites h5 u ws
  ((List.range (8 * eccSize h5 u)).filter fun i =>
    l.any fun w => decide (w.1 ≤ 8 * u + i) && decide (8 * u + i < w.1 + w.2.1)).length

/-- The uncorrectable units that a set of writes touches, with whether it replaces all of them. -/
def State.touched (s : State) (ws : List ElemWrite) : List (Nat × Bool) :=
  s.poison.filterMap fun u =>
    if (unitWrites s.fuses.h5 u ws).isEmpty then none
    else some (u, decide (8 * eccSize s.fuses.h5 u ≤ coveredBits s.fuses.h5 u ws))

/-- Write elements; an uncorrectable unit written whole is repaired, one written in part is counted (R198, R394). -/
def State.wrElems (s : State) (ws : List ElemWrite) : State :=
  let s' := ws.foldl (fun s (a, n, v) => s.putBits a n v) s
  match s.touched ws with
  | [] => s'
  | l => (l.filter fun x => !x.2).foldl (fun s x => s.noteUncorr x.1)
      { s' with
        poison := s.poison.filter fun u => !(l.any fun x => x.1 == u && x.2)
        fresh := s.fresh.filter fun u => !(l.any fun x => x.1 == u && x.2) }

/-- Whether such a write gives 0x50. -/
def State.wrElemsBad (s : State) (ws : List ElemWrite) : Bool := (s.touched ws).any fun x => !x.2

/-- The write of one element. -/
def TD.put (t : TD) (m : List Nat) (c : Nat) : ElemWrite := ((t.elemBit m).toNat, t.bits, c)

/-- The positions of the KG or RS spans that elements at these coordinates lie in, and that no element uses: written
as zero in the same access (R211). -/
def TD.zeroPad (t : TD) (ms : List (List Nat)) : List ElemWrite :=
  let rep (g : List Nat → Nat) : List (List Nat) :=
    (ms.foldl (fun (seen : List (List Nat)) m =>
      let k := g m :: m.drop 2
      if seen.contains k then seen else k :: seen) [])
  match t.lay with
  | .fi => (rep fun m => m.getD 0 0).flatMap fun k =>
      (List.range (t.rs / t.bits - t.size 1)).map fun i => t.put ([k.headD 0, t.size 1 + i] ++ k.drop 1) 0
  | .si => (rep fun m => m.getD 0 0 / 8).flatMap fun k =>
      (List.range (t.kg / t.bits)).filterMap fun i =>
        let m0 := 8 * k.headD 0 + i % 8
        let m1 := i / 16 * 2 + i / 8 % 2
        if m0 < t.size 0 ∧ m1 < t.size 1 then none else some (t.put ([m0, m1] ++ k.drop 1) 0)
  | _ => []

/-- Every element write of a tensor that is not a stream, its padding included. -/
def TD.writes (t : TD) (els : List (List Nat × Nat)) : List ElemWrite :=
  els.map (fun (m, c) => t.put m c) ++ t.zeroPad (els.map (·.1))

/-! ### Uncorrectable reads of an operand -/

/-- The uncorrectable units that elements, scales or escape words of a tensor lie in. -/
def State.poisonOf (s : State) (t : TD) : List Nat :=
  match s.poison with
  | [] => []
  | ps => ps.filter fun u =>
      let lo : Int := u
      let hi : Int := (u + eccSize s.fuses.h5 u : Nat)
      (t.ranges.drop 1).any (fun (a, b) => decide (a < hi) && decide (lo < b)) ||
      (match t.ranges with
       | [] => false
       | (a, b) :: _ => decide (a < hi) && decide (lo < b) &&
          (t.isStream || (List.range t.count).any fun e =>
            let x := t.elemBit (t.coords e)
            decide (x < 8 * hi) && decide (8 * lo < x + t.bits)))

/-- Count and record the uncorrectable units of an operand that is read. -/
def State.noteOperand (s : State) (t : TD) : State :=
  match s.poisonOf t with
  | [] => s
  | l => (l.foldl State.noteUncorr s).drawn

/-- Whether reading an operand gives 0x50. -/
def State.badOperand (s : State) (t : TD) : Bool := !(s.poisonOf t).isEmpty

/-! ### Sparse tiles (R156 to R170) -/

/-- A tile read from a stream: its codes row-major, whether its header failed the check (R169), and the positions
dropped (R170). -/
structure TileRead where
  codes : List Nat
  bad : Bool
  drops : Nat
  deriving DecidableEq, Repr

/-- A little-endian bit string of bytes, read as zero past its end. -/
def bitsAt (bs : List Byte) (a n : Nat) : Nat :=
  (leNat ((List.range ((a % 8 + n + 7) / 8)).map fun i => bs.getD (a / 8 + i) 0) >>> (a % 8)) % 2 ^ n

/-- LEN of a tile header, in 8-byte units (R159). -/
def hdrLen (h : Word) : Nat := bits 63 49 h + 2 ^ 15 * bits 15 15 h

/-- The header check of the expander (R169), for a tile of the given shape. -/
def hdrOk (t : TD) (rows cols : Nat) (h : Word) : Bool :=
  Fmt.ofCode (bits 13 8 h) == t.fmt &&
  (if t.lay = .nm then bits 1 0 h == 3 else bits 1 0 h != 3) &&
  bits 23 16 h + 1 == rows && bits 31 24 h + 1 == cols &&
  decide (bits 48 32 h ≤ rows * cols) && decide (8 * hdrLen h + 8 ≤ t.slot)

/-- The codes of a tile of kinds 0 to 2 from its payload (R156, R157, R170). -/
def expandTile (b n kind nnz : Nat) (pay : List Byte) : List Nat × Nat :=
  match kind with
  | 0 => ((List.range n).map fun p => bitsAt pay (p * b) b, 0)
  | 1 =>
    let v0 := (n + 63) / 64 * 64
    (((List.range n).foldl (fun (l, i) p =>
        if bitsAt pay p 1 = 1 then ((if i < nnz then bitsAt pay (v0 + i * b) b else 0) :: l, i + 1)
        else (0 :: l, i)) ([], 0)).1.reverse, 0)
  | _ =>
    let v0 := (nnz * 16 + 63) / 64 * 64
    (List.range nnz).foldl (fun (l, d) i =>
      let p := bitsAt pay (16 * i) 16
      if p < n then (listSet l p (bitsAt pay (v0 + i * b) b), d) else (l, d + 1)) (List.replicate n 0, 0)

/-- The payload bytes that a reader sees: the first LEN * 8 (R170). -/
def State.payload (s : State) (a : Nat) (h : Word) : List Byte := s.rdBytes (a + 8) (8 * hdrLen h)

/-- Read and expand tile `n` of a BT or CL stream. -/
def State.readTile (s : State) (t : TD) (n : Nat) : TileRead :=
  let a := t.tileAddr n
  let h : Word := BitVec.ofNat 64 (s.rdLE a 8)
  let rows := t.tileRows n
  let cols := t.tileCols n
  if hdrOk t rows cols h then
    let (l, d) := expandTile t.bits (rows * cols) (bits 1 0 h) (bits 48 32 h) (s.payload a h)
    ⟨l, false, d⟩
  else ⟨List.replicate (rows * cols) 0, true, 0⟩

/-- One group of a kind 3 tile: its values and positions (R158). -/
structure NmGroup where
  w0 : Nat
  w1 : Nat
  p0 : Nat
  p1 : Nat
  deriving DecidableEq, Repr

/-- The groups of tile `n` of an NM stream, for each group row the columns in order, whether the header failed, and
whether the tile is a 1:4 tile. -/
def State.readNm (s : State) (t : TD) (n : Nat) : List NmGroup × Bool × Bool :=
  let a := t.tileAddr n
  let h : Word := BitVec.ofNat 64 (s.rdLE a 8)
  let rows := t.tileRows n
  let cols := t.tileCols n
  let g := (rows + 3) / 4 * cols
  if hdrOk t rows cols h then
    let pay := s.payload a h
    let b := t.bits
    ((List.range g).map fun i =>
      let md := bitsAt pay (2 * g * b + 4 * i) 4
      ⟨bitsAt pay (2 * i * b) b, bitsAt pay ((2 * i + 1) * b) b, md % 4, md / 4⟩, false, bits 7 7 h == 1)
  else (List.replicate g ⟨0, 0, 0, 1⟩, true, false)

/-- Whether a code counts as zero (R162). -/
def isZeroCode (f : Fmt) (c : Nat) : Bool := (f.decode c).isZero

/-- Bits packed into bytes, little-endian, padded with zeros to a multiple of `8 * unit` bits. -/
def packBits (b : Nat) (codes : List Nat) (unit : Nat) : List Byte :=
  let v := codes.foldr (fun c v => c % 2 ^ b + v * 2 ^ b) 0
  natLE ((codes.length * b + 8 * unit - 1) / (8 * unit) * unit) v

/-- What the compressor writes for one tile, and how it counts (R163, R183). -/
structure TileWrite where
  bytes : List Byte
  kind : Nat
  raw : Bool
  saved : Nat
  deriving DecidableEq, Repr

/-- A tile header (R159). -/
def tileHdr (len nnz cols rows : Nat) (f : Fmt) (n1 exh : Bool) (retries : Nat) (esc raw : Bool) (kind : Nat) : Nat :=
  let b (x : Bool) := if x then 1 else 0
  (len % 2 ^ 15) <<< 49 + nnz <<< 32 + (cols - 1) <<< 24 + (rows - 1) <<< 16 + (len / 2 ^ 15) <<< 15 +
  f.code <<< 8 + b n1 <<< 7 + b exh <<< 6 + retries <<< 4 + b esc <<< 3 + b raw <<< 2 + kind

/-- Compress one tile: the kind of R163, header and payload. -/
def packTile (bt : Bool) (f : Fmt) (rows cols : Nat) (codes : List Nat) (retries : Nat) (exh esc : Bool) : TileWrite :=
  let b := f.bits
  let n := rows * cols
  let pad8 (x : Nat) := (x + 63) / 64
  let nz := (codes.zipIdx).filter fun (c, _) => !isZeroCode f c
  let nnz := nz.length
  let s0 := pad8 (n * b)
  let s1 := pad8 ((n + 63) / 64 * 64) + pad8 (nnz * b)
  let s2 := pad8 (nnz * 16) + pad8 (nnz * b)
  let vals := nz.map (·.1)
  if s0 ≤ min s1 s2 then
    ⟨natLE 8 (tileHdr s0 n cols rows f false exh retries esc true 0) ++ packBits b codes 8, 0, true, 0⟩
  else if s1 < s2 ∨ (s1 = s2 ∧ bt) then
    ⟨natLE 8 (tileHdr s1 nnz cols rows f false exh retries esc false 1) ++
      packBits 1 (codes.map fun c => if isZeroCode f c then 0 else 1) 8 ++ packBits b vals 8, 1, false, s0 - s1⟩
  else
    ⟨natLE 8 (tileHdr s2 nnz cols rows f false exh retries esc false 2) ++
      packBits 16 (nz.map (·.2)) 8 ++ packBits b vals 8, 2, false, s0 - s2⟩

/-- Header and payload of a kind 3 tile. -/
def packNm (f : Fmt) (rows cols : Nat) (gs : List NmGroup) (n1 exh : Bool) (retries : Nat) : List Byte :=
  let b := f.bits
  let body := natLE ((gs.length * (2 * b + 4) + 63) / 64 * 8)
    ((gs.foldr (fun g v => g.w0 + (g.w1 + v * 2 ^ b) * 2 ^ b) 0) +
      (gs.foldr (fun g v => g.p0 + 4 * g.p1 + v * 16) 0) * 2 ^ (2 * b * gs.length))
  natLE 8 (tileHdr (body.length / 8) (2 * gs.length) cols rows f n1 exh retries false false 3) ++ body

end Sys2Proof.Machine
end

