-- ==== Sys2Proof/Machine/Plans.lean ====
section
/-! DEFINITION. What an engine instruction names: its options, the operands of a dense instruction (R295 to R297), and
the memory that each engine instruction reads and writes; and what follows where accesses that no WAIT or FNC orders
meet: the values in the overlap are undefined (R93, R114, R129, R171, R197, R283). -/

namespace Sys2Proof.Machine
open Sys2Proof

/-- Bits `hi` to `lo` of the options field. -/
def ob (opt : Opt) (hi lo : Nat) : Nat := (opt.toNat >>> lo) % 2 ^ (hi + 1 - lo)

/-- A number as a bit of an options field. -/
def obit (opt : Opt) (b : Nat) : Bool := ob opt b b == 1

/-- One bit as a number. -/
def b2n (b : Bool) : Nat := if b then 1 else 0

/-! ### The operands of a dense instruction (R295 to R297) -/

/-- A dense instruction's controls and operands. -/
structure Plan where
  lds : Bool
  trn : Bool
  wgr : Bool
  mode : Nat
  sa : Nat
  hs : Bool
  fixed : Bool
  inp : Nat
  outp : Nat
  sr : Bool
  mask : Nat
  gather : Bool
  skip : Bool
  abase : Nat
  feed : TD
  dst : TD
  stat : TD
  ain : Option TD
  sec : Option TD
  idx : Option TD
  maskAt : Option Nat
  n0 : Option Nat
  deriving DecidableEq, Repr

/-- The controls and operands of an MMA, MMAT or WGR. -/
def mkPlan (trn wgr : Bool) (opt : Opt) (ds : List Desc) : Plan :=
  let d (i : Nat) : TD := td (ds.getD i 0)
  let ai := b2n (ob opt 11 10 == 2)
  let se := if wgr then 0 else ob opt 6 6
  let ga := ob opt 5 5
  let mk := if wgr then ob opt 7 6 else 0
  let mv := b2n (mk == 1 || mk == 2)
  let og := b2n (wgr && (mv == 1 || (d 1).aptr != 0))
  let pick (n at_ : Nat) : Option TD := if n = 1 then some (d at_) else none
  { lds := false, trn := trn, wgr := wgr, mode := ob opt 17 16, sa := ob opt 15 14, hs := obit opt 13,
    fixed := obit opt 12, inp := ob opt 11 10, outp := ob opt 9 8, sr := wgr || obit opt 7, mask := mk,
    gather := ga == 1, skip := obit opt 4, abase := ob opt 3 0, feed := d 0, dst := d 1, stat := d 2,
    ain := pick ai 3, sec := pick se (3 + ai), idx := pick ga (3 + ai + se),
    maskAt := (pick mv (3 + ai + se + ga)).map (·.base), n0 := (pick og (3 + ai + se + ga + mv)).map (·.base) }

/-- The plan of a work, none for an instruction that is not LDS, MMA, MMAT or WGR. -/
def planOf (w : Work) : Option Plan :=
  match w.instr with
  | .lds _ _ _ opt =>
    some { mkPlan (obit opt 13) false 0 [] with
      lds := true, mode := ob opt 17 16, sa := ob opt 15 14, hs := true, stat := td (w.descs.getD 0 0) }
  | .mma _ _ _ _ _ _ opt => some (mkPlan false false opt w.descs)
  | .mmat _ _ _ _ _ _ opt => some (mkPlan true false opt w.descs)
  | .wgr _ _ _ _ _ _ opt => some (mkPlan false true opt w.descs)
  | _ => none

/-- The bytes of the mask words that a WGR over `nc` output columns reads (R117). -/
def Plan.maskRange (p : Plan) (nc : Nat) : Nat × Nat :=
  let n0 := p.n0.getD 0
  let d := if p.mask = 2 then 128 else 1
  match p.maskAt with
  | some a => let i := n0 / d / 32; let j := (n0 + nc - 1) / d / 32; (a + 4 * i, 4 * (j + 1 - i))
  | none => (0, 0)

/-! ### Masks (R117) -/

/-- The masked output columns of a WGR. A mask word that lies past the end of the chamber is read where it lies: the spec
checks only the vector's BASE (log entry 108). -/
def Plan.maskedCols (p : Plan) (s : State) (nc : Nat) : List Nat :=
  let n0 := p.n0.getD 0
  let bitAt (a i : Nat) : Bool := (s.rdLE (a + 4 * (i / 32)) 4).testBit (i % 32)
  match p.mask, p.maskAt with
  | 3, _ => List.range nc
  | 1, some a => (List.range nc).filter fun j => bitAt a (n0 + j)
  | 2, some a => (List.range nc).filter fun j => bitAt a ((n0 + j) / 128)
  | _, _ => []

/-! ### The memory of an engine instruction -/

/-- The byte runs of a plan's operands: all that it reads, and all that it writes. -/
def Plan.reads (p : Plan) : List (Nat × Nat) :=
  (if p.hs then p.stat.bytes else []) ++
  (if p.lds then [] else p.feed.bytes ++ ([p.ain, p.idx].filterMap id).flatMap (TD.bytes) ++
    (if p.maskAt.isSome then [p.maskRange (p.dst.size 1)] else []))
def Plan.writes (p : Plan) : List (Nat × Nat) :=
  if p.lds || p.outp == 1 then [] else p.dst.bytes ++ (p.sec.toList).flatMap TD.bytes

/-- Descriptor `i` of a work. -/
def Work.td (w : Work) (i : Nat) : TD := Machine.td (w.descs.getD i 0)

/-- The byte runs that an engine instruction reads; empty for an instruction of another unit, whose reads meet others
where they are made. -/
def Work.reads (w : Work) : List (Nat × Nat) :=
  let b (i : Nat) : List (Nat × Nat) := (w.td i).bytes
  match w.instr with
  | .cvt .. | .cmp .. => b 0
  | .prn .. => b 0 ++ b 1
  | .gth .. | .sct .. => b 0 ++ b 2
  | .sca .. => b 0 ++ b 1 ++ b 2
  | .mrgMerge .. | .mrgBitmap .. => b 0 ++ b 1
  | .topk _ _ _ _ _ _ opt => b 0 ++ (if obit opt 7 then b 3 else [])
  | .seg .. => b 0 ++ b 2
  | .bat _ _ _ _ _ _ opt =>
    b 0 ++ b 1 ++ b 2 ++ b 3 ++ (if obit opt 7 then b (4 + b2n (obit opt 8)) else [])
  | _ => match planOf w with
    | some p => if w.skips then (if p.maskAt.isSome then [p.maskRange (p.dst.size 1)] else []) else p.reads
    | none => []

/-- The byte runs that the engine instruction of core `c` writes, or that a transfer has written (R228). -/
def Work.writes (c : Nat) (w : Work) : List (Nat × Nat) :=
  let b (i : Nat) : List (Nat × Nat) := (w.td i).bytes
  let word : List (Nat × Nat) := [(chamberBase c + 4 * (w.vals.getD 0 0).toNat, 4)]
  match w.instr with
  | .cvt .. | .cmp .. | .prn .. | .gth .. | .sct .. | .sca .. => b 1
  | .sclRead .. => word
  | .mrgMerge .. | .mrgBitmap .. => b 2 ++ word
  | .topk .. => b 1 ++ b 2
  | .seg .. => b 1
  | .bat _ _ _ _ _ _ opt => b 3 ++ (if obit opt 8 then b 4 else [])
  | _ => match planOf w with
    | some p => if w.skips then [] else p.writes
    | none => w.wrote

/-- What an instruction reads of its own destination without being meant to: of a dense instruction the feed, the
inbound A operand and the index list (R93), and every operand where the secondary destination lies (R114); of any other
the operands that its effect does not update in place (log entry 106). -/
def Work.own (c : Nat) (w : Work) : List (Nat × Nat) :=
  let b (i : Nat) : List (Nat × Nat) := (w.td i).bytes
  match w.instr with
  | .prn .. => meet (b 0) (b 1)
  | .sca .. => meet (b 0 ++ b 2) (b 1)
  | .bat _ _ _ _ _ _ opt =>
    meet (b 0 ++ b 1 ++ b 2 ++ (if obit opt 7 then b (4 + b2n (obit opt 8)) else [])) (w.writes c)
  | _ => match planOf w with
    | some p =>
      let ins := p.feed.bytes ++ ([p.ain, p.idx].filterMap id).flatMap (TD.bytes)
      meet ins p.writes ++ (match p.sec with | some d => if p.hs then meet p.stat.bytes d.bytes else [] | none => [])
    | none => meet w.reads (w.writes c)

/-- Where a secondary destination overlaps the primary or an operand: the values there are undefined (R114). -/
def Plan.secOverlap (p : Plan) : List (Nat × Nat) :=
  match p.sec with
  | some d => meet d.bytes (p.dst.bytes ++ p.reads)
  | none => []

/-! ### Overlaps that nothing orders -/

/-- Give bytes free values, one fresh draw for all of them. -/
def State.scribble (s : State) (rs : List (Nat × Nat)) : State :=
  match rs with
  | [] => s
  | _ => (rs.foldl (fun s' r => s'.putBytes r.1 ((List.range r.2).map fun i =>
      Config.undefByte s.freeCtr (2 ^ 51 + r.1 + i))) s).drawn

/-- The runs that two engine instructions may not share unordered: what one writes and the other reads or writes. -/
def clash (rx wx ry wy : List (Nat × Nat)) : List (Nat × Nat) :=
  (meet wx (ry ++ wy) ++ meet rx wy).filter fun r => inChamberWindow r.1

/-- Whether an instruction still stands unordered before another: it has not completed, or its handle is DONE and the
program has not seen it; one that was refused touches nothing. -/
def Seq.unordered (q : Seq) : List Work :=
  (q.works.filter fun w => match w.status with | .ended .desc => false | _ => true) ++
  q.unseen.filter fun w => Seq.isDone (q.getH w.handle)

/-- Whether an instruction is a WGR all of whose output columns are masked (R120). -/
def State.skipsAll (s : State) (w : Work) : Bool :=
  match planOf w with
  | some p => p.wgr && p.dst.size 1 != 0 && (p.maskedCols s (p.dst.size 1)).length == p.dst.size 1
  | none => false

/-- An engine instruction at its issue: it and every instruction that nothing orders before it (R129; a fence orders
those before it, R308) take note of the bytes they share. -/
def State.raced (s : State) (u : SeqId) (w : Work) : Work × State :=
  let c := u.num
  let w := { w with skips := s.skipsAll w }
  let rw := w.reads
  let ww := w.writes c
  if (rw.isEmpty && ww.isEmpty) || decide (w.status ≠ .queued) then (w, s) else
  let hit (n : Nat) (x : Work) : List (Nat × Nat) :=
    if n = c && decide (x.seq < w.fence) then [] else clash rw ww x.reads (x.writes n)
  let all := s.seqs.flatMap fun e => e.2.unordered.flatMap (hit e.1)
  if all.isEmpty then (w, s) else
  ({ w with race := all },
   { s with seqs := s.seqs.map fun e =>
      (e.1, { e.2 with works := e.2.works.map fun x => { x with race := x.race ++ hit e.1 x } }) })

/-- Before an instruction reads: the bytes that it shares with unordered accesses take free values; and the state it
reads from, in which the bytes it shares with its own destination are free too. -/
def State.viewOf (s : State) (c : Nat) (w : Work) : State × State :=
  let s := s.scribble w.race
  let v := s.scribble (w.own c)
  ({ s with freeCtr := v.freeCtr }, v)

/-- An access that meets instructions in flight: its unit, its own instruction's place and fence where it belongs to one
(a scalar access belongs to none, and no fence orders it). -/
structure Access where
  unit : Nat
  work : Option (Nat × Nat)
  wr : Bool
  deriving DecidableEq, Repr

/-- The access of a unit's instruction. -/
def Work.access (u : Nat) (w : Work) (wr : Bool) : Access := ⟨u, some (w.seq, w.fence), wr⟩

/-- The bytes at `a` that an access shares with instruction `x` of unit `k`, none where their order is fixed: a read meets
what `x` writes, a write also what `x` reads. -/
def Access.hit (m : Access) (a n k : Nat) (x : Work) : List (Nat × Nat) :=
  if (match m.work with | some (q, f) => k == m.unit && (x.seq == q || decide (x.seq < f)) | none => false) then []
  else (meet (if m.wr then x.reads ++ x.writes k else x.writes k) [(a, n)]).filter fun r => inChamberWindow r.1

/-- Whether an access to `n` bytes at `a` shares bytes with an instruction that nothing orders with it (R129, R171, R228,
R236, R283). -/
def State.meets (s : State) (m : Access) (a n : Nat) : Bool :=
  inChamberWindow a && s.seqs.any fun e => e.2.unordered.any fun x => !(m.hit a n e.1 x).isEmpty

/-- The instructions that an access meets take note of the bytes it shares with them. -/
def State.noteMeet (s : State) (m : Access) (a n : Nat) : State :=
  { s with seqs := s.seqs.map fun e =>
    (e.1, { e.2 with works := e.2.works.map fun x => { x with race := x.race ++ m.hit a n e.1 x } }) }

/-- Free bytes in place of `n` bytes at `a`. -/
def State.freeBytes (s : State) (a n : Nat) : List Byte := (List.range n).map fun i => Config.undefByte s.freeCtr (2 ^ 51 + a + i)

/-- The bytes that a read delivers: free values where it meets an unordered write. -/
def State.readMeet (s : State) (m : Access) (a n : Nat) : State × List Byte :=
  if s.meets m a n then (s.drawn, s.freeBytes a n) else (s, s.rdBytes a n)

/-- The bytes that a write leaves: free values where it meets an unordered access, which takes note of it. -/
def State.writeMeet (s : State) (m : Access) (a : Nat) (bs : List Byte) : State × List Byte :=
  if s.meets m a bs.length then ((s.noteMeet m a bs.length).drawn, s.freeBytes a bs.length) else (s, bs)

/-! ### Accesses under a running update (R23, R348) -/

/-- The byte runs of `n` bytes at a job virtual address of `root` that an engine's invocation writes, or names where the
access writes. -/
def State.updHit (s : State) (e : Nat × Upd) (root : Word) (wr : Bool) (va n : Nat) : List (Nat × Nat) :=
  match e.2.inv with
  | some i => if s.epReg (1050 + e.1) Reg.sipPtRoot = root then
      meet (if wr then i.reads ++ i.writes else i.writes) [(va, n)] else []
  | none => []

/-- The bytes that a read delivers: free where a running invocation writes its parameters, since no barrier has ordered the
read after the update (R23; log entry 111). -/
def State.readUpdated (s : State) (root : Word) (va k : Nat) (bs : List Byte) : State × List Byte :=
  if s.upds.any fun e => !(s.updHit e root false va k).isEmpty then (s.drawn, s.freeBytes va k) else (s, bs)

/-- The bytes that a write leaves: free where a running invocation names them, which takes note of it (R348). -/
def State.writeUpdated (s : State) (root : Word) (va : Nat) (bs : List Byte) : State × List Byte :=
  if s.upds.any fun e => !(s.updHit e root true va bs.length).isEmpty then
    (({ s with upds := s.upds.map fun e => (e.1, { e.2 with inv := e.2.inv.map fun i =>
      { i with race := i.race ++ s.updHit e root true va bs.length } }) } : State).drawn, s.freeBytes va bs.length)
  else (s, bs)

end Sys2Proof.Machine
end

