-- ==== Sys2Proof/Machine/Tensor.lean ====
section
/-! DEFINITION. The issue of tensor instructions (R276, R277, R290 to R305): the handle, the copied operands, the encodings
that fault and the operand runs that are refused; the fence FNC and the descriptor instructions. The work itself is in
the files of the engines. -/

namespace Sys2Proof.Machine
open Sys2Proof

/-- The work record of an instruction at its issue. -/
def newWork (q : Seq) (h : Nat) (i : Instr) : Work where
  seq := q.nseq
  handle := h
  instr := i
  descs := []
  vals := []
  block := []
  fence := q.fence
  after := []
  status := .queued
  left := []
  acc := .ok

/-- Issue the work of a tensor instruction: the lowest FREE handle becomes BUSY, its number goes to FD, and `f`
completes the record from what the instruction names (R276, R291); cause 0x89 where no handle is FREE (R277). -/
def takeHandle (u : SeqId) (fd : SReg) (i : Instr) (f : Work → State → Work × State) (s : State) : State :=
  let q := s.seq u
  match q.freeHandle with
  | none => s.seqFault u .desc 0x89 0
  | some h =>
    let (w, s) := f { newWork q h i with epoch := s.epoch } s
    let (w, s) := s.raced u w
    (s.onSeq u fun q =>
      { (q.setH h .busy).setS fd (BitVec.ofNat 64 h) with works := q.works ++ [w], nseq := q.nseq + 1 }).adv u

/-- Count one presentation that waits for a FREE handle (R277). -/
def stallHandle (u : SeqId) (s : State) : State := s.bump (u.regBase + 0x50) 1

/-- A tensor instruction: an undefined encoding faults with its cause, an instruction without a FREE handle waits while
any is BUSY (R277), and every one waits while a cairn pauses the device (R446) or the governor gates the core (R489);
any other issues. -/
def issueTensor (w : Issue) (fd : SReg) (i : Instr) (bad : Option Nat) (s : State)
    (f : Work → State → Work × State) : Out :=
  issueWhen w (fun s => bad.isSome || (!s.paused && !s.gated w.u && ((s.seq w.u).freeHandle.isSome || !(s.seq w.u).anyBusy)))
    (fun s => if s.paused || s.gated w.u then s else stallHandle w.u s) s
    fun s => match bad with
      | some c => s.seqFault w.u .desc c 0
      | none => takeHandle w.u fd i f s

/-- Cause 0x80 where `b` holds. -/
def undefIf (b : Bool) : Option Nat := if b then some 0x80 else none

/-- The cause of a core instruction: 0x80 on a control processor or where `b` holds (R294). -/
def coreBad (u : SeqId) (b : Bool) : Option Nat := undefIf (u.isCp || b)

/-- A work may start once every instruction before its fence has completed (R308), and not while a cairn pauses the
device (R446). -/
def State.mayStart (s : State) (q : Seq) (w : Work) : Bool :=
  !s.paused && q.works.all fun x => x.seq == w.seq || decide (w.fence ≤ x.seq)

/-- A work refused at its issue (R292). -/
def Work.refused (w : Work) : Work := { w with status := .ended .desc }

/-- The slots of an auxiliary run of `n` from `d4`, none where the run would pass d63 (R293). -/
def auxRun (q : Seq) (d4 : Slot) (n : Nat) : Option (List Desc) :=
  if 64 < d4.toNat + n then none
  else some ((List.range n).map fun k => q.getD (BitVec.ofNat 6 (d4.toNat + k)))

/-- Copy descriptor slots into a work. -/
def withDescs (u : SeqId) (ds : List Slot) (d4 : Slot) (n : Nat) (w : Work) (s : State) : Work × State :=
  let q := s.seq u
  let w := { w with descs := ds.map q.getD }
  match auxRun q d4 n with
  | none => (w.refused, s)
  | some l => ({ w with descs := w.descs ++ l }, s)

/-- Descriptor slots and register values of a work without an auxiliary run. -/
def withOps (u : SeqId) (ds : List Slot) (vs : List Word) (w : Work) (s : State) : Work × State :=
  ({ w with descs := ds.map (s.seq u).getD, vals := vs }, s)

/-! ### Dense instructions (R295, R296) -/

/-- The auxiliary slots that the options of an MMA or MMAT call for. -/
def mmaAux (opt : Opt) : Nat := b2n (ob opt 11 10 == 2) + ob opt 6 6 + ob opt 5 5

/-- Whether an MMA or MMAT breaks a field rule. -/
def mmaBad (d3 d4 : Slot) (opt : Opt) (aux : Nat) : Bool :=
  (ob opt 17 16 != 3 && ob opt 15 14 != 0) || ob opt 11 10 == 3 || ob opt 9 8 == 3 ||
  (!obit opt 13 && d3 != 0) || (aux == 0 && d4 != 0)

/-- The auxiliary slots of a WGR: its destination's APTR counts (R296). -/
def wgrAux (opt : Opt) (dst : Desc) : Nat :=
  let m := b2n (ob opt 7 6 == 1 || ob opt 7 6 == 2)
  b2n (ob opt 11 10 == 2) + ob opt 5 5 + m + b2n (m == 1 || (td dst).aptr != 0)

/-- LDS. -/
def execLds (w : Issue) (fd : SReg) (d1 : Slot) (opt : Opt) (s : State) : Out :=
  issueTensor w fd (.lds w fd d1 opt)
    (coreBad w.u ((ob opt 17 16 != 3 && ob opt 15 14 != 0) || ob opt 12 0 != 0)) s (withOps w.u [d1] [])

/-- MMA. -/
def execMma (w : Issue) (fd : SReg) (d1 d2 d3 d4 : Slot) (opt : Opt) (s : State) : Out :=
  issueTensor w fd (.mma w fd d1 d2 d3 d4 opt) (coreBad w.u (mmaBad d3 d4 opt (mmaAux opt))) s
    (withDescs w.u [d1, d2, d3] d4 (mmaAux opt))

/-- MMAT. -/
def execMmat (w : Issue) (fd : SReg) (d1 d2 d3 d4 : Slot) (opt : Opt) (s : State) : Out :=
  issueTensor w fd (.mmat w fd d1 d2 d3 d4 opt) (coreBad w.u (mmaBad d3 d4 opt (mmaAux opt))) s
    (withDescs w.u [d1, d2, d3] d4 (mmaAux opt))

/-- WGR. -/
def execWgr (w : Issue) (fd : SReg) (d1 d2 d3 d4 : Slot) (opt : Opt) (s : State) : Out :=
  let aux := wgrAux opt ((s.seq w.u).getD d2)
  issueTensor w fd (.wgr w fd d1 d2 d3 d4 opt) (coreBad w.u (mmaBad d3 d4 opt aux)) s
    (withDescs w.u [d1, d2, d3] d4 aux)

/-- CVT (R299). -/
def execCvt (w : Issue) (fd : SReg) (d1 d2 : Slot) (opt : Opt) (s : State) : Out :=
  issueTensor w fd (.cvt w fd d1 d2 opt) (coreBad w.u (ob opt 17 8 != 0 || ob opt 5 0 != 0)) s (withOps w.u [d1, d2] [])

/-- SCL with OPT[2] clear (R300). -/
def execSclRead (w : Issue) (fd : SReg) (d1 : Slot) (r4 : SReg) (field : BitVec 2) (s : State) : Out :=
  issueTensor w fd (.sclRead w fd d1 r4 field) (coreBad w.u (field == 3)) s
    (withOps w.u [d1] [(s.seq w.u).getS r4])

/-- SCL with OPT[2] set (R300). -/
def execSclWrite (w : Issue) (fd : SReg) (d1 : Slot) (r4 : SReg) (field : BitVec 2) (s : State) : Out :=
  issueTensor w fd (.sclWrite w fd d1 r4 field) (coreBad w.u (field == 3)) s
    (withOps w.u [d1] [(s.seq w.u).getS r4])

/-! ### Sparse instructions (R301) -/

/-- GTH. -/
def execGth (w : Issue) (fd : SReg) (d1 d2 d3 : Slot) (opt : Opt) (s : State) : Out :=
  issueTensor w fd (.gth w fd d1 d2 d3 opt) (coreBad w.u (opt != 0)) s (withOps w.u [d1, d2, d3] [])

/-- SCT. -/
def execSct (w : Issue) (fd : SReg) (d1 d2 d3 : Slot) (opt : Opt) (s : State) : Out :=
  issueTensor w fd (.sct w fd d1 d2 d3 opt) (coreBad w.u (opt != 0)) s (withOps w.u [d1, d2, d3] [])

/-- SCA. -/
def execSca (w : Issue) (fd : SReg) (d1 d2 d3 : Slot) (opt : Opt) (s : State) : Out :=
  issueTensor w fd (.sca w fd d1 d2 d3 opt) (coreBad w.u (ob opt 17 8 != 0 || ob opt 6 0 != 0)) s
    (withOps w.u [d1, d2, d3] [])

/-- MRG in mode merge. -/
def execMrgMerge (w : Issue) (fd : SReg) (d1 d2 d3 : Slot) (r4 : SReg) (s : State) : Out :=
  issueTensor w fd (.mrgMerge w fd d1 d2 d3 r4) (coreBad w.u false) s
    (withOps w.u [d1, d2, d3] [(s.seq w.u).getS r4])

/-- MRG in mode bitmap. -/
def execMrgBitmap (w : Issue) (fd : SReg) (d1 d2 d3 : Slot) (r4 : SReg) (s : State) : Out :=
  issueTensor w fd (.mrgBitmap w fd d1 d2 d3 r4) (coreBad w.u false) s
    (withOps w.u [d1, d2, d3] [(s.seq w.u).getS r4])

/-- TOPK. -/
def execTopk (w : Issue) (fd : SReg) (d1 d2 d3 d4 : Slot) (opt : Opt) (s : State) : Out :=
  issueTensor w fd (.topk w fd d1 d2 d3 d4 opt)
    (coreBad w.u (ob opt 17 8 != 0 || (!obit opt 7 && d4 != 0))) s (withOps w.u [d1, d2, d3, d4] [])

/-- SEG. -/
def execSeg (w : Issue) (fd : SReg) (d1 d2 d3 : Slot) (opt : Opt) (s : State) : Out :=
  issueTensor w fd (.seg w fd d1 d2 d3 opt) (coreBad w.u (ob opt 17 2 != 0)) s (withOps w.u [d1, d2, d3] [])

/-- CMP. -/
def execCmp (w : Issue) (fd : SReg) (d1 d2 : Slot) (opt : Opt) (s : State) : Out :=
  issueTensor w fd (.cmp w fd d1 d2 opt) (coreBad w.u (ob opt 17 1 != 0)) s
    (withOps w.u [d1, d2] [])

/-- PRN. -/
def execPrn (w : Issue) (fd : SReg) (d1 d2 : Slot) (r4 : SReg) (opt : Opt) (s : State) : Out :=
  issueTensor w fd (.prn w fd d1 d2 r4 opt) (coreBad w.u (ob opt 17 2 != 0)) s
    (withOps w.u [d1, d2] [(s.seq w.u).getS r4])

/-- The auxiliary slots of a BAT. -/
def batAux (opt : Opt) : Nat := 1 + ob opt 8 8 + ob opt 7 7

/-- BAT. -/
def execBat (w : Issue) (fd : SReg) (d1 d2 d3 d4 : Slot) (opt : Opt) (s : State) : Out :=
  issueTensor w fd (.bat w fd d1 d2 d3 d4 opt) (coreBad w.u (ob opt 15 10 != 0)) s
    (withDescs w.u [d1, d2, d3] d4 (batAux opt))

/-! ### Transfers and ropes (R302 to R305) -/

/-- Whether a unit may name a siphon (R303). -/
def siphAllowed (u : SeqId) (n : Nat) : Bool :=
  match u with
  | .core c => n / 2 == grottoOf c.val || (decide (200 ≤ n) && decide (n ≤ 215))
  | .cp _ => decide (n ≤ 215)

/-- Read `n` words at a word index of the unit's scalar store into the work's block; an index off its boundary, or
beyond the store, refuses the work, and an uncorrectable word ends it with 0x50. -/
def withBlock (u : SeqId) (i n bound : Nat) (w : Work) (s : State) : Work × State :=
  let a := storeBase u + 4 * i
  if i % bound ≠ 0 ∨ storeWords u < i + n then (w.refused, s)
  else if s.rdBad a (4 * n) then ({ w with status := .ended .ecc }, s.noteRead a (4 * n))
  else ({ w with block := s.rdBytes a (4 * n) }, s)

/-- The operands of an XFR: descriptors, the parameter block where D4 is not s0, and the block's word index. -/
def withXfr (u : SeqId) (ds : List Slot) (r4 : SReg) (siph : BitVec 8) (w : Work) (s : State) : Work × State :=
  let q := s.seq u
  let w := { w with descs := ds.map q.getD, vals := [q.getS r4] }
  if !siphAllowed u siph.toNat then (w.refused, s)
  else if s.sipRefuses siph.toNat then ({ w with status := .ended .aborted }, s)
  else if r4 = 0 then (w, s)
  else withBlock u (q.getS r4).toNat 16 16 w s

/-- XFR, mode PROG. -/
def execXfrProg (w : Issue) (fd : SReg) (d1 d2 d3 : Slot) (r4 : SReg) (siph : BitVec 8) (slot : BitVec 4) (drv : Bool)
    (s : State) : Out :=
  issueTensor w fd (.xfrProg w fd d1 d2 d3 r4 siph slot drv) none s (withXfr w.u [d1, d2, d3] r4 siph)

/-- XFR, mode PACK: SLOT and DRV are not used. -/
def execXfrPack (w : Issue) (fd : SReg) (d1 d2 d3 : Slot) (r4 : SReg) (siph : BitVec 8) (s : State) : Out :=
  issueTensor w fd (.xfrPack w fd d1 d2 d3 r4 siph) (undefIf (d3 != 0)) s (withXfr w.u [d1, d2] r4 siph)

/-- XFR, mode UNPACK. -/
def execXfrUnpack (w : Issue) (fd : SReg) (d1 d2 d3 : Slot) (r4 : SReg) (siph : BitVec 8) (s : State) : Out :=
  issueTensor w fd (.xfrUnpack w fd d1 d2 d3 r4 siph) (undefIf (d3 != 0)) s (withXfr w.u [d1, d2] r4 siph)

/-- XFR, mode ROPE: D2 must be d0 (R304, log entry 41). -/
def execXfrRope (w : Issue) (fd : SReg) (d1 d2 : Slot) (r4 : SReg) (siph : BitVec 8) (s : State) : Out :=
  issueTensor w fd (.xfrRope w fd d1 d2 r4 siph) (undefIf (d2 != 0)) s (withXfr w.u [d1] r4 siph)

/-- ROP: the rope specification of 8 words (R305). -/
def execRop (w : Issue) (fd : SReg) (a1 : AReg) (s : State) : Out :=
  issueTensor w fd (.rop w fd a1) (coreBad w.u false) s
    fun k s => withBlock w.u ((s.seq w.u).getA a1).toNat 8 8 k s

/-! ### Fence and descriptors (R308 to R310) -/

/-- FNC: later tensor instructions start only when every earlier one has completed (R308). -/
def execFnc (w : Issue) (s : State) : Out :=
  issue w s fun s => (s.onSeq w.u fun q => { q with fence := q.nseq }).adv w.u

/-- Run `body` on a block of `n` words at the word index in an a-register: cause 0x84 off its boundary, 0x83 beyond
the store (R280, R309, R310). -/
def onBlock (u : SeqId) (a2 : AReg) (n : Nat) (s : State) (body : Nat → State → State) : State :=
  let i := ((s.seq u).getA a2).toNat
  if i % n ≠ 0 then s.seqFault u .desc 0x84 0
  else if storeWords u < i + n then s.seqFault u .desc 0x83 0
  else body (storeBase u + 4 * i) s

/-- The encoding of a stride with the smallest exponent, none where no mantissa and exponent represent it (R206, R213). -/
def encStride (z : Int) : Option (Nat × Nat) :=
  (List.range 16).findSome? fun se =>
    let m := z / (2 ^ se : Nat)
    if m * (2 ^ se : Nat) = z ∧ -(2 ^ 19 : Nat) ≤ m ∧ m < (2 ^ 19 : Nat) then some ((m % (2 ^ 20 : Nat)).toNat, se) else none

/-- The descriptor that a build block describes, none where a size or stride has no encoding (R309). -/
def buildDesc (b : List Byte) : Option Desc :=
  let n (o z : Nat) : Nat := leNat ((List.range z).map fun i => b.getD (o + i) 0)
  let dims := (List.range 6).map fun i =>
    let size := n (0x50 + 4 * i) 4
    if size < 2 ^ 24 then (encStride (sext 64 (n (0x20 + 8 * i) 8))).map fun (m, e) => size + m <<< 24 + e <<< 44 else none
  if dims.all Option.isSome then
    some (BitVec.ofNat 512 ((dims.zipIdx).foldl (fun v (d, i) => v + (d.getD 0) <<< (224 + 48 * i)) (n 0 28)))
  else none

/-- Whether every in-bounds element lies in the region of `z` bytes at BASE (R213): in every layout but a stream the
element with every coordinate at its end of smaller or larger stride bounds them. -/
def TD.inRegion (t : TD) (z : Nat) : Bool :=
  let lo : Int := 8 * (t.base : Int)
  let all (a b : Int) : Bool := decide (lo ≤ a) && decide (b ≤ lo + 8 * (z : Int))
  if t.isStream then all t.span.1 t.span.2
  else
    let corner (f : Int → Bool) : List Nat := (List.range t.ndims).map fun i => if f (t.stride i) then t.size i - 1 else 0
    let x := t.elemBit (corner fun d => decide (d < 0))
    let y := t.elemBit (corner fun d => decide (0 ≤ d))
    all x (x + t.bits) && all y (y + t.bits)

/-- DSC.MAKE: the descriptor, or zeros and the code 0x22 (R213, R309). -/
def execDscMake (w : Issue) (fd : SReg) (d1 : Slot) (a2 : AReg) (s : State) : Out :=
  issue w s fun s => onBlock w.u a2 32 s fun a s =>
    if s.rdBad a 128 then (s.noteRead a 128).seqFault w.u .ecc 0x87 0 else
    let b := s.rdBytes a 128
    let z := leNat (b.drop 0x68 |>.take 8)
    let d := match buildDesc b with
      | none => none
      | some d => if (td d).ok && (td d).inRegion z then some d else none
    (s.onSeq w.u fun q => (q.setD d1 (d.getD 0)).setS fd (if d.isSome then 0 else 0x22)).adv w.u

/-- DSC.LD (R310). -/
def execDscLd (w : Issue) (d1 : Slot) (a2 : AReg) (s : State) : Out :=
  issue w s fun s => onBlock w.u a2 16 s fun a s =>
    if s.rdBad a 64 then (s.noteRead a 64).seqFault w.u .ecc 0x87 0
    else (s.onSeq w.u fun q => q.setD d1 (BitVec.ofNat 512 (s.rdLE a 64))).adv w.u

/-- DSC.ST (R310). -/
def execDscSt (w : Issue) (d1 : Slot) (a2 : AReg) (s : State) : Out :=
  issue w s fun s => onBlock w.u a2 16 s fun a s => (s.wrLE a 64 ((s.seq w.u).getD d1).toNat).adv w.u

/-- DSC.BASE: bits [47:0] of the slot (R310). -/
def execDscBase (w : Issue) (d1 : Slot) (a2 : AReg) (s : State) : Out :=
  issue w s fun s => (s.onSeq w.u fun q =>
    let d := q.getD d1
    q.setD d1 (BitVec.ofNat 512 (d.toNat / 2 ^ 48 * 2 ^ 48 + (q.getA a2).toNat))).adv w.u

end Sys2Proof.Machine
end

