-- ==== Sys2Proof/Machine/Barrier.lean ====
section
/-! DEFINITION. Barrier counters (R254 to R262, R306, R307): arrivals, waits, watch tables, notifications and polls. -/

namespace Sys2Proof.Machine
open Sys2Proof

/-- The signed value of a counter less a target, modulo 2^32 (R257). -/
def ahead (ctr target : BitVec 32) : Bool := decide (0 ≤ (ctr - target).toInt)

/-- The counter at a local address. -/
def State.counterAt (s : State) (h : Nat) : BitVec 32 := BitVec.ofNat 32 (s.rdLE h 4)

/-- Where a counter address leads: a chamber or GDDR7, here or at a peer; anywhere else gives 0x20, whatever state the
target is in (R254). -/
def State.counterHome (s : State) (root : Word) (va eng : Nat) (wr : Bool) : Xlat :=
  let home (a : Nat) : Bool := match s.target a with | .chamber .. | .gddr .. | .unpopulated => true | _ => false
  match (if inChamberWindow va then .fault .ok 0 else (s.walk root va).2) with
  | .leaf e sh =>
    if (leafDenied e eng true wr).isNone && (bits 60 60 e == 0 || bits 59 48 e == s.devId) && !home (leafAddr e sh va)
    then .fault .prot 0x10 else s.leafCheck e sh va eng true wr
  | .fault .. => s.translate root va eng true wr

/-- The watch table that serves a home address: a chamber's or a memory controller's (R259). -/
def State.watchTable (s : State) (h : Nat) : Nat :=
  match s.target h with
  | .chamber c _ => c
  | .gddr m _ => 800 + m
  | _ => 816

def watchLimit (t : Nat) : Nat := if t < 800 then 64 else 256

/-- Registered waits of a table. -/
def State.watchesOf (s : State) (t : Nat) : Nat :=
  (s.watches.filter fun w => !w.poll && s.watchTable w.home == t).length

/-- Apply an arrival at its home: one atomic addition modulo 2^32, counted in a chamber, after which every registered wait
there is tested again (R255, R259). An uncorrectable counter gives 0x50, and the one read-modify-write counts once (R393,
R394). -/
def State.arriveAt (s : State) (h inc : Nat) : State × Code :=
  let bad := s.rdBad h 4
  let v := s.rdLE h 4 + inc
  let s := (if bad then s.noteRead h 4 else s).wrQuiet h (natLE 4 v)
  let s := match s.target h with
    | .chamber c _ => s.bump (Reg.nocBarArriveCnt c) 1
    | _ => s
  ({ s with watches := s.watches.map fun w =>
      if w.home = h ∧ !w.poll ∧ ahead (BitVec.ofNat 32 v) w.target then { w with fired := true } else w },
   if bad then .ecc else .ok)

/-- An arrival by one of the block's own units, at a job virtual address: its code (R254, R256, R306). -/
def State.arriveVa (s : State) (root : Word) (eng va inc : Nat) : State × Code :=
  if va % 4 ≠ 0 then (s, .desc) else
  match s.counterHome root va eng true with
  | .fault c _ => (s.noteXlat root va eng true true, c)
  | .local_ h => s.arriveAt h inc
  | .remote d a =>
    match s.linkTo d a with
    | (s, none) => (s, .link)
    | (s, some l) => (s.sendPkt l d 4 0 0 (globalAddr d a) (natLE 4 inc), .ok)

/-- Register a wait, or leave the waiter polling where the table is full. -/
def State.watch (s : State) (h : Nat) (t : BitVec 32) (who : Waiter) : State :=
  let tb := s.watchTable h
  { s with watches := s.watches ++ [⟨h, t, who, decide (watchLimit tb ≤ s.watchesOf tb), false⟩] }

/-- BAR.ARRIVE: increment OPT[15:0], the mask of handles in the low word of the register (R256, R278, R306). -/
def execBarArrive (w : Issue) (fd : SReg) (a1 : AReg) (r2 : SReg) (opt : Opt) (s : State) : Out :=
  issueTensor w fd (.barArrive w fd a1 r2 opt) (undefIf (ob opt 15 0 == 0 || ob opt 17 16 != 0)) s fun k s =>
    let q := s.seq w.u
    let m := (q.getS r2).toNat
    let named := q.works.filter fun x => m.testBit x.handle && decide (x.handle < 32) && Seq.isBusy (q.getH x.handle)
    ({ k with vals := [(q.getA a1).zeroExtend 64, BitVec.ofNat 64 s.nextReq], after := named.map (·.seq) }, s)

/-- Whether a work has every instruction that it waits for completed. -/
def afterDone (q : Seq) (w : Work) : Bool := w.after.all fun n => q.works.all fun x => x.seq != n

/-- Whether an earlier global store of a unit awaits its ack from a peer: the second value of an arrival is the number of
requests made before it was issued (R283, R425). -/
def State.storesOpen (s : State) (u : SeqId) (w : Work) : Bool :=
  s.reqs.any fun r => decide (r.id < (w.vals.getD 1 0).toNat) &&
    (match r.purpose with | .store n _ => n == u.num | _ => false)

/-- BAR_ARRIVAL_APPLY: the arrival that holds a handle is performed once every named instruction has completed and every
earlier global store is visible, in issue order among the arrivals of its unit at that counter, by whatever address they
name it (R255, R256, R283). -/
def execBarArrivalApply (u : SeqId) (h : BitVec 5) (s : State) : Out :=
  let q := s.seq u
  match q.works.find? fun w => w.handle == h.toNat && w.status == .queued with
  | none => .next s
  | some w =>
    match w.instr with
    | .barArrive _ _ _ _ opt =>
      let va := (w.vals.getD 0 0).toNat
      let root := s.epReg u.epochUnit Reg.sipPtRoot
      let home (x : Work) : Xlat := s.counterHome root (x.vals.getD 0 0).toNat 0 true
      let earlier := q.works.any fun x => decide (x.seq < w.seq) &&
        (match x.instr, x.status with
         | .barArrive .., .queued => x.vals.head? == w.vals.head? || home x == home w
         | _, _ => false)
      if !afterDone q w || !s.mayStart q w || earlier || s.storesOpen u w then .next s
      else if va % 4 ≠ 0 then .next (s.endWork u w.seq .desc)
      else match s.counterHome root va 0 true with
        | .fault c _ => .next ((s.noteXlat root va 0 true true).endWork u w.seq c)
        | .local_ a =>
          if s.training a 4 then .next s else
          let r := s.arriveAt a (ob opt 15 0); .next (r.1.endWork u w.seq r.2)
        | .remote d a =>
          match s.linkTo d a with
          | (s, none) => .next (s.endWork u w.seq .link)
          | (s, some l) =>
            let s := s.sendPkt l d 4 0 (s.nextReq % 65536) (globalAddr d a) (natLE 4 (ob opt 15 0))
            let s := s.request l d (.arrive u.num w.seq)
            .next (s.onSeq u fun q => { q with works := q.works.map fun x =>
              if x.seq = w.seq then { x with status := .running } else x })
    | _ => .next s

/-- The wait of an exchange block at a peer's START counter ends, with a code (R365). -/
def State.wakeX (s : State) (r idx : Nat) (c : Code) : State :=
  { s with xch := { s.xch with blocks := s.xch.blocks.map fun b =>
      if b.ring = r ∧ b.idx = idx then { b with reached := true, code := b.code.max c } else b } }

/-- A released waiter proceeds: a sequencer behind its BAR.WAIT, a siphon program behind its WAITB, an exchange block to its
start, a peer by a notification (R257 to R259, R365). -/
def State.release (s : State) (who : Waiter) : State :=
  match who with
  | .seq u => s.onSeq u fun q =>
      if q.barWait.isSome then { q with run := .running, pc := q.pc + 1, barWait := none } else q
  | .sip n id => s.onSiph n.val fun sp => { sp with transfers := sp.transfers.map fun t =>
      if t.id = id ∧ t.waiting then { t with waiting := false, pc := t.pc + 1 } else t }
  | .block r idx => s.wakeX r.val idx.toNat .ok
  | .remote l dev tag => s.sendPkt l.val dev.toNat 1 1 tag.toNat (globalAddr dev.toNat 0) []

/-- The payload of a wait at a peer's counter: no bytes asked for, and the target (log entry 51). -/
def waitBody (t : BitVec 32) : List Byte := natLE 4 0 ++ natLE 4 t.toNat

/-- BAR.WAIT (R254, R257, R307). -/
def execBarWait (w : Issue) (a1 : AReg) (r2 : SReg) (s : State) : Out :=
  issue w s fun s =>
    let q := s.seq w.u
    let va := (q.getA a1).toNat
    let t := (q.getS r2).setWidth 32
    let hold (s : State) (h : Nat) : State := (s.onSeq w.u fun q => { q with barWait := some (h, t) }).park w.u
    if va % 4 ≠ 0 then s.seqFault w.u .desc 0x84 0
    else match s.counterHome (s.epReg w.u.epochUnit Reg.sipPtRoot) va 0 false with
      | .fault c k => (s.noteXlat (s.epReg w.u.epochUnit Reg.sipPtRoot) va 0 true false).seqFault w.u c k va
      | .local_ h =>
        if s.rdBad h 4 then (s.noteRead h 4).seqFault w.u .ecc 0x87 va
        else if ahead (s.counterAt h) t then s.adv w.u
        else (hold s h).watch h t (.seq w.u)
      | .remote d a =>
        match s.linkTo d a with
        | (s, none) => s.seqFault w.u .link 0x88 va
        | (s, some l) =>
          hold ((s.sendPkt l d 0 0 (s.nextReq % 65536) (globalAddr d a) (waitBody t)).request l d (.wait (.seq w.u))) va

/-- BAR_NOTIFY: the notification of a released wait reaches its waiter. -/
def execBarNotify (who : Waiter) (s : State) : Out :=
  match s.watches.find? fun w => w.who == who && w.fired with
  | none => .next s
  | some w => .next ({ s with watches := s.watches.erase w }.release who)

/-- The core at which a poll counts. -/
def pollCore : Waiter → Option Nat
  | .seq (.core c) => some c.val
  | _ => none

/-- A waiter that reads an uncorrectable counter: a sequencer faults with cause 0x87, a siphon's transfer stops, a peer gets
a negative response, each with 0x50 (R393). -/
def State.waitFails (s : State) (who : Waiter) : State :=
  match who with
  | .seq u => (s.onSeq u fun q => { q with barWait := none }).seqFault u .ecc 0x87 0
  | .sip n id => s.onSiph n.val fun sp => { sp with transfers := sp.transfers.map fun t =>
      if t.id = id then { t with waiting := false, ended := true, code := t.code.max .ecc } else t }
  | .block r idx => s.wakeX r.val idx.toNat .ecc
  | .remote l dev tag => s.sendOn l.val ⟨dev.toNat, globalAddr dev.toNat 0, 7, 1, 0, s.devId, tag.toNat, 0x50, []⟩

/-- BAR_POLL_READ: a waiter that found the table full reads the counter again (R259). -/
def execBarPollRead (who : Waiter) (s : State) : Out :=
  match s.watches.find? fun w => w.who == who && w.poll with
  | none => .next s
  | some w =>
    let s := match pollCore who with
      | some c => s.bump (Reg.nocBarPollCnt c) 1
      | none => s
    if s.rdBad w.home 4 then .next (({ s with watches := s.watches.erase w }.noteRead w.home 4).waitFails who)
    else if ahead (s.counterAt w.home) w.target then .next ({ s with watches := s.watches.erase w }.release who)
    else .next s

end Sys2Proof.Machine
end

