-- ==== Sys2Proof/Machine/Convert.lean ====
section
/-! DEFINITION. The output converter (R61 to R68), its tile flow (R98, R113), the amax table (R69 to R73) and the drip
table (R53): what CVT, the dense engine and the pruning unit share. -/

namespace Sys2Proof.Machine
open Sys2Proof

/-! ### Exponents (R62, R65) -/

/-- The smallest integer `x` with `a ≤ mv * 2^x`; none for a zero, 128 where no integer fits. -/
def needExp (mv a : FVal) : Option Int :=
  match mv, a with
  | .fin _ mm me, .fin _ m e =>
    if m = 0 then none else
    let g := flog2 m mm
    let exact := decide (mm <<< g.toNat = m <<< (-g).toNat)
    some ((if exact then g else g + 1) + e - me)
  | _, _ => some 128

/-- Insert into a list of magnitudes in descending order. -/
def insMag (a : FVal) : List FVal → List FVal
  | [] => [a]
  | b :: l => if b.lt a then a :: b :: l else b :: insMag a l

/-- The magnitudes of a block in descending order, NaN elements not counted (R62). -/
def mags (vs : List FVal) : List FVal := (vs.filter fun v => !v.isNaN).foldl (fun l v => insMag v.abs l) []

/-- The exponent a block needs, none where every value is zero (R62). -/
def blockNeed (f : Fmt) (vs : List FVal) : Option Int :=
  let l := mags vs
  let m1 := l.getD 0 .zero
  match f with
  | .f4x =>
    match needExp (.fin false 6 0) (l.getD 2 .zero), needExp Fmt.e4m3.maxval m1 with
    | some a, some b => some (max a b)
    | some a, none => some a
    | none, b => b
  | _ => needExp f.maxval m1

/-- The exponent of a row block: that of R62, clamped to -127 to 127. -/
def rowExp (f : Fmt) (vs : List FVal) : Int := max (-127) (min 127 ((blockNeed f vs).getD 0))

/-- The exponent with which an overflowing column block is re-emitted: the smallest `k ≥ 1` that fits, at most 127. -/
def reemitExp (f : Fmt) (vs : List FVal) : Int := min 127 (max 1 ((blockNeed f vs).getD 1))

/-- Whether a column block fits at exponent `x` (R65). -/
def blockFits (f : Fmt) (vs : List FVal) (x : Int) : Bool :=
  match blockNeed f vs with
  | none => true
  | some k => decide (k ≤ x)

/-! ### One block -/

/-- A value to convert: the coordinates of its element, and the value `v` of R61. -/
structure ConvEl where
  m : List Nat
  v : FVal
  deriving DecidableEq, Repr

/-- A destination of a conversion: its descriptor, the drip key of an SR conversion, and the exponent T. -/
structure ConvDst where
  t : TD
  key : Option DripKey
  tx : Int
  deriving DecidableEq, Repr

/-- How the element at coordinates `m` rounds: its draw is that of its linear index (R54). -/
def ConvDst.rnd (d : ConvDst) (m : List Nat) : Rnd :=
  match d.key with
  | none => .rne
  | some k => let n := d.t.fm.drawBits; .sr n (k.draw n (d.t.linear m))

/-- What the conversion of a block writes, and what it counts. -/
structure BlockOut where
  codes : List (List Nat × Nat) := []
  scales : List (Nat × Nat) := []
  escs : List (Nat × Nat) := []
  clips : Nat := 0
  ovf : Nat := 0
  deriving DecidableEq, Repr

def BlockOut.add (a b : BlockOut) : BlockOut :=
  ⟨b.codes ++ a.codes, b.scales ++ a.scales, b.escs ++ a.escs, a.clips + b.clips, a.ovf + b.ovf⟩

/-- Larger magnitude first, a tie to the lower position (R64). -/
def escBefore (a b : Nat × FVal) : Bool := b.2.abs.lt a.2.abs || (!(a.2.abs.lt b.2.abs) && decide (a.1 < b.1))

def insEsc (a : Nat × FVal) : List (Nat × FVal) → List (Nat × FVal)
  | [] => [a]
  | b :: l => if escBefore a b then a :: b :: l else b :: insEsc a l

/-- The positions escaped and the positions that saturate to ±6, among scaled values by position (R64). -/
def escapes (sc : List (Nat × FVal)) : List Nat × List Nat :=
  let big := (sc.filter fun x => FVal.lt (.fin false 6 0) x.2.abs).foldl (fun l x => insEsc x l) []
  ((big.take 2).map (·.1), (big.drop 2).map (·.1))

/-- Convert block `n` of a destination at exponent `x` (R43, R51, R62, R64): every code, the scale byte, the escape
word, and the events counted; an F4X element beyond two escapes is brought to the end of the range, so it counts as
saturated (R51) and as an escape overflow (R64). -/
def convBlock (d : ConvDst) (n : Nat) (x : Int) (els : List ConvEl) : BlockOut :=
  let f := d.t.fm
  let nans := (els.filter fun e => e.v.isNaN).length
  if f.is4 && nans != 0 then
    { codes := els.map fun e => (e.m, 0), scales := [(n, 0xFF)],
      escs := if f = .f4x then [(n, 0)] else [], clips := nans }
  else
    let sc := els.map fun e => (d.t.blockPos e.m, e.m, e.v.scale (-x))
    let (es, ovr_) := if f = .f4x then escapes (sc.map fun e => (e.1, e.2.2)) else ([], [])
    let es := if es.getD 0 0 ≤ es.getD 1 32 then es else es.reverse
    let escd := es.filterMap fun p => (sc.find? fun e => e.1 == p).map fun e => (p, convElem .e4m3 (d.rnd e.2.1) e.2.2)
    let word := (escd.zipIdx).foldl (fun w (pe, k) => w + pe.2.code <<< (8 * k) + pe.1 <<< (18 + 5 * k))
      (escd.length <<< 30)
    let one (p : Nat) (m : List Nat) (v : FVal) : Elem :=
      if es.contains p then ⟨0, false⟩
      else if ovr_.contains p then ⟨(match v with | .fin true _ _ | .inf true => 0xF | _ => 0x7), true⟩
      else convElem f (d.rnd m) v
    let out := sc.map fun (p, m, v) => (m, one p m v)
    { codes := out.map fun e => (e.1, e.2.code),
      scales := [(n, (x + 127).toNat)],
      escs := if f = .f4x then [(n, word)] else [],
      clips := (out.filter fun e => e.2.clip).length + (escd.filter fun e => e.2.clip).length,
      ovf := ovr_.length }

/-- A T2 element under its row scale (R45); the Boolean says that it was a NaN. -/
def convT2 (srow v : FVal) : Nat × Bool :=
  if v.isNaN then (0, true)
  else
    let h := srow.scale (-1)
    (if h.lt v then 1 else if v.lt h.neg then 3 else 0, false)

/-! ### A tile (R98, R113) -/

/-- A block in conversion. -/
structure ConvBlk where
  d : ConvDst
  n : Nat
  x : Int
  els : List ConvEl
  deriving DecidableEq, Repr

/-- The outcome of a conversion: one output per destination, the re-emit passes, and whether retries were exhausted. -/
structure ConvRes where
  outs : List BlockOut
  passes : Nat
  exh : Bool
  deriving DecidableEq, Repr

/-- Re-emit passes until every block fits or no retry is left: `left` passes remain (R65, R67, R98). -/
def reemit : Nat → Nat → List ConvBlk → List ConvBlk × Nat × Bool
  | left, passes, bs =>
    let bad := bs.filter fun b => b.d.t.bdim == 0 && !blockFits b.d.t.fm (b.els.map (·.v)) b.x
    if bad.isEmpty then (bs, passes, false)
    else match left with
      | 0 => (bs, passes, true)
      | left + 1 =>
        reemit left (passes + 1) (bs.map fun b =>
          if b.d.t.bdim == 0 && !blockFits b.d.t.fm (b.els.map (·.v)) b.x
          then { b with x := reemitExp b.d.t.fm (b.els.map (·.v)) } else b)

/-- The blocks of one destination's elements. -/
def blocksOf (d : ConvDst) (els : List ConvEl) : List ConvBlk :=
  let g : SMap (List ConvEl) := els.foldr (fun e g => let n := d.t.block e.m; SMap.put [] g n (e :: SMap.get [] g n)) []
  g.map fun (n, l) => ⟨d, n, if d.t.bdim = 0 then 0 else rowExp d.t.fm (l.map (·.v)), l⟩

/-- The elements of a destination without blocks (R68, and T2 under the row scales `rowScale`). -/
def convPlain (d : ConvDst) (rowScale : List Nat → FVal) (els : List ConvEl) : BlockOut :=
  let out := els.map fun e =>
    if d.t.fm = .t2 then let (c, k) := convT2 (rowScale e.m) e.v; (e.m, Elem.mk c k)
    else (e.m, convElem d.t.fm (d.rnd e.m) e.v)
  { codes := out.map fun e => (e.1, e.2.code), clips := (out.filter fun e => e.2.clip).length }

/-- v := y * 2^-T, an FP32 value (R61). -/
def tensorScaled (y : F32) (tx : Int) : FVal := F32.val ((F32.val y).scale (-tx)).f32

/-- Convert one tile's values `y` into every destination, with `left` retries; `exh`: the last attempt was a recompute
that overflowed, so every block is written at its first exponent (R67, R98). -/
def convTile (ds : List ConvDst) (rowScale : List Nat → FVal) (ys : List (List Nat × F32)) (left : Nat) (exh : Bool) :
    ConvRes :=
  let els (d : ConvDst) := ys.map fun (m, y) => ConvEl.mk m (tensorScaled y d.tx)
  let plain := ds.map fun d => if d.t.hasBlocks then ({} : BlockOut) else convPlain d rowScale (els d)
  let bs := ds.flatMap fun d => if d.t.hasBlocks then blocksOf d (els d) else []
  let (bs, passes, ex) := if exh then (bs, 0, true) else reemit left 0 bs
  ⟨(ds.zip plain).map fun (d, p) =>
      (bs.filter fun b => b.d == d).foldr (fun b o => (convBlock b.d b.n b.x b.els).add o) p, passes, ex⟩

/-- R61 with the recompute factor of R66: rne(rne(acc * 2^(8r) * s_ab) * s_row). -/
def outputY (acc : F32) (r : Nat) (sab : F32) (srow : FVal) : F32 :=
  let y := (((F32.val acc).scale (8 * r)).mul (F32.val sab)).f32
  ((F32.val y).mul srow).f32

/-! ### Drip and amax tables -/

/-- First local address of the drip table (R53). -/
def dripBase : Nat := sramBase + 0x03FC_0000

/-- First local address of the amax table (R69). -/
def amaxBase : Nat := sramBase + 0x03FE_0000

/-- The key of a drip slot, under the step of the running command stream, 0 outside a step loop (R53, R54). -/
def State.dripKey (s : State) (slot step : Nat) : DripKey :=
  ⟨BitVec.ofNat 64 (s.rdLE (dripBase + 16 * slot) 8), BitVec.ofNat 32 (s.rdLE (dripBase + 16 * slot + 8) 4), step % 2 ^ 32⟩

/-- T of an amax slot. -/
def State.amaxT (s : State) (slot : Nat) : Int := sext 16 (s.rdLE (amaxBase + 128 * slot + 0x44) 2)

/-- The exponent T of a destination (R209). -/
def State.dstT (s : State) (t : TD) : Int := if t.tsc then s.amaxT t.amax else 0

/-- The format a FMT byte names; a byte that is no format code counts as 0 (R71). -/
def amaxFmt (b : Nat) : Option Fmt := Fmt.ofCode b

/-- One converted tile raises RUN to its largest |y| and sets FMT (R70, R71). -/
def State.amaxNote (s : State) (t : TD) (ys : List F32) : State :=
  if t.tsc = false then s else
  let a := amaxBase + 128 * t.amax
  let top := ys.foldl (fun m y => if F32.isNaN y then m else if (F32.val m).lt (F32.val y).abs then F32.abs y else m) (0 : F32)
  let run : F32 := BitVec.ofNat 32 (s.rdLE (a + 0x40) 4)
  let s := if (F32.val run).lt (F32.val top) then s.wrLE (a + 0x40) 4 top.toNat else s
  match amaxFmt (s.rd (a + 0x47)).toNat with
  | none => s.wrLE (a + 0x47) 1 t.fm.code
  | some f => if t.fm.maxval.lt f.maxval then s.wrLE (a + 0x47) 1 t.fm.code else s

/-- The roll of one slot for step `n` (R71, R72). -/
def State.amaxRoll (s : State) (n slot : Nat) : State :=
  let a := amaxBase + 128 * slot
  let run : F32 := BitVec.ofNat 32 (s.rdLE (a + 0x40) 4)
  if (F32.val run).isZero then s else
  let hist := run :: (List.range 15).map fun i => BitVec.ofNat 32 (s.rdLE (a + 4 * i) 4)
  let s1 := (hist.zipIdx).foldl (fun s (v, i) => s.wrLE (a + 4 * i) 4 v.toNat) s
  let s1 := (s1.wrLE (a + 0x40) 4 0).wrLE (a + 0x48) 4 (n % 2 ^ 32)
  match amaxFmt (s.rd (a + 0x47)).toNat with
  | some f =>
    if (s.rd (a + 0x4C)).toNat % 2 = 1 then s1 else
    match needExp f.maxval ((mags (hist.map F32.val)).getD 0 .zero) with
    | none => s1
    | some t =>
      let t := max (-126) (min 127 (t + ((s.rd (a + 0x46)).toNat : Int)))
      s1.wrLE (a + 0x44) 2 ((t % (2 ^ 16 : Nat)).toNat)
  | none => s1

/-- Roll every slot whose RUN is not zero (R72). -/
def State.amaxRollAll (s : State) (n : Nat) : State := forUpto 1024 (fun i s => s.amaxRoll n i) s

/-! ### Writing a converted destination -/

/-- The writes of scale bytes, escape words and the tensor scale of a destination (R46, R61, R205). -/
def ConvDst.sideWrites (d : ConvDst) (o : BlockOut) : List ElemWrite :=
  (if d.t.hasBlocks then o.scales.map fun (n, b) => (8 * d.t.scaleAddr n, 8, b) else []) ++
  (if d.t.fm = .f4x then o.escs.map fun (n, w) => (8 * d.t.escAddr n, 32, w) else []) ++
  (if d.t.tsc then [(8 * d.t.sptr, 32, (FVal.one.scale d.tx).f32.toNat)] else [])

/-- All writes of a converted destination that is not a stream. -/
def ConvDst.writes (d : ConvDst) (o : BlockOut) : List ElemWrite := d.t.writes o.codes ++ d.sideWrites o

/-- Write and report 0x50 where an uncorrectable word is written in part (R198). -/
def State.wrCode (s : State) (ws : List ElemWrite) : State × Code :=
  (s.wrElems ws, if s.wrElemsBad ws then .ecc else .ok)

/-! ### Touched lists (R355, R356) -/

/-- Set the units of parameter rows in the touched list at a job virtual address, each by an atomic OR at the word's
home. A list that is not in this device's memory is unreachable for the setter (log entry 40). -/
def State.touch (s : State) (root : Word) (eng aptr : Nat) (rows : List Nat) : State × Code :=
  match s.translate root aptr eng true true with
  | .fault c _ => (s.noteXlat root aptr eng true true, c)
  | .remote _ _ => (s, .trans)
  | .local_ h =>
    if s.rdBad h 8 then (s.noteRead h 8, .ecc) else
    let hdr : Word := BitVec.ofNat 64 (s.rdLE h 8)
    let n := bits 31 0 hdr
    rows.foldl (fun (s, c) r =>
      let i := if bits 63 63 hdr = 1 then r / 128 else r
      if n ≤ i then (s, c) else
      match s.translate root (aptr + 0x40 + 8 * (i / 64)) eng true true with
      | .fault k _ => (s.noteXlat root (aptr + 0x40 + 8 * (i / 64)) eng true true, Code.max c k)
      | .remote _ _ => (s, Code.max c .trans)
      | .local_ a =>
        if s.rdBad a 8 then (s.noteRead a 8, Code.max c .ecc)
        else (s.wrLE a 8 (Nat.lor (s.rdLE a 8) (2 ^ (i % 64))), c)) (s, Code.ok)

end Sys2Proof.Machine
end

