-- ==== Sys2Proof/Machine/Dense.lean ====
section
/-! DEFINITION. The dense engine (spec/04_dense_engine.md, spec/05_backward_pass.md): geometry, operand roles and
refusals, stationary tiles, feeds, the products of R57 to R59, the accumulator file, and the life of a run from its
start through its stationary load, its tiles and their retries to its end. -/

namespace Sys2Proof.Machine
open Sys2Proof

/-! ### Core state -/

def State.core (s : State) (c : Nat) : Core := SMap.get {} s.cores c
def State.setCore (s : State) (c : Nat) (k : Core) : State := { s with cores := SMap.put {} s.cores c k }
def State.onCore (s : State) (c : Nat) (f : Core → Core) : State := s.setCore c (f (s.core c))
def Core.tile (k : Core) (a : Nat) : Option Tile := SMap.get none k.tiles a
/-- The started instructions of an array, oldest first. -/
def Core.runsOf (k : Core) (a : Nat) : List Dense := SMap.get [] k.runs a

/-- What an unlisted accumulator entry holds: +0 after the release (R200), a free value after a BAT (log entry 44). -/
def Core.accDefault (k : Core) (i : Nat) : F32 := if k.accGen = 0 then 0 else Config.freeEntry k.accGen i

/-- An accumulator entry by its linear index. -/
def Core.accGet (k : Core) (i : Nat) : F32 := SMap.get (k.accDefault i) k.acc i

/-- Whether no dense instruction runs. -/
def Core.idle (k : Core) : Bool := k.runs.isEmpty

/-- Change the started instructions of an array. -/
def State.onRuns (s : State) (c a : Nat) (f : List Dense → List Dense) : State :=
  s.onCore c fun k => { k with runs := SMap.put [] k.runs a (f (k.runsOf a)) }

/-- Store a started instruction again. -/
def State.putRun (s : State) (c a : Nat) (r : Dense) : State :=
  s.onRuns c a fun l => l.map fun x => if x.work = r.work then r else x

/-- The sequencer that issues to core `c`. -/
def coreSeq (c : Nat) : SeqId := SeqId.ofNum c

/-- End a core's work with a code; the bytes it shares with unordered accesses take free values once more (R129). -/
def State.endCoreWork (s : State) (c seq : Nat) (k : Code) : State :=
  let rs := ((s.seq (coreSeq c)).works.filter fun w => w.seq == seq).flatMap (·.race)
  (s.scribble rs).endWork (coreSeq c) seq k

/-- Count drops, clips, escapes and retries of a core's instruction in its counters and its program's counts (R279). -/
def State.noteEvents (s : State) (c clips ovf retries : Nat) : State :=
  (((s.bump (Reg.corClipCnt c) clips).bump (Reg.corEscapeOvfCnt c) ovf).bump (Reg.corRetryCnt c) retries).addCounts c
    fun k => { k with clips := k.clips + clips, escapes := k.escapes + ovf, retries := k.retries + retries }

/-- Count `n` events in a drop counter of R530. -/
def State.noteDrops (s : State) (c off n : Nat) : State :=
  (s.bump off n).addCounts c fun k => { k with drops := k.drops + n }

/-! ### Bank accesses of the dense ports (R186, R190, R194) -/

/-- The bank of a chamber offset: quad o[20:17], place o[8:7] (R186). -/
def bankOf (o : Nat) : Nat := o / 0x2_0000 % 16 * 4 + o / 128 % 4

/-- The class code of a bank under the core's partition (R190). -/
def State.bankClass (s : State) (c b : Nat) : Nat := (s.epReg c (Reg.spdBankPart0 c + 8 * (b / 16))).toNat >>> (3 * (b % 16)) % 8

/-- The 128-byte rows of byte runs that lie in banks of another class than `cls`. -/
def State.secondaryRows (s : State) (c cls : Nat) (rs : List (Nat × Nat)) : Nat :=
  (rs.map fun r => ((List.range ((r.1 % 128 + r.2 + 127) / 128)).filter fun i =>
    s.bankClass c (bankOf (r.1 / 128 * 128 + 128 * i - chamberBase c)) != cls).length).sum

/-- Count the accesses that a dense port makes to the elements at `rs` through secondary paths: code 1 for a stationary
load, 2 for the F port, 3 for the A port (R190, R194; log entry 105). -/
def State.noteDensePort (s : State) (c cls : Nat) (rs : List (Nat × Nat)) : State :=
  s.bump (Reg.spdDenseSecCnt c) (s.secondaryRows c cls rs)

/-! ### Geometry (R76, R84, R103) -/

def modeRows (m : Nat) : Nat := match m with | 0 => 128 | 1 => 64 | 2 => 256 | _ => 64
def modeAccCols (m : Nat) : Nat := match m with | 0 => 128 | 1 => 256 | 2 => 64 | _ => 64
def modeAccRows (m : Nat) : Nat := match m with | 0 => 512 | 1 => 256 | 2 => 1024 | _ => 256

/-- The effective width of an array. -/
def State.modeWidth (s : State) (c m sa : Nat) : Nat :=
  let w := s.saWidth c
  match m with
  | 0 => min (w 0) (w 2) + min (w 1) (w 3)
  | 1 => w 0 + w 1 + w 2 + w 3
  | 2 => min (min (w 0) (w 1)) (min (w 2) (w 3))
  | _ => w sa

/-- The linear index of an accumulator entry (R78). -/
def accIndex (m sa row col : Nat) : Nat := if m = 3 then sa * 16384 + row * 64 + col else row * modeAccCols m + col

/-! ### Formats (R83) -/

def isFeed4 : Fmt → Bool
  | .f4 | .f4x | .g4 => true
  | _ => false

/-- Twice the K indices per row stage of a permitted operand pair (R83), none for any other pair. -/
def pairK (stat : Fmt) (nm : Bool) (feed : Fmt) : Option Nat :=
  if nm then
    (match stat with
     | .f4 => if isFeed4 feed then some 8 else none
     | .e4m3 | .e5m2 => if feed.is8f then some 4 else none
     | .bf16 | .fp16 => if feed = stat then some 2 else none
     | _ => none)
  else
    match stat with
    | .f4 | .g4 => if isFeed4 feed then some 4 else if feed.is8f then some 2 else none
    | .i4 => if feed = .i4 then some 4 else none
    | .t2 => if isFeed4 feed then some 8 else none
    | .e4m3 | .e5m2 => if feed.is8f || isFeed4 feed then some 2 else none
    | .bf16 | .fp16 => if feed = stat then some 1 else none
    | _ => none

/-- Twice the largest K indices per row stage of a stationary format: an LDS names no feed. -/
def loadK (stat : Fmt) (nm : Bool) : Option Nat :=
  match stat with
  | .f4 | .g4 | .t2 => pairK stat nm .f4
  | f => pairK f nm f

/-- The array a plan runs on: its sub-array in G11, otherwise the gang. -/
def Plan.array (p : Plan) : Nat := if p.mode = 3 then p.sa else 0

/-- Reduction size and output columns of the stationary descriptor (R297). -/
def Plan.statK (p : Plan) : Nat := if p.trn then p.stat.size 1 else p.stat.size 0
def Plan.statN (p : Plan) : Nat := if p.trn then p.stat.size 0 else p.stat.size 1

/-- Feed rows and reduction size of the feed (R529). -/
def Plan.m (p : Plan) : Nat :=
  match p.idx with
  | some i => i.size 0
  | none => if p.feed.isStream && p.feed.cols then p.feed.size 1 else p.feed.size 0
def Plan.k (p : Plan) : Nat :=
  if p.idx.isNone && p.feed.isStream && p.feed.cols then p.feed.size 0 else p.feed.size 1

/-- The dimension of the feed along which the product reduces (R111). -/
def Plan.feedDim (p : Plan) : Nat := if p.feed.isStream && p.feed.cols then 0 else 1

/-- A dense operand in the core's chamber: field checks, two dimensions, port alignment (R80, R192, R214, R529). -/
def denseOperand (c : Nat) (t : TD) : Bool :=
  t.ok && t.flat && t.has 1 && t.inChamber c && t.aligned (if t.isStream then 512 else 1024)

/-- The checks of a stationary descriptor (R86, R111, R115, R297). -/
def Plan.statOk (p : Plan) (c : Nat) : Bool :=
  let t := p.stat
  denseOperand c t &&
  (match t.lay with | .si | .rm | .cm => true | .nm => !p.trn | _ => false) &&
  (!p.trn || (match t.fm with | .f4 | .g4 | .e4m3 | .e5m2 | .bf16 | .fp16 => true | _ => false)) &&
  (if t.fm = .t2 then !p.trn && t.bdim == 1 else !t.hasBlocks || t.bdim == (if p.trn then 1 else 0))

/-- Whether output columns fit the array: a 16-bit product takes a 2 × 2 cell group (R298). -/
def ncFits (f : Fmt) (width nc : Nat) : Bool := decide (nc ≤ if f.is16f then width / 2 else width)

/-- The checks of the feed (R82, R111, R130, R137, R166, R168, R298). A gathered source may lie in the chamber of a
disabled core: R136 stops GTH there, no rule stops a feed, and the model reads what the chamber holds (log entry 107). -/
def Plan.feedOk (p : Plan) (c : Nat) : Bool :=
  let t := p.feed
  (if p.gather then
    !p.skip && t.ok && t.flat && t.has 1 && t.lay == .rm && t.inSomeChamber && t.aligned 512 &&
    (match p.idx with
     | some i => i.okList && i.fm == .s32 && !i.isStream && i.inChamber c && i.aligned 512
     | none => false)
   else
    denseOperand c t &&
    (if t.isStream then t.lay != .nm && decide (min t.trows (t.size 0) * min t.tcols (t.size 1) * t.bits ≤ 8 * 65536)
     else t.lay == .fi && !p.skip)) &&
  (!t.hasBlocks || t.bdim == p.feedDim)

/-- A destination's checks (R62, R297, R298, R528). -/
def dstOk (c : Nat) (t : TD) (m nc : Nat) : Bool :=
  denseOperand c t && t.size 0 == m && t.size 1 == nc && t.fm != .t2 &&
  (match t.lay with | .rm | .fi | .si | .bt | .cl => true | _ => false) &&
  (t.bdim == 0 || t.bdim == 1 || t.bdim == 7)

/-- The formats of a WGR destination (R124). -/
def wgrFmt (f : Fmt) (outp : Nat) : Bool :=
  match f with
  | .g4 | .e5m2 | .bf16 => true
  | .fp32 => outp == 2
  | _ => false

/-- The checks of the mask and the row origin (R118, R296). -/
def Plan.maskOk (p : Plan) (c : Nat) : Bool :=
  (match p.maskAt with
   | some a => a % 4 == 0 && decide (chamberBase c ≤ a) && decide (a < chamberBase c + 0x20_0000)
   | none => true) &&
  (!(p.mask == 2) || (p.n0.getD 1) % 128 == 0)

/-- The secondary destination in full: it has the primary's format code and amax slot (R112). -/
def Plan.secondary (p : Plan) : Option TD := p.sec.map fun d => { d with fmt := p.dst.fmt, amax := p.dst.amax }

/-- The checks of a dense instruction that do not look at the stationary tile, for `nc` output columns (R89, R90, R112,
R118, R124, R298). -/
def Plan.useOk (p : Plan) (s : State) (c nc : Nat) : Bool :=
  p.feedOk c && decide (nc ≤ s.modeWidth c p.mode p.sa) && dstOk c p.dst p.m nc &&
  (if p.fixed then decide (64 * p.abase + p.m ≤ modeAccRows p.mode)
   else p.abase == 0 && p.inp != 1 && p.outp != 1) &&
  (!(p.outp == 2) || (p.dst.fm == .fp32 && p.dst.lay == .rm)) &&
  (!p.wgr || wgrFmt p.dst.fm p.outp) &&
  (match p.ain with
   | some a => denseOperand c a && a.fm == .fp32 && a.lay == .rm && a.size 0 == p.m && a.size 1 == nc
   | none => true) &&
  (match p.secondary with
   | some d => p.outp == 0 && dstOk c d p.m nc &&
      ((p.dst.bdim == 0 && d.bdim == 1) || (p.dst.bdim == 1 && d.bdim == 0))
   | none => true) &&
  p.maskOk c

/-- The checks of a dense instruction (R83, R87, R90, R112, R118, R298), given the tile that it finds loaded: that of its
own stationary descriptor is checked in its place. -/
def Plan.ok (p : Plan) (s : State) (c : Nat) (loaded : Option Tile) : Bool :=
  let width := s.modeWidth c p.mode p.sa
  if p.lds then
    p.statOk c &&
    (match loadK p.stat.fm (p.stat.lay == .nm) with
     | some k2 => decide (2 * p.statK ≤ modeRows p.mode * k2)
     | none => false) &&
    ncFits p.stat.fm width p.statN
  else
    let st : Option (Fmt × Bool × Nat × Nat) :=
      if p.hs then (if p.statOk c then some (p.stat.fm, p.stat.lay == .nm, p.statK, p.statN) else none)
      else match loaded with
        | some t => if t.trn = p.trn then (Fmt.ofCode t.fmt).map fun f => (f, t.nm, t.kr, t.cols.length) else none
        | none => none
    match st with
    | none => false
    | some (f, nm, kr, nc) =>
      p.k == kr && ncFits f width nc &&
      (match pairK f nm p.feed.fm with
       | some k2 => decide (2 * kr ≤ modeRows p.mode * k2)
       | none => false) &&
      p.useOk s c nc

/-! ### Stationary tiles -/

/-- Insert an entry of a 2:4 column in ascending reduction index, after equal ones (R59, log entry 42). -/
def insEntry (e : Nat × Nat) : List (Nat × Nat) → List (Nat × Nat)
  | [] => [e]
  | x :: l => if e.1 < x.1 then e :: x :: l else x :: insEntry e l

/-- The entries of column `n` of a 2:4 stationary stream of `kr` indices; an activation beyond `kr` reads as zero, and
in a 1:4 tile neither w1 nor p1 has an effect, whatever is stored (R152, R158, R174). -/
def nmColumn (t : TD) (tiles : List (List NmGroup × Bool × Bool)) (n kr : Nat) : List (Nat × Nat) :=
  let tc := n / t.tcols
  ((List.range t.gridRows).flatMap fun tr =>
    let tn := tr * t.gridCols + tc
    let cols := t.tileCols tn
    let (gs, _, one) := tiles.getD tn ([], true, false)
    (List.range ((t.tileRows tn + 3) / 4)).flatMap fun g =>
      let x := gs.getD (g * cols + n % t.tcols) ⟨0, 0, 0, 0⟩
      let k := tr * t.trows + 4 * g
      (if one then [(k + x.p0, x.w0)] else [(k + x.p0, x.w0), (k + x.p1, x.w1)]).filter fun e => decide (e.1 < kr)).foldl (fun l e => insEntry e l) []

/-- Read a stationary operand, with the number of its tiles that failed the header check. -/
def State.loadTile (s : State) (t : TD) (trn : Bool) : Tile × Nat :=
  let kr := if trn then t.size 1 else t.size 0
  let nc := if trn then t.size 0 else t.size 1
  let at_ (k n : Nat) : List Nat := if trn then [n, k] else [k, n]
  let nm := t.lay == .nm
  let tiles := if nm then (List.range t.tiles).map (s.readNm t) else []
  let tile : Tile :=
    { trn := trn, fmt := t.fm.code, nm := nm, kr := kr
      cols := (List.range nc).map fun n =>
        if nm then nmColumn t tiles n kr else (List.range kr).map fun k => (k, s.code t (at_ k n))
      scales := if t.hasBlocks then (List.range nc).map fun n =>
          (List.range ((kr + 31) / 32)).map fun b => s.scaleByte t (at_ (32 * b) n) else []
      rowScales := if t.fm = .t2 then (List.range nc).map fun n => (s.rd (t.scaleAddr n)).toNat else []
      tscale := s.tscale t }
  (tile, (tiles.filter (·.2.1)).length)

def Tile.fm (t : Tile) : Fmt := (Fmt.ofCode t.fmt).getD .f4

/-! ### Feeds -/

/-- The position of an element of a stream: its tile, and its place in the tile. -/
def streamPos (t : TD) (r c : Nat) : Nat × Nat :=
  let n := r / t.trows * t.gridCols + c / t.tcols
  (n, (r % t.trows) * t.tileCols n + c % t.tcols)

/-- resolve of R131. -/
def resolve (i : Int) (d : Nat) (neg : Bool) : Option Nat :=
  let i := if i < 0 ∧ neg then i + d else i
  if 0 ≤ i ∧ i < d then some i.toNat else none

/-- The reads that windows of 64 positions make: distinct rows read, and positions served by a read already made
(R135). -/
def gatherReads (rows : List (Option Nat)) : Nat × Nat :=
  (forUpto ((rows.length + 63) / 64) (fun w (acc : Nat × Nat) =>
    let win := (rows.drop (64 * w)).take 64
    let ins := win.filterMap id
    let dist := ins.eraseDups.length
    (acc.1 + dist, acc.2 + (ins.length - dist))) (0, 0))

/-- One feed row as the array sees it: element values by reduction index, scale bytes by block. -/
structure FeedRow where
  vals : List FVal
  scales : List Nat
  /-- an escape word names an element in the reduction range (R168) -/
  esc : Bool := false
  deriving DecidableEq, Repr

/-- The blocks of a reduction of `k` indices. -/
def nBlocks (k : Nat) : Nat := (k + 31) / 32

/-- Feed row `m`: from FI, from expanded stream tiles, or from the row that an index names (R133, R137, R166). -/
def Plan.feedRow (p : Plan) (s : State) (tiles : List TileRead) (rows : List (Option Nat)) (m : Nat) : FeedRow :=
  let t := p.feed
  let k := p.k
  if p.gather then
    match rows.getD m none with
    | some r => ⟨(List.range k).map fun j => s.elem t [r, j],
        (List.range (nBlocks k)).map fun b => s.scaleByte t [r, 32 * b], false⟩
    | none => ⟨(List.range k).map fun _ => t.fm.decode (t.fillCode t.fill), (List.range (nBlocks k)).map fun _ => 0x7F, false⟩
  else
    let at_ (j : Nat) : List Nat := if p.feedDim = 0 then [j, m] else [m, j]
    let el (j : Nat) : FVal :=
      if t.isStream then
        let x := streamPos t ((at_ j).getD 0 0) ((at_ j).getD 1 0)
        elemVal t.fm (((tiles.getD x.1 ⟨[], true, 0⟩).codes).getD x.2 0) (s.escWord t (at_ j)) (t.blockPos (at_ j))
      else s.elem t (at_ j)
    ⟨(List.range k).map el, (List.range (nBlocks k)).map fun b => s.scaleByte t (at_ (32 * b)),
     (List.range k).any fun j => !(escAdd (s.escWord t (at_ j)) (t.blockPos (at_ j))).isEmpty⟩

/-- The expanded tiles of a stream feed. -/
def Plan.feedTiles (p : Plan) (s : State) : List TileRead :=
  if p.feed.isStream && !p.gather then (List.range p.feed.tiles).map (s.readTile p.feed) else []

/-- The resolved rows of a gathered feed. -/
def Plan.feedRows (p : Plan) (s : State) : List (Option Nat) :=
  match p.idx with
  | some i => (List.range (i.size 0)).map fun m => resolve (s.entry i m) (p.feed.size 0) p.feed.neg
  | none => []

/-- Whether a feed row is empty under SKIP (R168). -/
def FeedRow.isEmpty (r : FeedRow) : Bool := r.vals.all FVal.isZero && !r.esc && r.scales.all (· != 0xFF)

/-! ### Products (R57 to R59, R66) -/

/-- An exact zero enters an addition as +0 (log entry 17). -/
def pos0 (v : FVal) : FVal := if v.isZero then .zero else v

/-- One rounded addition; the Boolean says that finite operands gave an infinity. An infinity that an earlier KEEP left
in the file is an infinite input of the instruction that reads it with FILE (R90, R99; log entry 68). -/
def accStep (a : F32 × Bool) (p : FVal) : F32 × Bool :=
  let v := F32.val a.1
  let r := (v.add (pos0 p)).f32
  (r, a.2 || (v.isFin && p.isFin && F32.isInf r))

/-- One output element: block partials for the block formats, single products for the 16-bit ones (R58, R59); `r` is the
recompute number (R66). -/
def dotElem (t : Tile) (row : FeedRow) (j : Nat) (acc : F32) (r : Nat) : F32 × Bool :=
  let es := t.cols.getD j []
  let f := t.fm
  let prod (e : Nat × Nat) : FVal := pos0 ((row.vals.getD e.1 .zero).mul (f.decode e.2))
  if f.is16f then
    es.foldl (fun a e => accStep a ((prod e).scale (-(8 * (r : Int))))) (acc, false)
  else
    forUpto (nBlocks t.kr) (fun b a =>
      let xa := row.scales.getD b 0x7F
      let xw := (t.scales.getD j []).getD b 0x7F
      if xa = 0xFF ∨ xw = 0xFF then (F32.nan, a.2) else
      let p := (es.filter fun e => e.1 / 32 == b).foldl (fun q e => pos0 (q.add (prod e))) FVal.zero
      accStep a (p.scale ((xa : Int) + xw - 254 - 8 * r))) (acc, false)

/-! ### Accumulator tiles (R89, R97) -/

/-- Rows of an accumulator tile under STREAM: half of the file. -/
def halfRows (m : Nat) : Nat := modeAccRows m / 2

/-- The number of accumulator tiles of an instruction. -/
def Plan.accTiles (p : Plan) : Nat := if p.fixed then 1 else (p.m + halfRows p.mode - 1) / halfRows p.mode

/-- The feed rows of accumulator tile `i`. -/
def Plan.tileFeed (p : Plan) (i : Nat) : List Nat :=
  if p.fixed then List.range p.m
  else (List.range (min (halfRows p.mode) (p.m - i * halfRows p.mode))).map (· + i * halfRows p.mode)

/-- The accumulator row of a feed row: base + m under FIXED; under STREAM tile `i` uses half `i mod 2` (log entry 21). -/
def Plan.accRow (p : Plan) (m : Nat) : Nat :=
  if p.fixed then 64 * p.abase + m
  else (m / halfRows p.mode % 2) * halfRows p.mode + m % halfRows p.mode

def Plan.accAt (p : Plan) (m j : Nat) : Nat := accIndex p.mode p.sa (p.accRow m) j

/-- The value with which an output element starts (R89), from the accumulate port with its tensor scale (R209); such a value from the accumulate port is lowered by one rounded
multiplication in a recompute (R66). -/
def Plan.start (p : Plan) (s : State) (c m j r : Nat) : F32 :=
  match p.inp with
  | 1 => (s.core c).accGet (p.accAt m j)
  | 2 =>
    let v : F32 := match p.ain with | some a => (s.value a [m, j]).f32 | none => 0
    if r = 0 then v else ((F32.val v).scale (-(8 * (r : Int)))).f32
  | _ => 0

/-- The half or region of the file that accumulator tile `i` holds until its conversion, as rows from `lo` (R97). -/
def Plan.region (p : Plan) (i : Nat) : Nat × Nat :=
  if p.fixed then (64 * p.abase, p.m) else (i % 2 * halfRows p.mode, halfRows p.mode)

/-- Compute one accumulator tile from operands read in `v`; the Boolean says that finite operands reached an infinity. -/
def Plan.compute (p : Plan) (s v : State) (c : Nat) (t : Tile) (masked : List Nat) (i r : Nat) : State × Bool :=
  let tiles := p.feedTiles v
  let rows := p.feedRows v
  let (acc, ovr_) := (p.tileFeed i).foldl (fun (x : SMap F32 × Bool) m =>
    let row := p.feedRow v tiles rows m
    (List.range t.cols.length).foldl (fun (x : SMap F32 × Bool) j =>
      if masked.contains j then x else
      let w := dotElem t row j (if p.inp = 1 then p.start s c m j r else p.start v c m j r) r
      (SMap.put ((s.core c).accDefault (p.accAt m j)) x.1 (p.accAt m j) w.1, x.2 || (w.2 && F32.isInf w.1))) x) ((s.core c).acc, false)
  (s.onCore c fun k => { k with acc := acc }, ovr_)

/-- Free values for accumulator entries, one fresh draw; the Boolean says that one of them is an infinity. -/
def State.freeEntries (s : State) (c : Nat) (es : List Nat) : State × Bool :=
  match es with
  | [] => (s, false)
  | _ =>
    let v (i : Nat) : F32 := Config.freeEntry s.freeCtr i
    (({ s with freeCtr := s.freeCtr + 1 } : State).onCore c fun k =>
      { k with acc := es.foldl (fun m i => SMap.put (k.accDefault i) m i (v i)) k.acc }, es.any fun i => F32.isInf (v i))

/-- R121: an instruction that reads the file continues the chain of each row, whose entries in columns masked in some but
not in all of its instructions become free values; with KEEP the row stays in a chain, otherwise the chain ends there. -/
def Plan.chain (p : Plan) (s : State) (c nc : Nat) (masked : List Nat) : State :=
  if !p.fixed then s else
  let rows := (List.range p.m).map fun m => p.accRow m
  let key (r : Nat) : Nat := 1024 * p.array + r
  let now (r : Nat) : List Nat × List Nat :=
    match (if p.inp = 1 then SMap.get none (s.core c).chains (key r) else none) with
    | some (some_, all_) => (some_ ++ masked.filter fun j => !some_.contains j, all_.filter masked.contains)
    | none => (masked, masked)
  let bad := rows.flatMap fun r => let x := now r
    ((List.range nc).filter fun j => x.1.contains j && !x.2.contains j).map fun j => accIndex p.mode p.sa r j
  let s1 := (s.freeEntries c bad).1
  s1.onCore c fun k => { k with chains := rows.foldl (fun m r =>
    SMap.put none m (key r) (if p.outp = 1 then some (now r) else none)) k.chains }

/-! ### The run -/

/-- The code of counted events. -/
def countCode (b : Bool) : Code := if b then .counts else .ok

/-- What a stream or a gather counts once per instruction: bad tiles, dropped positions, skipped rows, reads, the beats
of the rows that enter, and `waited` beats for gathered or expanded rows or escapes (R137, R153, R155, R167, R168); the
operands are read in `v`. -/
def Plan.noteFeed (p : Plan) (s v : State) (c waited : Nat) : State × Code :=
  let tiles := p.feedTiles v
  let rows := p.feedRows v
  let bad := (tiles.filter (·.bad)).length
  let drops := (tiles.map (·.drops)).foldl (· + ·) 0 + (rows.filter Option.isNone).length
  let empty := if p.skip then ((List.range p.m).filter fun m => (p.feedRow v tiles rows m).isEmpty).length else 0
  let (reads, coal) := gatherReads rows
  let ops := p.feed :: ([p.ain, p.idx].filterMap id)
  let ecc := ops.any fun t => s.badOperand t
  let s1 := ops.foldl State.noteOperand s
  let s1 := (s1.noteDrops c (Reg.corTileBadCnt c) bad).noteDrops c (Reg.corDropIdxCnt c) drops
  let s1 := ((s1.bump (Reg.corSkipRowCnt c) empty).bump (Reg.corGatherReadCnt c) reads).bump (Reg.corGatherCoalCnt c) coal
  let s1 := if p.gather || p.feed.isStream || p.feed.fm == .f4x then s1.bump (Reg.corFeedWaitCnt c) waited else s1
  let s1 := if p.gather || p.feed.isStream then s1 else s1.noteDensePort c 2 (p.feed.runs fun _ => true)
  let s1 := s1.noteDensePort c 3 (p.ain.toList.flatMap fun a => a.runs fun _ => true)
  (s1.bump (Reg.corStreamBeatCnt c) (p.m - empty),
   (countCode (bad + drops != 0)).max (if ecc then .ecc else .ok))

/-- The destinations of a conversion: the secondary takes the primary's exponent T, whatever its own TSC bit says, and
writes it to its tensor-scale word where its own TSC bit is 1 (R112, R209; log entry 109). -/
def Plan.dsts (p : Plan) (s : State) (c : Nat) : List ConvDst :=
  let step := (s.seq (coreSeq c)).stepNow.toNat
  let t := s.dstT p.dst
  let mk (d : TD) : ConvDst := ⟨d, if p.sr then some (s.dripKey d.drip step) else none, t⟩
  mk p.dst :: (p.secondary.map mk).toList

/-- A tile written to a stream, counted by its kind (R183). -/
def State.noteTile (s : State) (c : Nat) (w : TileWrite) : State :=
  if w.raw then s.bump (Reg.corCmpRawCnt c) 1
  else (s.bump (Reg.corCmpTileCnt c) 1).bump (Reg.corCmpSavedCnt c) w.saved

/-- Whether any escape word of the blocks of a stream tile has CNT other than 0 (R159). -/
def State.tileEsc (s : State) (t : TD) (o : List Nat) (r0 c0 rows cols : Nat) : Bool :=
  t.fm == .f4x && (List.range rows).any fun i => (List.range cols).any fun j =>
    s.rdLE (t.escAddr (t.block ((r0 + i) :: (c0 + j) :: o))) 4 >>> 30 != 0

/-- Compress one plane of a stream from a function of row and column, with the retries and EXH of each row; tiles of
masked columns alone are not written (R119, R161). -/
def State.writeTiles (s : State) (c : Nat) (t : TD) (o : List Nat) (code : Nat → Nat → Nat)
    (how : List (Nat × Nat × Bool)) (masked : List Nat) : State × Code :=
  let b := t.at_ o
  forUpto t.tiles (fun n (x : State × Code) =>
    let (s, k) := x
    let r0 := n / t.gridCols * t.trows
    let c0 := n % t.gridCols * t.tcols
    let rows := t.tileRows n
    let cols := t.tileCols n
    if (List.range cols).all fun j => masked.contains (c0 + j) then (s, k) else
    let codes := (List.range (rows * cols)).map fun i => code (r0 + i / cols) (c0 + i % cols)
    let hw := how.filter fun h => decide (r0 ≤ h.1) && decide (h.1 < r0 + rows)
    let w := packTile (t.lay == .bt) t.fm rows cols codes (hw.foldl (fun a h => max a h.2.1) 0) (hw.any (·.2.2))
      (s.tileEsc t o r0 c0 rows cols)
    let a := b.tileAddr n
    (((s.wr a w.bytes).noteTile c w), if s.wrBad a w.bytes.length then Code.max k .ecc else k)) (s, Code.ok)

/-- Compress the held codes of a stream destination: masked columns as zeros (R119, R161). -/
def State.writeStream (s : State) (c : Nat) (t : TD) (els : List (List Nat × Nat)) (how : List (Nat × Nat × Bool))
    (masked : List Nat) : State × Code :=
  let m : SMap Nat := els.foldl (fun m e => SMap.put 0 m (e.1.getD 0 0 * t.size 1 + e.1.getD 1 0) e.2) []
  s.writeTiles c t [] (fun r j => SMap.get 0 m (r * t.size 1 + j)) how masked

/-- Finish a run: compressed destinations, the overlap of a secondary destination (R114), the touched list (R123), and
the code. -/
def Plan.finish (p : Plan) (s : State) (c : Nat) (run : Dense) (nc : Nat) : State :=
  let streams := ((p.dst :: p.secondary.toList).zip run.held).filter fun d => d.1.isStream
  let (s, k) := if p.outp = 0 then streams.foldl (fun (x : State × Code) d =>
      let y := x.1.writeStream c d.1 d.2 run.how run.masked; (y.1, x.2.max y.2)) (s, run.code) else (s, run.code)
  let s := s.scribble p.secOverlap
  let (s, k) := if p.wgr ∧ p.dst.aptr ≠ 0 then
      let rows := ((List.range nc).filter fun j => !run.masked.contains j).map (· + p.n0.getD 0)
      let y := s.touch (s.epReg c Reg.sipPtRoot) 0 p.dst.aptr rows; (y.1, k.max y.2) else (s, k)
  (s.onRuns c p.array fun l => l.filter fun x => x.work != run.work).endCoreWork c run.work k

/-- The FP32 entries of accumulator tile `i` in row order, masked columns left out. -/
def Plan.entries (p : Plan) (s : State) (c i nc : Nat) (masked : List Nat) : List (List Nat × F32) :=
  (p.tileFeed i).flatMap fun m =>
    ((List.range nc).filter fun j => !masked.contains j).map fun j => ([m, j], (s.core c).accGet (p.accAt m j))

/-- The byte runs of the operands that accumulator tile `i` streams: its feed rows with their scales and escapes, the
index list, and its rows of the inbound A operand. -/
def Plan.tileIns (p : Plan) (s : State) (i : Nat) : List (Nat × Nat) :=
  let ms := p.tileFeed i
  let rows := p.feedRows s
  let src := ms.filterMap fun m => rows.getD m none
  (if p.gather then p.feed.runs src.contains ++ p.idx.toList.flatMap TD.bytes
   else p.feed.runs ms.contains) ++ p.feed.sideRuns ++ p.ain.toList.flatMap fun a => a.runs ms.contains

/-- The bytes at byte runs. -/
def State.atRuns (s : State) (rs : List (Nat × Nat)) : List Byte := rs.flatMap fun r => s.rdBytes r.1 r.2

/-- Whether a tile's half or region is clear of the tiles in `ts` (R91). -/
def Plan.entriesFree (p : Plan) (i : Nat) (ts : List HeldTile) : Bool :=
  let (lo, n) := p.region i
  ts.all fun t => decide (t.lo + t.rows ≤ lo) || decide (lo + n ≤ t.lo)

/-- Stream the next accumulator tile of a run, whose entries are free: with output CONVERT it then waits for the
converter, with PORT its entries leave, with KEEP they stay (R89, R90). -/
def Plan.tileStep (p : Plan) (s : State) (c : Nat) (w : Work) (run : Dense) (t : Tile) : State × Dense :=
  let i := run.computed
  let nc := t.cols.length
  let (s, v) := s.viewOf c w
  let s := p.chain s c nc run.masked
  let (s, ovr_) := p.compute s v c t run.masked i 0
  let run := { run with computed := i + 1 }
  if p.outp = 0 then
    let (lo, n) := p.region i
    (s, { run with tiles := run.tiles ++ [⟨lo, n, ovr_, s.atRuns (p.tileIns s i)⟩] })
  else if p.outp = 2 then
    let ws := (p.entries s c i nc run.masked).map fun e => p.dst.put e.1 e.2.toNat
    let (s, k) := s.wrCode ws
    (s.noteDensePort c 3 (p.dst.runs (p.tileFeed i).contains), { run with code := run.code.max k })
  else (s, run)

/-- Let one started instruction of an array stream as far as free entries allow; it streams once every older one on the
array has streamed its last row, and with output KEEP or PORT it ends with its last tile (R85, R90, R91). -/
def State.streamRun (s : State) (c a seq : Nat) : State :=
  let l := (s.core c).runsOf a
  let plan (r : Dense) : Option (Work × Plan) :=
    ((s.seq (coreSeq c)).works.find? fun w => w.seq == r.work).bind fun w => (planOf w).map fun p => (w, p)
  let older := l.takeWhile fun r => r.work != seq
  match l.find? fun r => r.work == seq with
  | none => s
  | some r =>
    match plan r, r.stat with
    | some (w, p), some t =>
      let done (x : Dense) : Bool := !x.load && (match plan x with | some y => decide (y.2.accTiles ≤ x.computed) | none => true)
      if r.load || !older.all done then s else
      let (s, r) := forUpto (p.accTiles - r.computed) (fun _ (x : State × Dense) =>
        if p.entriesFree x.2.computed (older.flatMap (·.tiles) ++ x.2.tiles) then p.tileStep x.1 c w x.2 t else x) (s, r)
      if p.outp ≠ 0 ∧ p.accTiles ≤ r.computed then p.finish s c r t.cols.length else s.putRun c a r
    | _, _ => s

/-- Let the started instructions of an array stream, oldest first. -/
def State.streamAll (s : State) (c a : Nat) : State :=
  ((s.core c).runsOf a).foldl (fun s r => s.streamRun c a r.work) s

/-- Bring a tile back into the cells of an array, where they hold another one (R100). -/
def Plan.reload (p : Plan) (s : State) (c : Nat) (t : Tile) : State :=
  if SMap.get none (s.core c).cells p.array = some t.src then s else
  ((s.bump (Reg.corLoadBeatCnt c) (modeRows p.mode)).noteDensePort c 1 t.from_).onCore c fun k =>
    { k with cells := SMap.put none k.cells p.array (some t.src) }

/-- Begin streaming against a tile: the feed is counted, and the tiles whose entries are free are computed. -/
def Plan.stream (p : Plan) (s : State) (c waited : Nat) (w : Work) (t : Tile) (run : Dense) : State :=
  let (s, v) := s.viewOf c w
  let (s, k) := p.noteFeed s v c waited
  let s := p.reload s c t
  (s.putRun c p.array { run with load := false, stat := some t, code := run.code.max k }).streamAll c p.array

/-- The stationary load (R84 to R87): LDS ends with it, any other instruction begins to stream. -/
def Plan.load (p : Plan) (s : State) (c waited : Nat) (w : Work) (run : Dense) : State :=
  let (s, v) := s.viewOf c w
  let (t, bad) := v.loadTile p.stat p.trn
  let t := { t with src := run.work, from_ := p.stat.bytes, held := s.atRuns p.stat.bytes }
  let ecc := s.badOperand p.stat
  let s := ((s.noteOperand p.stat).noteDrops c (Reg.corTileBadCnt c) bad).bump (Reg.corLoadBeatCnt c) (modeRows p.mode)
  let s := (s.noteDensePort c 1 (p.stat.runs fun _ => true)).onCore c fun k =>
    { k with tiles := SMap.put none k.tiles p.array (some t), cells := SMap.put none k.cells p.array (some t.src) }
  let run := { run with code := run.code.max ((countCode (bad != 0)).max (if ecc then .ecc else .ok)) }
  if p.lds then (s.onRuns c p.array fun l => l.filter fun x => x.work != run.work).endCoreWork c run.work run.code
  else p.stream s c waited w t run

/-- The final conversion of a run's oldest held tile, whose entries are then free, and the end of the run with its last
tile (R97, R98, R101). -/
def Plan.convertNow (p : Plan) (s : State) (c : Nat) (t : Tile) (run : Dense) (exh : Bool) : State :=
  let nc := t.cols.length
  let sab := F32.mul (s.tscale p.feed) t.tscale
  let srow (j : Nat) : FVal := match t.rowScales[j]? with | some b => Fmt.e4m3.decode b | none => .one
  let ys := (p.entries s c run.tile nc run.masked).map fun e => (e.1, outputY e.2 run.recs sab (srow (e.1.getD 1 0)))
  let ds := p.dsts s c
  let res := convTile ds (fun _ => .one) ys (run.maxRetry - run.tries) exh
  let clips := (res.outs.map (·.clips)).foldl (· + ·) 0
  let ovf := (res.outs.map (·.ovf)).foldl (· + ·) 0
  let s := (s.noteEvents c clips ovf res.passes).amaxNote p.dst (ys.map (·.2))
  let ws := (ds.zip res.outs).flatMap fun d => if d.1.t.isStream then d.1.sideWrites d.2 else d.1.writes d.2
  let (s, wk) := s.wrCode ws
  let s := s.noteDensePort c 3 (ds.flatMap fun d => if d.t.isStream then [] else d.t.runs (p.tileFeed run.tile).contains)
  let tries := run.tries + res.passes
  let k := if res.exh then Code.retry else countCode (clips + ovf + tries != 0)
  let run := { run with
    code := (run.code.max k).max wk
    held := (List.range ds.length).map fun i =>
      if ((ds.map (·.t.isStream)).getD i false) then (run.held.getD i []) ++ (res.outs.getD i {}).codes else []
    how := run.how ++ (p.tileFeed run.tile).map fun m => (m, tries, res.exh)
    tile := run.tile + 1, tiles := run.tiles.drop 1, tries := 0, recs := 0 }
  let s := if run.tile < p.accTiles then s.putRun c p.array run else p.finish s c run nc
  s.streamAll c p.array

/-- TILE_CONVERT on a run: a tile that overflowed through finite operands is recomputed where that is allowed and a
retry is left, and converted at its first exponents otherwise (R66, R67, R98, R99). -/
def Plan.convert (p : Plan) (s : State) (c : Nat) (t : Tile) (run : Dense) : State :=
  if (run.tiles.head?.map (·.ovr_)).getD false then
    if p.inp = 1 ∨ run.recomp = false ∨ run.tries = run.maxRetry then p.convertNow s c t run true
    else (s.noteEvents c 0 0 1).putRun c p.array { run with tries := run.tries + 1, redo := true }
  else p.convertNow s c t run false

/-- TILE_RECOMPUTE on a run: the tile streams again, under a stationary tile loaded again where the cells hold another;
operands that have changed since make its bits free (R66, R93, R100, R155; log entry 104). -/
def Plan.recompute (p : Plan) (s : State) (c : Nat) (w : Work) (t : Tile) (run : Dense) : State :=
  let r := run.recs + 1
  let i := run.tile
  let swapped := SMap.get none (s.core c).cells p.array != some t.src
  let h := run.tiles.head?.getD ⟨0, 0, false, []⟩
  let changed := s.atRuns (p.tileIns s i) != h.ins || ((p.hs || swapped) && s.atRuns t.from_ != t.held)
  let (s, v) := s.viewOf c w
  let s := p.reload s c t
  let rows := p.tileFeed i
  let full := if p.skip then
      let tiles := p.feedTiles v
      rows.filter fun m => !(p.feedRow v tiles (p.feedRows v) m).isEmpty else rows
  let (s, ovr_) := p.compute s v c t run.masked i r
  let (s, ovr_) := if changed then
      s.freeEntries c (rows.flatMap fun m =>
        ((List.range t.cols.length).filter fun j => !run.masked.contains j).map fun j => p.accAt m j)
    else (s, ovr_)
  let s := if p.gather || p.feed.isStream then s else s.noteDensePort c 2 (p.feed.runs rows.contains)
  let s := s.noteDensePort c 3 (p.ain.toList.flatMap fun a => a.runs rows.contains)
  (s.bump (Reg.corStreamBeatCnt c) full.length).putRun c p.array
    { run with recs := r, redo := false, tiles := { h with ovr_ := ovr_ } :: run.tiles.drop 1 }

/-! ### CVT and SCL (R299, R300) -/

/-- The value y that CVT forms of a source element (R61, log entry 24). -/
def State.cvtY (s : State) (t : TD) (m : List Nat) : F32 :=
  let q := if t.fm = .t2 then s.elem t m else underScale (s.scaleByte t m) (s.elem t m)
  let y := (q.mul (F32.val (s.tscale t))).f32
  if t.fm = .t2 then ((F32.val y).mul (s.rowScale t m)).f32 else y

/-- The checks of CVT (R62, R192, R214, R299, R528): it reads and writes by the 1,024-bit A port. -/
def cvtOk (c : Nat) (a b : TD) : Bool :=
  a.ok && b.ok && !a.isStream && !b.isStream && a.inChamber c && b.inChamber c && a.aligned 1024 && b.aligned 1024 &&
  a.sizes == b.sizes && (b.bdim == 0 || b.bdim == 1 || b.bdim == 7)

/-- The computed row scale of a T2 destination: the mean of |v| over the row (R45). -/
def rowMean (vs : List FVal) : Nat :=
  let sum := vs.foldl (fun a v => ((F32.val a).add v.abs).f32) (0 : F32)
  (convElem .e4m3 .rne (F32.val (F32.div sum (F32.ofNat vs.length)))).code

/-- The value under an EP register of a core that changes at the start of a dense instruction: what the last COMMIT took
up (R106). -/
def State.denseCfg (s : State) (c hi lo : Nat) : Nat :=
  bits hi lo (SMap.get (regReset (Reg.corDenseCfg c)) (SMap.get [] s.snaps s.epoch.toNat) (Reg.corDenseCfg c))

/-- CVT: its code, and the state after it; its source is read in `v`. The limit of two retries of R67 is one tile's: the
spec defines no tile of a CVT, and the whole CVT is one here, under MAX_RETRY of COR.DENSE_CFG (log entry 103). -/
def State.doCvt (s v : State) (c : Nat) (a b : TD) (sr crow : Bool) : State × Code :=
  if !cvtOk c a b then (s, .desc) else
  let step := (s.seq (coreSeq c)).stepNow.toNat
  let tx := s.dstT b
  let d : ConvDst := ⟨b, if sr && b.fm != .t2 then some (s.dripKey b.drip step) else none, tx⟩
  let ys := (List.range a.count).map fun e => let m := a.coords e; (m, v.cvtY a m)
  let rows := if b.fm = .t2 then List.range (b.size b.bdim) else []
  let scales := rows.map fun r =>
    if crow then rowMean ((ys.filter fun y => y.1.getD b.bdim 0 == r).map fun y => tensorScaled y.2 tx)
    else (s.rd (b.scaleAddr r)).toNat
  let mr := min 2 (s.denseCfg c 1 0)
  let res := convTile [d] (fun m => Fmt.e4m3.decode (scales.getD (m.getD b.bdim 0) 0)) ys mr false
  let o := res.outs.getD 0 {}
  let ecc := s.badOperand a
  let s := ((s.noteOperand a).noteEvents c o.clips o.ovf res.passes).amaxNote b (ys.map (·.2))
  let s := s.noteDensePort c 3 (a.runs (fun _ => true) ++ b.runs (fun _ => true))
  let ws := d.writes o ++
    (if b.fm = .t2 ∧ crow then (scales.zipIdx).map fun (v, r) => (8 * b.scaleAddr r, 8, v) else [])
  let (s, wk) := s.wrCode ws
  let k := if res.exh then Code.retry else countCode (o.clips + o.ovf + res.passes != 0)
  (s, (k.max wk).max (if ecc then .ecc else .ok))

/-- The bytes of an amax field: its offset and size. -/
def sclField (f : BitVec 2) : Nat × Nat := if f = 0 then (0x44, 2) else if f = 1 then (0x46, 1) else (0x4C, 4)

/-- SCL that reads a field into a chamber word. A word index outside the chamber is refused (log entry 43). -/
def State.doSclRead (s : State) (c : Nat) (t : TD) (f : BitVec 2) (word : Nat) : State × Code :=
  if !t.ok || t.isStream || decide (524288 ≤ word) then (s, .desc) else
  let (o, n) := sclField f
  let v := s.rdLE (amaxBase + 128 * t.amax + o) n
  (s.wrLE (chamberBase c + 4 * word) 4 (if f = 0 then (sext 16 v % (2 ^ 32 : Nat)).toNat else v), .ok)

/-- SCL that writes a field from a register, as a signed 64-bit value that is clamped. -/
def State.doSclWrite (s : State) (t : TD) (f : BitVec 2) (v : Word) : State × Code :=
  if !t.ok || t.isStream then (s, .desc) else
  let (o, n) := sclField f
  let x : Int := if f = 0 then max (-126) (min 127 v.toInt) else if f = 1 then max 0 (min 7 v.toInt) else v.toInt % 2
  (s.wrLE (amaxBase + 128 * t.amax + o) n (x % (2 ^ (8 * n) : Nat)).toNat, .ok)

end Sys2Proof.Machine
end

