-- ==== Sys2Proof/Machine/Chamber.lean ====
section
/-! DEFINITION. Accesses at a chamber's banks (R186, R189 to R198). -/

namespace Sys2Proof.Machine
open Sys2Proof

/-- Bytes per beat of a port class (R189). -/
def portBytes (cls : Nat) : Nat := match cls with | 0 => 4 | 1 => 128 | 2 => 128 | 3 => 128 | 4 => 64 | 5 => 64 | _ => 32

/-- Whether an access of a dense class takes a bank's secondary path; `load` says that it is part of a stationary load,
whose every port takes the primary paths of banks of code 1 (R190, R191). -/
def State.viaSecondary (s : State) (c cls b : Nat) (load : Bool) : Bool :=
  decide (1 ≤ cls) && decide (cls ≤ 3) && s.bankClass c b != (if load then 1 else cls)

/-- What the check bits of a word showed as an access read it (R198): a corrected word counts; a word found uncorrectable is
so from then on, and counted here for the step whose access it is (log entry 116). -/
def State.chamberEcc (s : State) (c a : Nat) (found : Ecc) : State :=
  match found with
  | .clean => s
  | .corrected => if s.poison.contains a then s else s.bump (Reg.spdEccCorrCnt c) 1
  | .uncorrectable => { s with poison := insertKey s.poison a }

/-- The alignment that an access of a port class needs (R185, R192): a word, or the width of its port. -/
def portAlign (cls : Nat) : Nat := match cls with | 1 => 128 | 2 => 128 | 3 => 128 | 4 => 64 | 5 => 64 | _ => 4

/-- Whether an access has a form that a bank serves: whole words, no more than the port carries in a beat, one row or an
aligned part of one row, and a start on the port's boundary (R185, R187, R192). -/
def chamberForm (cls o n : Nat) : Bool :=
  n != 0 && n % 4 == 0 && decide (n ≤ portBytes cls) && 128 % n == 0 && o % n == 0 && o % portAlign cls == 0

/-- The bytes of a word that a masked write selects. -/
def maskOf (bs : List (Option Byte)) (i : Nat) : List (Option Byte) := (bs.drop (4 * i)).take 4

/-- The byte writes of a masked write from an address on. -/
def maskedWrites (a : Nat) (bs : List (Option Byte)) : List ElemWrite :=
  (bs.zipIdx).filterMap fun (x : Option Byte × Nat) => x.1.map fun v => (8 * (a + x.2), 8, v.toNat)

/-- CHAMBER_ACCESS: a bank serves an access of a port class, a read of `len` bytes or a write of the selected bytes of as
many, within one row; `waited` says that another access held the bank, `found` what the check bits of its words showed
where it read them, as it does in a partly written word (R185, R187, R192, R194, R195, R198). -/
def execChamberAccess (c : Fin 800) (cls : Fin 7) (load : Bool) (off : BitVec 21) (len : Fin 129)
    (wr : Option (List (Option Byte))) (waited : Bool) (found : List Ecc) (s : State) : Out :=
  let o := off.toNat
  let n := match wr with | none => len.val | some bs => bs.length
  if !s.domUp (5 + grottoOf c.val) || !chamberForm cls.val o n then .next s
  else
    let a := chamberBase c.val + o
    let s := if waited then s.bump (Reg.spdBankConflictCnt c.val) 1 else s
    let s := if s.viaSecondary c.val cls.val (bankOf o) load then s.bump (Reg.spdDenseSecCnt c.val) 1 else s
    let seen (i : Nat) : Bool := match wr with
      | none => true
      | some bs => (maskOf bs i).any Option.isSome && (maskOf bs i).any Option.isNone
    let new := (List.range (n / 4)).filter fun i =>
      seen i && found.getD i .clean == .uncorrectable && !s.poison.contains (a + 4 * i)
    let s := (List.range (n / 4)).foldl (fun s i =>
      if seen i then s.chamberEcc c.val (a + 4 * i) (found.getD i .clean) else s) s
    let s := match wr with
      | none => s.noteRead a n
      | some bs => s.wrElems (maskedWrites a bs)
    .next { s with fresh := new.foldl (fun l i => insertKey l (a + 4 * i)) s.fresh }

end Sys2Proof.Machine
end

