-- ==== Sys2Proof/Machine/Flags.lean ====
section
/-! DEFINITION. How a register takes a write (R10 to R14): by the access code of each field, with a free value where a
field named RSVD is written with anything but 0 (R12, log entry 16). -/

namespace Sys2Proof.Machine
open Sys2Proof

/-- The bits of a register that its fields cover. -/
def RegDef.cover (r : RegDef) : Word := r.fields.foldl (fun v f => setBits f.hi f.lo v (2 ^ (f.hi + 1 - f.lo) - 1)) 0

/-- One field after a write: RW and EP take the written bits, W1C clears the bits written as 1, and the others
ignore the write. -/
def FieldDef.store (f : FieldDef) (old v mask new : Word) : Word :=
  match f.acc with
  | .rw => setBits f.hi f.lo new (bits f.hi f.lo ((old &&& ~~~mask) ||| (v &&& mask)))
  | .ep => setBits f.hi f.lo new (bits f.hi f.lo ((old &&& ~~~mask) ||| (v &&& mask)))
  | .w1c => setBits f.hi f.lo new (bits f.hi f.lo (old &&& ~~~(v &&& mask)))
  | .ro => new
  | .wo => new
  | .rc => new

/-- Store a write whose bits under `mask` are written (R10, R11): the actions of the register are not part of it. -/
def State.storeReg (s : State) (off : Nat) (v mask : Word) : State :=
  match findReg off with
  | none => s
  | some (r, _) =>
    if (v &&& mask &&& ~~~(RegDef.cover r)) ≠ 0 then
      if r.isCnt then { s.drawn with cnt := SMap.put 0 s.cnt off (bits 47 0 s.free) } else s.drawn.setReg off s.free
    else if r.isCnt then s
    else s.setReg off (r.fields.foldl (fun new f => FieldDef.store f (s.reg off) v mask new) (s.reg off))

/-- A 64-bit write. -/
def allOnes : Word := 0xFFFF_FFFF_FFFF_FFFF

/-- The bits named RSVD that a write of `v` sets in the register at an offset (R12). -/
def rsvdBits (off : Nat) (v : Word) : Word :=
  match findReg off with
  | none => 0
  | some (r, _) => v &&& ~~~(RegDef.cover r)

/-- A 64-bit write of the register at `off` whose action is `act`. Where the write sets a bit named RSVD the behaviour of
the register is undefined: a free choice between acting as though that bit were 0 and nothing but a free stored value
(R12, log entry 16). -/
def writeReg (off : Nat) (v : Word) (s : State) (act : Word → State → Out) : Out :=
  let x := rsvdBits off v
  if x = 0 then act v s
  else if s.free.toNat % 2 = 0 then act (v &&& ~~~x) s.drawn
  else .next (s.drawn.storeReg off v allOnes)

end Sys2Proof.Machine
end

