-- ==== Sys2Proof/Machine/Quarantine.lean ====
section
/-! DEFINITION. Notices of a group and the checks of a quarantine (R416 to R420, R424): what a COMMIT, a hello and an
attestation share. -/

namespace Sys2Proof.Machine
open Sys2Proof

/-- Send a management notice to a device: its packets take the link of key 0; where there is none they are returned and
counted, and a link that is lost or excluded loses them (R412, R415, R424). -/
def State.notify (s : State) (d : Nat) (kind : String) (body : List Nat) : State :=
  let s := s.send (.notice d kind body)
  match s.routeBy d 0 with
  | none => s.bump Reg.cslRouteDropCnt 1
  | some l => if s.linkGone l then s else s.sendManage l d (noteBytes kind body)

/-- Send a notice to every live member but this device. -/
def State.notifyAll (s : State) (kind : String) (body : List Nat) : State :=
  (s.live.filter fun d => d != s.devId).foldl (fun s d => s.notify d kind body) s

/-- The configuration digest (R417). -/
def State.digestOf (s : State) : BitVec 512 :=
  (List.range 8).foldl (fun v k => v ||| ((s.reg (Reg.cslDigest k)).setWidth 512 <<< (64 * k))) 0

/-- The running firmware version (R417). -/
def State.fwVersion (s : State) : BitVec 32 := (s.reg Reg.secBootStat).setWidth 32

/-- The Ikid profile version (R265). -/
def profileVersion : BitVec 16 := 0x0100

/-- Record a report in CSL.QLOG (R418). -/
def State.recordQlog (s : State) (reporter l peer reason : Nat) : State :=
  (s.recordFirst Reg.cslQlog (BitVec.ofNat 64 (reason <<< 56 + l <<< 52 + reporter <<< 28 + peer))).event 5

/-- The first check of R418 that a hello fails, 0 where it fails none. -/
def State.helloReason (s : State) (h : Hello) : Nat :=
  if h.fw ≠ s.fwVersion then 1
  else if h.profile ≠ profileVersion then 2
  else if h.digest ≠ s.digestOf then 3
  else if h.dev.toNat = s.devId then 6
  else 0

/-- Put a link into QUARANTINE for a reason, reported once to the master where a check failed. -/
def State.quarantine (s : State) (l reason : Nat) : State :=
  let o := Reg.cslLinkStat l
  let s := (s.setFld o 63 60 2).setFld o 59 56 reason
  if reason = 4 ∨ (s.link l).reported = reason then s else
  let s := s.onLink l fun k => { k with reported := reason }
  let peer := s.fld (Reg.cslPeer l) 11 0
  if s.isMaster then s.recordQlog s.devId l peer reason else s.notify 0 "quarantine" [l, peer, reason]

/-- Decide the state of a link that has a hello: the checks of R418 in order. -/
def State.settle (s : State) (l : Nat) : State :=
  let o := Reg.cslLinkStat l
  match (s.link l).hello with
  | none => s
  | some h =>
    let r := s.helloReason h
    if r ≠ 0 then s.quarantine l r
    else match (s.link l).attest with
      | .failed => s.quarantine l 5
      | .pending => if s.linkState l = 2 then s.quarantine l 4 else s
      | .verified =>
        let s := ((s.setFld o 63 60 3).setFld o 59 56 0).onLink l fun k => { k with reported := 0 }
        let s := if (s.routeLinks 0).contains l then s.setFld Reg.rslStat 0 0 0 else s
        s.pump l

/-- A link in QUARANTINE is decided anew, as this device's own COMMIT may have changed the digest (R417, R418). -/
def State.recheck (s : State) : State :=
  (List.range 12).foldl (fun s l => if s.linkState l = 2 then s.settle l else s) s

end Sys2Proof.Machine
end

