-- ==== Sys2Proof/Machine/Shake.lean ====
section
/-! DEFINITION. SHAKE256 of FIPS 202, which the spec names for its digests (R417, R443, R470; log entry 18). -/

namespace Sys2Proof

namespace Keccak

/-- The rotation of a lane. -/
def rotl (x : Word) (n : Nat) : Word := (x <<< (n % 64)) ||| (x >>> (64 - n % 64))

def lane (a : List Word) (x y : Nat) : Word := a.getD (x % 5 + 5 * (y % 5)) 0

/-- Walk the 24 lanes that rho moves, from lane `(x, y)` at step `t`, noting each lane's place and its triangular
offset `(t + 1) (t + 2) / 2` (FIPS 202, algorithm 2). -/
def rhoWalk : Nat → Nat → Nat → Nat → List (Nat × Nat)
  | 0, _, _, _ => []
  | n + 1, t, x, y => (x + 5 * y, (t + 1) * (t + 2) / 2) :: rhoWalk n (t + 1) y ((2 * x + 3 * y) % 5)

/-- How far rho turns lane `j`; lane 0 is not on the walk and stands. -/
def turnOf (j : Nat) : Nat := match (rhoWalk 24 0 1 0).find? fun e => e.1 == j with | some e => e.2 | none => 0

/-- One step of the degree-8 shift register that makes the bits of iota (FIPS 202, algorithm 5). -/
def lfsr (r : BitVec 8) : BitVec 8 := if r.msb then (r <<< 1) ^^^ 0x71 else r <<< 1

/-- The constant of one round, and the register after it: bit `2 ^ j - 1` is output number `j` of the round. -/
def iotaWord : Nat → Nat → BitVec 8 → Word → BitVec 8 × Word
  | 0, _, r, w => (r, w)
  | n + 1, j, r, w => iotaWord n (j + 1) (lfsr r) (if r.getLsbD 0 then w ^^^ BitVec.twoPow 64 (2 ^ j - 1) else w)

/-- The constants of `n` rounds, from the register `r` on. -/
def iotaWords : Nat → BitVec 8 → List Word
  | 0, _ => []
  | n + 1, r => let k := iotaWord 7 0 r 0; k.2 :: iotaWords n k.1

def theta (a : List Word) : List Word :=
  let c := (List.range 5).map fun x =>
    lane a x 0 ^^^ lane a x 1 ^^^ lane a x 2 ^^^ lane a x 3 ^^^ lane a x 4
  (List.range 25).map fun i =>
    a.getD i 0 ^^^ c.getD ((i % 5 + 4) % 5) 0 ^^^ rotl (c.getD ((i % 5 + 1) % 5) 0) 1

/-- rho and pi: lane (x, y) takes the rotated lane (x + 3y, x). -/
def rhoPi (a : List Word) : List Word :=
  (List.range 25).map fun i =>
    let x := i % 5
    let y := i / 5
    let j := (x + 3 * y) % 5 + 5 * x
    rotl (a.getD j 0) (turnOf j)

def chi (a : List Word) : List Word :=
  (List.range 25).map fun i =>
    let x := i % 5
    let y := i / 5
    lane a x y ^^^ (~~~(lane a (x + 1) y) &&& lane a (x + 2) y)

def round (a : List Word) (rc : Word) : List Word :=
  match chi (rhoPi (theta a)) with
  | [] => []
  | l :: ls => (l ^^^ rc) :: ls

def permute (a : List Word) : List Word := (iotaWords 24 1).foldl round a

/-- A little-endian lane of bytes. -/
def laneOf : List Byte → Nat
  | [] => 0
  | b :: bs => b.toNat + 256 * laneOf bs

/-- Absorb one block of 136 bytes. -/
def absorb (a : List Word) (blk : List Byte) : List Word :=
  permute ((List.range 25).map fun i =>
    if i < 17 then a.getD i 0 ^^^ BitVec.ofNat 64 (laneOf ((blk.drop (8 * i)).take 8)) else a.getD i 0)

/-- Absorb a padded message of `n` blocks. -/
def absorbAll : Nat → List Word → List Byte → List Word
  | 0, a, _ => a
  | n + 1, a, m => absorbAll n (absorb a (m.take 136)) (m.drop 136)

end Keccak

/-- The first `n` bytes of SHAKE256, for `n` up to 136. -/
def shake256 (m : List Byte) (n : Nat) : List Byte :=
  let blocks := m.length / 136 + 1
  let pad := blocks * 136 - m.length
  let tail : List Byte :=
    if pad = 1 then [0x9F] else 0x1F :: List.replicate (pad - 2) 0 ++ [0x80]
  let a := Keccak.absorbAll blocks (List.replicate 25 0) (m ++ tail)
  (List.range n).map fun i => BitVec.ofNat 8 ((a.getD (i / 8) 0).toNat >>> (8 * (i % 8)))

end Sys2Proof
end

