-- ==== Sys2Proof/Machine/Siphon.lean ====
section
/-! DEFINITION. The siphons (spec/09_siphons_streams_layouts.md): their translations, the start and the checks of a
transfer, the instructions of siphon programs, packed streams, the staging of rope tiles, and completion. Each
siphon command executes the current instruction of one transfer, or changes nothing (log entry 1). -/

namespace Sys2Proof.Machine
open Sys2Proof

/-! ### Translation with a TLB (R230 to R235) -/

/-- The unit of R341 of a siphon. -/
def sipUnit (n : Nat) : Nat := 800 + n

/-- The ENG bit of a siphon's accesses (R231). -/
def sipEng (n : Nat) : Nat := if n < 200 then 0 else 1

/-- Look an address up in a siphon's TLB, most recently used first; a miss walks the tables, counts, and fills (R233). -/
def State.sipLookup (s : State) (n va : Nat) : State × WalkRes :=
  let root := s.epReg (sipUnit n) Reg.sipPtRoot
  if bits 0 0 root = 0 then (s, .fault .trans 0x05) else
  match (s.siph n).tlb.find? fun e => e.vpage == va >>> e.shift with
  | some e => (s.onSiph n fun q => { q with tlb := e :: q.tlb.erase e }, .leaf e.leaf e.shift)
  | none =>
    let r := s.walk root va
    let s := (s.bump (Reg.sipTlbMissCnt n) 1).bump (Reg.sipWalkReadCnt n) r.1.length
    match r.2 with
    | .leaf e sh => (s.onSiph n fun q => { q with tlb := (⟨va >>> sh, sh, e⟩ :: q.tlb).take 256 }, r.2)
    | .fault .. => (s.noteWalk root va, r.2)

/-- Translate an address of a siphon's transfer; a failing access is counted where the target counts it. -/
def State.sipXlate (s : State) (n va : Nat) (rd wr : Bool) : State × Xlat :=
  if inChamberWindow va then (s, s.translate 0 va 0 rd wr)
  else
    let r := s.sipLookup n va
    match r.2 with
    | .fault c k => (r.1, .fault c k)
    | .leaf e sh => (match r.1.leafCheck e sh va (sipEng n) rd wr with
      | .fault c k => (r.1.noteLeaf e sh va (sipEng n) rd wr, .fault c k)
      | x => (r.1, x))

/-- The parts of a range that lie in one 64 KiB page each. -/
def pageSegs : Nat → Nat → Nat → List (Nat × Nat)
  | 0, _, _ => []
  | fuel + 1, va, len =>
    if len = 0 then [] else
    let k := min len (0x1_0000 - va % 0x1_0000)
    (va, k) :: pageSegs fuel (va + k) (len - k)

/-- A fault of a transfer: code, cause and address. -/
abbrev SipFault := Code × Nat × Nat

/-- What a read by a siphon gave: the bytes up to a fault, and the local ranges they came from. -/
structure SipRead where
  s : State
  bytes : List Byte
  places : List (Nat × Nat)
  fault : Option SipFault

/-- Read `len` bytes at a job virtual address, for a transfer of access `m`. -/
def State.sipRead (s : State) (n : Nat) (m : Access) (va len : Nat) : SipRead :=
  (pageSegs (len / 0x1_0000 + 2) va len).foldl (fun r (va, k) =>
    if r.fault.isSome then r else
    match r.s.sipXlate n va true false with
    | (s, .fault c q) => { r with s := s, fault := some (c, q, va) }
    | (s, .local_ a) =>
      let (s, bs) := s.readMeet m a k
      let (s, bs) := s.readUpdated (s.epReg (sipUnit n) Reg.sipPtRoot) va k bs
      { r with s := s, bytes := r.bytes ++ bs, places := r.places ++ [(a, k)] }
    | (s, .remote d a) =>
      match s.peerRead d a k with
      | (s, .ok, bs) => { r with s := s, bytes := r.bytes ++ bs }
      | (s, c, _) => { r with s := s, fault := some (c, 0x88, va) }) ⟨s, [], [], none⟩

/-- What a write by a siphon will do: the local element writes, in address order, up to a fault. -/
structure SipWrite where
  s : State
  ws : List ElemWrite
  done : Nat
  fault : Option SipFault

/-- Add a byte run to the last of some runs where it follows it, or to their end. -/
def addRun (rs : List (Nat × Nat)) (a k : Nat) : List (Nat × Nat) :=
  match rs with
  | [] => [(a, k)]
  | [r] => if r.1 + r.2 = a then [(r.1, r.2 + k)] else [r, (a, k)]
  | r :: l => r :: addRun l a k

/-- A transfer's instruction takes note of bytes that it writes (R228). -/
def State.noteWrote (s : State) (m : Access) (a k : Nat) : State :=
  match m.work with
  | none => s
  | some (q, _) => s.onSeq (SeqId.ofNum m.unit) fun x => { x with works := x.works.map fun w =>
      if w.seq = q then { w with wrote := addRun w.wrote a k } else w }

/-- Write `w` bits of `v` at bit `b` of a job virtual address: whole bytes, or part of one byte (R224). A remote part
is sent at once; the byte around part of a remote byte is free (log entry 9). -/
def State.sipWrite (s : State) (n : Nat) (m : Access) (va b w v : Nat) : SipWrite :=
  let len := (b + w + 7) / 8
  (pageSegs (len / 0x1_0000 + 2) va len).foldl (fun r (va, k) =>
    if r.fault.isSome then r else
    let part := if w < 8 then v else (v >>> (8 * r.done)) % 2 ^ (8 * k)
    match r.s.sipXlate n va false true with
    | (s, .fault c q) => { r with s := s, fault := some (c, q, va) }
    | (s, .local_ a) =>
      let old : List Byte := if w < 8 then [BitVec.ofNat 8 (v <<< b)] else natLE k part
      let (s, bs) := s.writeMeet m a old
      let (s, bs) := s.writeUpdated (s.epReg (sipUnit n) Reg.sipPtRoot) va bs
      let v := leNat bs >>> b
      { r with s := s.noteWrote m a k, done := r.done + k,
               ws := r.ws ++ [if w < 8 then (8 * a + b, w, v) else (8 * a, 8 * k, v)] }
    | (s, .remote d a) =>
      let body := if w < 8 then
          let old := (Config.undefByte s.freeCtr (2 ^ 50)).toNat
          [BitVec.ofNat 8 (old - ((old >>> b) % 2 ^ w) <<< b + (v % 2 ^ w) <<< b)]
        else natLE k part
      match s.peerSend d a body (some (.xfer n m.unit ((m.work.map (·.1)).getD 0) va)) with
      | (s, true) => { r with s := s, done := r.done + k }
      | (s, false) => { r with s := s, fault := some (.link, 0x88, va) }) ⟨s, [], 0, none⟩

/-- Record a transfer's fault: the first with its code, cause, issuer and handle, and its address (R235, R238). -/
def State.sipFault (s : State) (n : Nat) (t : Transfer) (f : SipFault) : State :=
  let u := SeqId.ofNum t.unit
  let h := match (s.seq u).works.find? fun w => w.seq == t.work with
    | some w => w.handle
    | none => 0
  let core := if u.isCp then 0x3FF else t.unit
  let s' := s.recordFirst (Reg.sipFault n) (BitVec.ofNat 64 (f.1.toNat <<< 48 + f.2.1 <<< 40 + core <<< 16 + h))
  if s.bit (Reg.sipFault n) 63 then s' else s'.setReg (Reg.sipFaultVa n) (BitVec.ofNat 64 (f.2.2 % 2 ^ 48))

/-- Stop a transfer at a fault. -/
def Transfer.stop (t : Transfer) (c : Code) : Transfer := { t with ended := true, code := t.code.max c }

/-! ### Siphon programs (R215 to R217) -/

namespace SipInstr
def op (w : Word) : Nat := bits 63 58 w
def dim (w : Word) : Nat := bits 57 55 w
def lvl (w : Word) : Nat := bits 54 52 w
def tgt (w : Word) : Nat := bits 51 47 w
def x (w : Word) : Bool := bits 46 46 w == 1
def fill (w : Word) : Nat := bits 39 24 w
def imm (w : Word) : Nat := bits 31 0 w
def cnt (w : Word) : Nat := bits 23 0 w

/-- The bits that an opcode uses, none for an opcode outside the table (R216). -/
def fields (o : Nat) : Option Word :=
  let oc : Word := 0xFC00_0000_0000_0000
  let d : Word := 0x0380_0000_0000_0000
  let l : Word := 0x0070_0000_0000_0000
  let t : Word := 0x000F_8000_0000_0000
  let x : Word := 0x0000_4000_0000_0000
  let f : Word := 0x0000_00FF_FF00_0000
  let i : Word := 0x0000_0000_FFFF_FFFF
  let n : Word := 0x0000_0000_00FF_FFFF
  match o with
  | 0 => some oc
  | 1 => some (oc ||| l ||| t ||| x ||| i)
  | 2 => some (oc ||| d ||| x ||| i)
  | 3 => some (oc ||| d ||| i)
  | 4 => some (oc ||| d)
  | 5 => some (oc ||| d ||| i)
  | 6 => some (oc ||| d ||| f ||| n)
  | 7 => some (oc ||| d ||| n)
  | 8 => some (oc ||| x ||| i)
  | _ => none
end SipInstr

open SipInstr in
/-- The checks of one instruction at its index (R217, R303). -/
def sipInstrOk (drv : TD) (b0 b1 : Bool) (i : Nat) (w : Word) : Bool :=
  match fields (op w) with
  | none => false
  | some m =>
    w &&& ~~~m == 0 &&
    (match op w with
     | 1 => decide (tgt w ≤ i) && decide (lvl w < 6)
     | 3 => drv.has (dim w) && decide (dim w < 6) && imm w != 0
     | 2 | 4 | 5 | 6 | 7 => decide (dim w < 6) && drv.has (dim w)
     | 8 => if x w then b1 else b0
     | _ => true)

/-- The loops of a program: target, own index, level. -/
def sipLoops (prog : List Word) : List (Nat × Nat × Nat) :=
  prog.zipIdx.filterMap fun (w, i) => if SipInstr.op w = 1 then some (SipInstr.tgt w, i, SipInstr.lvl w) else none

/-- No two loop bodies overlap without nesting, and none holds a LOOP of its own level (R217). -/
def sipLoopsOk (ls : List (Nat × Nat × Nat)) : Bool :=
  ls.all fun (a1, e1, l1) => ls.all fun (a2, e2, l2) =>
    !(decide (a1 < a2) && decide (a2 ≤ e1) && decide (e1 < e2)) &&
    !(e1 != e2 && decide (a1 ≤ e2) && decide (e2 < e1) && l1 == l2)

/-- The program of a slot up to its END, none where there is no END (R217). -/
def sipProgram (ws : List Word) : Option (List Word) :=
  match ws.findIdx? fun w => SipInstr.op w == 0 with
  | none => none
  | some i => some (ws.take (i + 1))

/-- Whether a program reads the index list (R302). -/
def usesList (prog : List Word) : Bool := prog.any fun w => SipInstr.op w == 2 && SipInstr.x w

/-- The checks of a program (R217). -/
def sipProgOk (drv : TD) (b0 b1 : Bool) (prog : List Word) : Bool :=
  prog.zipIdx.all (fun (w, i) => sipInstrOk drv b0 b1 i w) && sipLoopsOk (sipLoops prog)

/-- The contents of a program slot. -/
def State.sipSlot (s : State) (n k : Nat) : List Word :=
  (List.range 32).map fun i => s.reg (Reg.sipStore n + 256 * k + 8 * i)

/-! ### The start of a transfer (R203, R212, R214, R217, R236, R302 to R304) -/

/-- A field of a parameter block. -/
def blockField (b : List Byte) (o n : Nat) : Nat := leNat ((b.drop o).take n)

/-- The siphon that an XFR names. -/
def xfrSiphon (i : Instr) : Option Nat :=
  match i with
  | .xfrProg _ _ _ _ _ _ n _ _ => some n.toNat
  | .xfrPack _ _ _ _ _ _ n => some n.toNat
  | .xfrUnpack _ _ _ _ _ _ n => some n.toNat
  | .xfrRope _ _ _ _ _ n => some n.toNat
  | _ => none

/-- A transfer at its start (R218). -/
def newTransfer (id unit : Nat) (w : Work) (m : XMode) : Transfer where
  id := id
  unit := unit
  work := w.seq
  mode := m
  src := w.descs.getD 0 0
  dst := w.descs.getD 1 0
  list := w.descs.getD 2 0
  slot := 0
  prog := []
  drv := false
  x := List.replicate 6 0
  c := List.replicate 6 0
  rot := List.replicate 6 0
  rev := List.replicate 6 0
  bad := List.replicate 6 0
  p := 0
  pc := 0
  operand := blockField w.block 0 4
  bar := [blockField w.block 8 8, blockField w.block 0x18 8]
  t := [BitVec.ofNat 32 (blockField w.block 4 4), BitVec.ofNat 32 (blockField w.block 0x10 4)]
  waiting := false
  pos := 0
  scaled := []
  tiles := 0
  bytes := 0
  result := 0
  ended := false
  code := .ok
  spoiled := false

/-- A one-dimensional region of bytes that lie one after another from BASE (R229, R304; log entry 25): a list in RM with
stride 1, or in CM; or in SI or FI with dimension 1 absent, the only descriptors of one dimension that R213 admits. With
a dimension 1 of size 1 the elements of SI and FI lie apart (R210, R211), and they are no such region. -/
def TD.isRegion (t : TD) : Bool :=
  t.okList && t.fm == .i8 &&
  ((t.lay == .rm && t.stride 0 == 1) || t.lay == .cm || (!t.has 1 && (t.lay == .si || t.lay == .fi)))

/-- An index list of a transfer (R220). -/
def TD.isIndexList (t : TD) : Bool := (t.ok || t.okList) && !t.isStream && t.fm == .s32

/-- The bit address of entry `p` of an index list. -/
def TD.entryBit (t : TD) (p : Nat) : Int := if t.has 1 then t.elemBit (t.coords p) else t.asList.elemBit [p, 0]

/-- The barrier counters of a transfer's parameter block are 4-byte aligned (R254). -/
def barsOk (block : List Byte) : Bool := blockField block 8 8 % 4 == 0 && blockField block 0x18 8 % 4 == 0

/-- The checks of a PROG transfer. -/
def progOk (t : Transfer) (prog : List Word) : Bool :=
  let a := td t.src
  let b := td t.dst
  a.ok && b.ok && !a.isStream && !b.isStream && a.fm == b.fm &&
  t.bar.all (· % 4 == 0) &&
  sipProgOk (if t.drv then b else a) (t.bar.getD 0 0 != 0) (t.bar.getD 1 0 != 0) prog &&
  (!usesList prog || (td t.list).isIndexList)

/-- The checks of a PACK or UNPACK: a stream, a region, and a parameter block (R229). -/
def packOk (t : Transfer) (hasBlock : Bool) : Bool :=
  let a := td t.src
  let b := td t.dst
  hasBlock && t.bar.all (· % 4 == 0) &&
  (match t.mode with
   | .pack => a.ok && a.isStream && b.isRegion
   | _ => b.ok && b.isStream && a.isRegion)

/-- A code for each place whose uncorrectable unit a read meets, each counted once (R198, R393). -/
def State.notePlaces (s : State) (ps : List (Nat × Nat)) : State × Code :=
  let us := (ps.flatMap fun (a, k) => s.poisonIn a k).eraseDups
  if us.isEmpty then (s, .ok) else ((us.foldl State.noteUncorr s).drawn, .ecc)

/-- A tile header as PACK and UNPACK leave it where its LEN exceeds its slot (R229). -/
def badHeader (h : Word) : Word := setBits 15 15 (setBits 63 49 (setBits 13 8 h 0x3F) 0) 0

/-- What moving packed tiles has done so far. -/
structure PackRun where
  s : State
  off : Nat
  tiles : Nat
  badTiles : Nat
  early : Bool
  code : Code
  fault : Option SipFault

/-- Write bytes at a job virtual address, up to a fault: the state, the bytes written, the code, the fault. -/
def State.sipPut (s : State) (n : Nat) (m : Access) (va : Nat) (bs : List Byte) : State × Nat × Code × Option SipFault :=
  let w := s.sipWrite n m va 0 (8 * bs.length) (leNat bs)
  (w.s.wrElems w.ws, w.done, if w.s.wrElemsBad w.ws then .ecc else .ok, w.fault)

/-- Pack one tile of a stream behind those packed before (R229). -/
def packTileMove (n : Nat) (m : Access) (src dst : TD) (i : Nat) (r : PackRun) : PackRun :=
  if r.early || r.fault.isSome then r else
  let h := r.s.sipRead n m (src.tileAddr i) 8
  match h.fault with
  | some f => { r with s := h.s, fault := some f }
  | none =>
    let (s, c0) := h.s.notePlaces h.places
    let hw : Word := BitVec.ofNat 64 (leNat h.bytes)
    let bad := decide (src.slot < 8 * hdrLen hw + 8)
    let len := if bad then 0 else 8 * hdrLen hw
    if dst.size 0 < r.off + 8 + len then { r with s := s, early := true, code := r.code.max c0 }
    else
      let b := s.sipRead n m (src.tileAddr i + 8) len
      let (s, c1) := b.s.notePlaces b.places
      let hb := if bad then natLE 8 (badHeader hw).toNat else h.bytes
      let (s, k, c2, f) := s.sipPut n m (dst.base + r.off) (hb ++ b.bytes)
      let s := if bad then s.bump (Reg.sipPackBadCnt n) 1 else s
      let fault := f.orElse fun _ => b.fault
      { s := s, off := r.off + k, tiles := r.tiles + b2n fault.isNone, badTiles := r.badTiles + b2n bad,
        early := r.early, code := (((r.code.max c0).max c1).max c2), fault := fault }

/-- Unpack one tile into its slot, the header after the payload (R159, R229). -/
def unpackTileMove (n : Nat) (m : Access) (src dst : TD) (i : Nat) (r : PackRun) : PackRun :=
  if r.early || r.fault.isSome then r
  else if src.size 0 < r.off + 8 then { r with early := true } else
  let h := r.s.sipRead n m (src.base + r.off) 8
  match h.fault with
  | some f => { r with s := h.s, fault := some f }
  | none =>
    let (s, c0) := h.s.notePlaces h.places
    let hw : Word := BitVec.ofNat 64 (leNat h.bytes)
    let bad := decide (dst.slot < 8 * hdrLen hw + 8)
    let len := if bad then 0 else 8 * hdrLen hw
    if src.size 0 < r.off + 8 + len then { r with s := s, early := true, code := r.code.max c0 }
    else
      let b := s.sipRead n m (src.base + r.off + 8) len
      let (s, c1) := b.s.notePlaces b.places
      let (s, k1, c2, f1) := s.sipPut n m (dst.tileAddr i + 8) b.bytes
      let f1 := f1.orElse fun _ => b.fault
      let hb := if bad then natLE 8 (badHeader hw).toNat else h.bytes
      let (s, k2, c3, f2) := if f1.isSome then (s, 0, .ok, f1) else s.sipPut n m (dst.tileAddr i) hb
      let s := if bad then s.bump (Reg.sipPackBadCnt n) 1 else s
      { s := s, off := r.off + k1 + k2, tiles := r.tiles + b2n f2.isNone, badTiles := r.badTiles + b2n bad,
        early := r.early, code := ((((r.code.max c0).max c1).max c2).max c3), fault := f2 }

/-- The access of a transfer. -/
def Transfer.access (t : Transfer) (s : State) (wr : Bool) : Access :=
  let f := match (s.seq (SeqId.ofNum t.unit)).works.find? fun w => w.seq == t.work with | some w => w.fence | none => 0
  ⟨t.unit, some (t.work, f), wr⟩

/-- Move a packed stream, plane by plane: the state, and the transfer at its end with its tile and byte counts (R229, R530). -/
def State.movePacked (s : State) (n : Nat) (t : Transfer) : State × Transfer :=
  let a := td t.src
  let b := td t.dst
  let r := match t.mode with
    | .pack => a.outers.foldl (fun r o => forUpto a.tiles (packTileMove n (t.access s true) (a.at_ o) b) r)
        ⟨s, 0, 0, 0, false, .ok, none⟩
    | _ => b.outers.foldl (fun r o => forUpto b.tiles (unpackTileMove n (t.access s true) a (b.at_ o)) r)
        ⟨s, 0, 0, 0, false, .ok, none⟩
  let drops := r.badTiles + (if t.mode = .pack then b2n r.early else 0)
  let s := r.s.addCounts t.unit fun k => { k with drops := k.drops + drops }
  let c := r.code.max (if r.early || r.badTiles != 0 then .counts else .ok)
  let t := { t with tiles := r.tiles, bytes := r.off }
  match r.fault with
  | some f => (s.sipFault n t f, t.stop (c.max f.1))
  | none => (s, t.stop c)

/-! ### Rope specifications (R247, R304, R305) -/

/-- The issuing core's span in a direction, and its place on the rope. -/
def ropeFrom (c : Nat) (col up : Bool) : Int × Nat :=
  let i := if col then c / 40 else c % 40
  let last := if col then 19 else 39
  (i, if up then last - i else i)

/-- The pass that a specification of 32 bytes describes for a core or an edge siphon, none where it is refused. -/
def ropePass (id unit work : Nat) (siphon : Option Nat) (b : List Byte) : Option Pass :=
  let f (o n : Nat) := blockField b o n
  let col := f 0 1 / 128 == 1
  let num := f 0 1 % 64
  let up := f 1 1 == 0
  let span := f 2 1
  let len := f 4 2
  let take := f 8 8
  let src := f 0x10 4
  let dest := f 0x14 4
  let ctr := f 0x18 4
  let place : Bool × Int × Nat := match siphon with
    | some n =>
      let m := n - 200
      (decide (200 ≤ n) && col && num / 5 == m % 8 && src == 0 && f 1 1 == (if m < 8 then 0 else 1),
       if m < 8 then -1 else 20, 20)
    | none =>
      let r := ropeFrom unit col up
      ((if col then num == unit % 40 else num == unit / 40) && src % 128 == 0 && decide (src + 128 * len ≤ 0x20_0000), r)
  if place.1 && f 0 1 / 64 % 2 == 0 && decide (f 1 1 ≤ 1) && f 3 1 == 0 && f 6 2 == 0 && f 0x1C 4 == 0 &&
      decide (num < if col then 40 else 20) && decide (1 ≤ span) && decide (span ≤ place.2.2) &&
      decide (1 ≤ len) && decide (len ≤ 512) && take >>> span == 0 && dest % 128 == 0 &&
      decide (dest + 128 * len ≤ 0x20_0000) && (ctr == 0xFFFF_FFFF || decide (ctr < 524288))
  then some
    { id := id, unit := unit, work := work, siphon := siphon, col := col, num := num, up := up, start := place.2.1,
      span := span, take := take, fence := 0, data := [], src := src, len := len, dest := dest,
      ctr := if ctr = 0xFFFF_FFFF then none else some ctr, launched := false, pos := 0, skips := 0, code := .ok }
  else none

/-- Tiles that an edge siphon has staged and not launched. -/
def State.stagedOf (s : State) (n : Nat) : List Pass := s.passes.filter fun p => p.siphon == some n && !p.launched

/-- The tiles that hold a launch buffer of an edge siphon: staged ones, and launched ones whose last row has not passed
the first span position (R248). -/
def State.launchBuffers (s : State) (n : Nat) : List Pass :=
  s.passes.filter fun p => p.siphon == some n && (!p.launched || p.pos == 0)

/-- Transfers of a siphon that are started and not completed (R237). -/
def State.sipActive (s : State) (n : Nat) : Nat :=
  (s.siph n).transfers.length + (s.passes.filter fun p => p.siphon == some n).length

/-- Put a work into its running state. -/
def State.runWork (s : State) (u : SeqId) (seq : Nat) : State :=
  s.onSeq u fun q => { q with works := q.works.map fun w => if w.seq = seq then { w with status := .running } else w }

/-- Add a transfer to a siphon. -/
def State.addTransfer (s : State) (n : Nat) (t : Transfer) : State :=
  s.onSiph n fun q => { q with transfers := q.transfers ++ [t], nextId := q.nextId + 1 }

/-- The next transfer that a unit has issued to a siphon (R236). -/
def nextXfr (q : Seq) (n : Nat) : Option Work :=
  q.works.find? fun w => w.status == .queued && xfrSiphon w.instr == some n

/-- Stage a rope tile (R248, R304). -/
def State.stage (s : State) (n : Nat) (u : SeqId) (w : Work) : State :=
  let a := td (w.descs.getD 0 0)
  match ropePass s.nextPass u.num w.seq (some n) (w.block.drop 0x20) with
  | none => s.endWork u w.seq .desc
  | some p =>
    if !(a.isRegion && a.size 0 == 128 * p.len && barsOk w.block) then s.endWork u w.seq .desc
    else if 2 ≤ (s.launchBuffers n).length then s
    else
      let r := s.sipRead n (w.access u.num false) a.base (128 * p.len)
      let (s', c) := r.s.notePlaces r.places
      match r.fault with
      | some f =>
        let t := newTransfer (s.siph n).nextId u.num w .rope
        ((s'.sipFault n t f).addTransfer n (t.stop (c.max f.1))).runWork u w.seq
      | none =>
        { s'.runWork u w.seq with
          passes := s'.passes ++ [{ p with data := r.bytes, code := c, fence := w.fence }], nextPass := s'.nextPass + 1 }

/-- TRANSFER_START: a siphon starts the next transfer that a unit has issued to it, after the unit's fences and within
its limit, and checks it (R217, R236, R237). -/
def execTransferStart (n : Fin 216) (u : SeqId) (s : State) : Out :=
  let q := s.seq u
  match nextXfr q n.val with
  | none => .next s
  | some w =>
    let id := (s.siph n.val).nextId
    let refuse := s.endWork u w.seq .desc
    if !s.mayStart q w || decide (64 ≤ s.sipActive n.val) || !s.domUp (sipDom n.val) || s.sipOff n.val then .next s
    else match w.instr with
      | .xfrProg _ _ _ _ _ _ _ slot drv =>
        let t := { newTransfer id u.num w .prog with slot := slot.toNat, drv := drv }
        (match sipProgram (s.sipSlot n.val slot.toNat) with
         | none => .next refuse
         | some prog =>
           if progOk t prog then .next ((s.addTransfer n.val { t with prog := prog }).runWork u w.seq) else .next refuse)
      | .xfrPack _ _ _ _ _ r4 _ =>
        let t := { newTransfer id u.num w .pack with result := storeBase u + 4 * (w.vals.getD 0 0).toNat }
        if packOk t (r4 != 0) then
          let (s, t) := s.movePacked n.val t
          .next ((s.addTransfer n.val t).runWork u w.seq)
        else .next refuse
      | .xfrUnpack _ _ _ _ _ r4 _ =>
        let t := { newTransfer id u.num w .unpack with result := storeBase u + 4 * (w.vals.getD 0 0).toNat }
        if packOk t (r4 != 0) then
          let (s, t) := s.movePacked n.val t
          .next ((s.addTransfer n.val t).runWork u w.seq)
        else .next refuse
      | .xfrRope .. => .next (s.stage n.val u w)
      | _ => .next s

/-! ### Program instructions (R218 to R221) -/

/-- A transfer of a siphon. -/
def State.xfer (s : State) (n id : Nat) : Option Transfer := (s.siph n).transfers.find? fun t => t.id == id

/-- Replace a transfer. -/
def State.setXfer (s : State) (n : Nat) (t : Transfer) : State :=
  s.onSiph n fun q => { q with transfers := q.transfers.map fun x => if x.id = t.id then t else x }

/-- Run the current instruction of a PROG transfer, where it has this opcode. -/
def onProg (n : Fin 216) (id op : Nat) (s : State) (f : Word → Transfer → State × Transfer) : Out :=
  match s.xfer n.val id with
  | none => .next s
  | some t =>
    let w := t.prog.getD t.pc 0
    if t.mode ≠ .prog ∨ t.ended ∨ t.waiting ∨ SipInstr.op w ≠ op then .next s
    else
      let (s, t) := f w t
      .next (s.setXfer n.val t)

/-- Go on to the next instruction. -/
def Transfer.adv (t : Transfer) : Transfer := { t with pc := t.pc + 1 }

/-- A number as s32. -/
def s32 (z : Int) : Int := sext 32 (z % (2 ^ 32 : Nat)).toNat

/-- The driven descriptor. -/
def Transfer.driven (t : Transfer) : TD := td (if t.drv then t.dst else t.src)

/-- SIP_LOOP. -/
def execSipLoop (n : Fin 216) (id : Nat) (s : State) : Out :=
  onProg n id 1 s fun w t =>
    let l := SipInstr.lvl w
    let k := if SipInstr.x w then t.operand else SipInstr.imm w
    let c := (t.c.getD l 0 + 1) % 2 ^ 32
    if c < k then (s, { t with c := listSet t.c l c, pc := SipInstr.tgt w })
    else (s, { t with c := listSet t.c l 0 }.adv)

/-- SIP_ADD: with X, from the index list (R220). -/
def execSipAdd (n : Fin 216) (id : Nat) (s : State) : Out :=
  onProg n id 2 s fun w t =>
    let d := SipInstr.dim w
    if !SipInstr.x w then (s, { t with x := listSet t.x d (s32 (t.x.getD d 0 + SipInstr.imm w)) }.adv)
    else
      let drop (s : State) : State × Transfer :=
        ((s.bump (Reg.sipDropCnt n.val) 1).addCounts t.unit fun k => { k with drops := k.drops + 1 },
         { t with bad := listSet t.bad d 1, p := t.p + 1, code := t.code.max .counts }.adv)
      let l := td t.list
      if l.count ≤ t.p then drop s
      else
        let r := s.sipRead n.val (t.access s false) ((l.entryBit t.p).toNat / 8) 4
        match r.fault with
        | some f => (r.s.sipFault n.val t f, t.stop f.1)
        | none =>
          let e := sext 32 (leNat r.bytes)
          let v := e * SipInstr.imm w
          let (s, c) := r.s.notePlaces r.places
          let t := { t with code := t.code.max c }
          if e < 0 ∨ v > 0x7FFF_FFFF then
            let (s, t') := drop s
            (s, { t' with code := t'.code.max c })
          else (s, { t with x := listSet t.x d v, bad := listSet t.bad d 0, p := t.p + 1 }.adv)

/-- SIP_MOD. -/
def execSipMod (n : Fin 216) (id : Nat) (s : State) : Out :=
  onProg n id 3 s fun w t =>
    let d := SipInstr.dim w
    (s, { t with x := listSet t.x d (s32 (t.x.getD d 0 % (SipInstr.imm w : Int))) }.adv)

/-- SIP_REV. -/
def execSipRev (n : Fin 216) (id : Nat) (s : State) : Out :=
  onProg n id 4 s fun w t => (s, { t with rev := listSet t.rev (SipInstr.dim w) (1 - t.rev.getD (SipInstr.dim w) 0) }.adv)

/-- SIP_ROT. -/
def execSipRot (n : Fin 216) (id : Nat) (s : State) : Out :=
  onProg n id 5 s fun w t =>
    let d := SipInstr.dim w
    (s, { t with rot := listSet t.rot d (SipInstr.imm w % t.driven.size d) }.adv)

/-- The walk order of a layout: the coordinates of the element at a position (R210). -/
def TD.walkAt (t : TD) (p : Nat) : List Nat :=
  let z (i : Nat) : Nat := max 1 (t.size i)
  let in2 := z 0 * z 1
  let q := p % in2
  let m : Nat × Nat := match t.lay with
    | .cm => (q % z 0, q / z 0)
    | .si =>
      let g := q / (8 * z 1)
      let rows := min 8 (z 0 - 8 * g)
      let r := q - 8 * z 1 * g
      let h := r / (2 * rows)
      let r := r - 2 * rows * h
      (8 * g + r % rows, 2 * h + r / rows)
    | _ => (q / z 1, q % z 1)
  ([m.1, m.2] ++ TD.coordsOf [z 2, z 3, z 4, z 5] (p / in2)).take t.ndims

/-- Bounds, rotation and reversal of a coordinate vector (R219). -/
def Transfer.mapped (t : Transfer) (d : TD) (y : List Int) : Option (List Nat) :=
  if (List.range d.ndims).all fun i => t.bad.getD i 0 == 0 && decide (0 ≤ y.getD i 0) && decide (y.getD i 0 < d.size i)
  then some ((List.range d.ndims).map fun i =>
    let v := ((y.getD i 0).toNat + t.rot.getD i 0) % d.size i
    if t.rev.getD i 0 = 1 then d.size i - 1 - v else v)
  else none

/-- A stream element: its code, and the scale byte or T2 row scale, and the escape word, that come with it; a pad
element has none of them. -/
structure SipEl where
  code : Nat
  side : Option (Nat × Nat)

/-- What one PAD or EMIT has done so far. -/
structure Emit where
  s : State
  t : Transfer
  ws : List (List ElemWrite)
  spans : List (List Nat)
  places : List (Nat × Nat)

/-- Stop at a fault (R235). -/
def Emit.fail (n : Nat) (e : Emit) (s : State) (f : SipFault) : Emit :=
  { e with s := s.sipFault n e.t f, t := e.t.stop f.1 }

/-- Read the element of a source at mapped coordinates with what travels with it (R223). -/
def Emit.read (n : Nat) (e : Emit) (a : TD) (m : List Nat) : Emit × Option SipEl :=
  let x := (a.elemBit m).toNat
  let r := e.s.sipRead n (e.t.access e.s false) (x / 8) ((x % 8 + a.bits + 7) / 8)
  match r.fault with
  | some f => (e.fail n r.s f, none)
  | none =>
    let e := { e with s := r.s, places := e.places ++ r.places }
    let code := (leNat r.bytes >>> (x % 8)) % 2 ^ a.bits
    if a.fm = .t2 ∨ a.hasBlocks then
      let r := e.s.sipRead n (e.t.access e.s false) (a.scaleAddr (if a.fm = .t2 then m.getD a.bdim 0 else a.block m)) 1
      match r.fault with
      | some f => (e.fail n r.s f, none)
      | none =>
        let e := { e with s := r.s, places := e.places ++ r.places }
        if a.fm = .f4x then
          let q := e.s.sipRead n (e.t.access e.s false) (a.escAddr (a.block m)) 4
          match q.fault with
          | some f => (e.fail n q.s f, none)
          | none => ({ e with s := q.s, places := e.places ++ q.places }, some ⟨code, some (leNat r.bytes, leNat q.bytes)⟩)
        else (e, some ⟨code, some (leNat r.bytes, 0)⟩)
    else (e, some ⟨code, some (0x7F, 0)⟩)

/-- The KG or RS span of an element. -/
def TD.spanKey (b : TD) (m : List Nat) : List Nat :=
  (match b.lay with | .si => m.getD 0 0 / 8 | .fi => m.getD 0 0 | _ => 0) :: m.drop 2

/-- The writes that come with an element of the destination: its scale byte and escape word where it stands first in its
block, its T2 row scale where it is the first of its row (R223), and the unused positions of its span (R211), as bit
address, width and value. -/
def Emit.sides (e : Emit) (b : TD) (m : List Nat) (side : Option (Nat × Nat)) : List ElemWrite :=
  (if b.fm = .t2 then
    (if e.t.scaled.contains (m.getD b.bdim 0) then []
     else [(8 * b.scaleAddr (m.getD b.bdim 0), 8, (side.map (·.1)).getD 0x38)])
   else if b.hasBlocks && b.blockPos m == 0 then
    (8 * b.scaleAddr (b.block m), 8, (side.map (·.1)).getD 0x7F) ::
      (if b.fm = .f4x then [(8 * b.escAddr (b.block m), 32, (side.map (·.2)).getD 0)] else [])
   else []) ++
  (if e.spans.contains (b.spanKey m) then [] else b.zeroPad [m])

/-- Write an element and what comes with it. -/
def Emit.write (n : Nat) (e : Emit) (b : TD) (m : List Nat) (x : SipEl) : Emit :=
  let all := b.put m x.code :: e.sides b m x.side
  let r := all.foldl (fun (r : State × List ElemWrite × Option SipFault) (a, w, v) =>
    if r.2.2.isSome then r else
    let q := r.1.sipWrite n (e.t.access r.1 true) (a / 8) (a % 8) w v
    (q.s, r.2.1 ++ q.ws, q.fault)) (e.s, [], none)
  let e := { e with ws := r.2.1 :: e.ws }
  match r.2.2 with
  | some f => e.fail n r.1 f
  | none => { e with
      s := r.1, spans := insertSpan e.spans (b.spanKey m),
      t := if b.fm = .t2 then { e.t with scaled := insertKey e.t.scaled (m.getD b.bdim 0) } else e.t }
where
  insertSpan (l : List (List Nat)) (k : List Nat) : List (List Nat) := if l.contains k then l else k :: l

/-- Count a dropped write or stream element (R225, R530). -/
def Emit.drop (n : Nat) (e : Emit) : Emit :=
  { e with s := (e.s.bump (Reg.sipDropCnt n) 1).addCounts e.t.unit fun k => { k with drops := k.drops + 1 },
           t := { e.t with code := e.t.code.max .counts } }

/-- An out-of-bounds read (R225). -/
def Emit.oob (n : Nat) (e : Emit) (a : TD) : Emit × Option SipEl :=
  ({ e with s := e.s.bump (Reg.sipOobReadCnt n) 1 }, some ⟨a.fillCode a.fill, none⟩)

/-- One emission at coordinates `y`: of a pad element with a fill code, or of a data element (R221, R225, R226). -/
def Emit.one (n : Nat) (pad : Option Nat) (y : List Int) (e : Emit) : Emit :=
  if e.t.ended then e else
  let a := td e.t.src
  let b := td e.t.dst
  if e.t.drv then
    let got : Emit × Option SipEl := match pad with
      | some f => (e, some ⟨f, none⟩)
      | none =>
        let e' := { e with t := { e.t with pos := e.t.pos + 1 } }
        if e.t.pos < a.count then e'.read n a (a.walkAt e.t.pos) else e'.oob n a
    match got with
    | (e, none) => e
    | (e, some x) =>
      if x.side.isNone && !b.padw then e
      else match e.t.mapped b y with
        | none => e.drop n
        | some m => e.write n b m x
  else
    let got : Emit × Option SipEl := match pad with
      | some f => (e, some ⟨f, none⟩)
      | none => match e.t.mapped a y with
        | none => e.oob n a
        | some m => e.read n a m
    match got with
    | (e, none) => e
    | (e, some x) =>
      if b.count ≤ e.t.pos then e.drop n
      else
        let p := e.t.pos
        let e := { e with t := { e.t with pos := p + 1 } }
        if x.side.isNone && !b.padw then e else e.write n b (b.walkAt p) x

/-- The coordinates of emission `j`: those of the program, or free ones where the program's slot was written while it
ran (R215). -/
def emitCoords (s : State) (t : Transfer) (d j : Nat) : List Int :=
  if t.spoiled then (List.range 6).map fun i => (Config.freeEntry s.freeCtr (6 * j + i)).toInt
  else listSet t.x d (s32 (t.x.getD d 0 + j))

/-- The accesses that make up some element writes in their order: elements that are adjacent within one 128-byte row, at
most 512 bits of them, go together (R222). -/
def accesses (ws : List ElemWrite) : List (List ElemWrite) :=
  let add (l : List (List ElemWrite)) (w : ElemWrite) : List (List ElemWrite) :=
    match l with
    | g :: r =>
      let (a, e) := ((g.getLast?.map (·.1)).getD 0, (g.head?.map fun x => x.1 + x.2.1).getD 0)
      if w.1 = e ∧ w.1 / 1024 = a / 1024 ∧ w.1 + w.2.1 ≤ a + 512 then (w :: g) :: r else [w] :: l
    | [] => [[w]]
  ((ws.foldl add []).map List.reverse).reverse

/-- Write elements access by access: each that writes an uncorrectable unit in part gives 0x50 (R198, R394). -/
def State.wrAccesses (s : State) (ws : List ElemWrite) : State × Bool :=
  (accesses ws).foldl (fun (x : State × Bool) g => (x.1.wrElems g, x.2 || x.1.wrElemsBad g)) (s, false)

/-- Emit `k` elements stepping along dimension `d`: the elements are read first and written together, a later one over
an earlier one (R222, R227; log entry 46). The instruction waits while the retraining slice of a pair that it reads or
writes runs (R396). -/
def emitRun (n : Nat) (pad : Option Nat) (d k : Nat) (s : State) (t : Transfer) : State × Transfer :=
  let e := forUpto k (fun j e => e.one n pad (emitCoords s t d j)) (⟨s, t, [], [], []⟩ : Emit)
  let ws := e.ws.reverse.flatten
  let at_ := e.places ++ ws.map fun w => (w.1 / 8, (w.1 % 8 + w.2.1 + 7) / 8)
  if at_.any fun x => s.training x.1 x.2 then (s, t) else
  let (s', c) := (at_.foldl (fun s x => s.poolTouch x.1 x.2) e.s).notePlaces e.places
  let (s', bad) := s'.wrAccesses ws
  let s' := if t.spoiled then s'.drawn else s'
  (s', { e.t with code := e.t.code.max (if bad then .ecc else c) }.adv)

/-- SIP_PAD. -/
def execSipPad (n : Fin 216) (id : Nat) (s : State) : Out :=
  onProg n id 6 s fun w t =>
    emitRun n.val (some ((td t.dst).fillCode (SipInstr.fill w))) (SipInstr.dim w) (SipInstr.cnt w) s t

/-- SIP_EMIT. -/
def execSipEmit (n : Fin 216) (id : Nat) (s : State) : Out :=
  onProg n id 7 s fun w t => emitRun n.val none (SipInstr.dim w) (SipInstr.cnt w) s t

/-- SIP_WAITB: the target advances once, then the program waits at the counter's home (R218, R257, R259). -/
def execSipWaitb (n : Fin 216) (id : Nat) (s : State) : Out :=
  onProg n id 8 s fun w t =>
    let i := b2n (SipInstr.x w)
    let va := t.bar.getD i 0 % 2 ^ 48
    let tg := t.t.getD i 0 + BitVec.ofNat 32 (SipInstr.imm w)
    let t := { t with t := listSet t.t i tg }
    let fault (s : State) (c : Code) (k : Nat) : State × Transfer := (s.sipFault n.val t (c, k, va), t.stop c)
    match s.sipXlate n.val va true false with
    | (s, .fault c k) => fault s c k
    | (s, .local_ h) =>
      if !(match s.target h with | .chamber .. | .gddr .. => true | _ => false) then fault s .prot 0x10
      else if s.rdBad h 4 then (s.noteRead h 4, t.stop .ecc)
      else if ahead (s.counterAt h) tg then (s, t.adv)
      else (s.watch h tg (.sip n id), { t with waiting := true })
    | (s, .remote d a) =>
      match s.linkTo d a with
      | (s, none) => fault s .link 0x88
      | (s, some l) =>
        ((s.sendPkt l d 0 0 (s.nextReq % 65536) (globalAddr d a) (natLE 4 0 ++ natLE 4 tg.toNat)).request l d (.wait (.sip n id)),
         { t with waiting := true })

/-- SIP_END. -/
def execSipEnd (n : Fin 216) (id : Nat) (s : State) : Out :=
  onProg n id 0 s fun _ t => (s, { t with ended := true })

/-! ### Completion -/

/-- Whether a write of a transfer awaits its ack from a peer (R425). -/
def State.acksOpen (s : State) (n : Nat) (t : Transfer) : Bool :=
  s.reqs.any fun r => match r.purpose with | .xfer m u w _ => m == n && u == t.unit && w == t.work | _ => false

/-- TRANSFER_COMPLETE: a transfer whose last write is done, at peers too, writes its PACK results and completes (R225,
R229, R425). -/
def execTransferComplete (n : Fin 216) (id : Nat) (s : State) : Out :=
  match s.xfer n.val id with
  | none => .next s
  | some t =>
    if !t.ended || s.acksOpen n.val t then .next s else
    let packed := t.mode = .pack ∨ t.mode = .unpack
    let c := if packed ∧ s.wrBad (t.result + 0x20) 16 then t.code.max .ecc else t.code
    let s := if packed then s.wr (t.result + 0x20) (natLE 8 t.tiles ++ natLE 8 t.bytes) else s
    let s := s.onSiph n.val fun q => { q with transfers := q.transfers.filter fun x => x.id != id }
    .next (s.endWork (SeqId.ofNum t.unit) t.work c)

/-- TLB_WALK_DONE: a walk of the run-ahead of a siphon with an active transfer fills its TLB (R233). -/
def execTlbWalkDone (n : Fin 216) (va : BitVec 48) (s : State) : Out :=
  if (s.siph n.val).transfers.isEmpty || inChamberWindow va.toNat then .next s
  else .next (s.sipLookup n.val va.toNat).1

/-- Drop every TLB entry of every siphon (R234). -/
def State.dropTlbs (s : State) : State := forUpto 216 (fun n s => s.onSiph n fun q => { q with tlb := [] }) s

/-- TLB_INV (R234, log entry 15). -/
def execTlbInv (s : State) : Out := .next s.dropTlbs

end Sys2Proof.Machine
end

