-- ==== Sys2Proof/Machine/Va.lean ====
section
/-! DEFINITION. Accesses at job virtual addresses by the units that hold no TLB of their own: sequencers, update
engines, the exchange and the resilience unit (R230 to R232, R281, R346, R365, R445). -/

namespace Sys2Proof.Machine
open Sys2Proof

/-- What an access at a virtual address gave: bytes up to a fault, its code and cause, and whether an uncorrectable unit was
met. -/
structure VaRes where
  s : State
  bytes : List Byte
  fault : Option (Code × Nat)
  bad : Bool

/-- Whether some byte runs at job virtual addresses lie in a channel pair whose retraining slice runs (R396). -/
def State.vaTraining (s : State) (root : Word) (eng : Nat) (runs : List (Nat × Nat)) : Bool :=
  ((List.range 16).any fun m => s.fld (Reg.memStat m) 39 32 != 0) &&
  runs.any fun r => (List.range (r.2 / 128 + 2)).any fun i =>
    let u := r.1 / 128 * 128 + 128 * i
    decide (u < r.1 + r.2) && (match s.translate root u eng true false with | .local_ a => s.training a 1 | _ => false)

/-- The code of an access, success where it met nothing. -/
def VaRes.code (r : VaRes) : Code :=
  match r.fault with
  | some f => f.1
  | none => if r.bad then .ecc else .ok

/-- Which places a unit may reach: local GDDR7 only, or everything its leaf names. -/
inductive Reach where
  | gddr
  | any
  deriving DecidableEq, Repr

/-- Translate, and refuse with 0x20 what the unit may not reach. -/
def State.vaXlate (s : State) (root : Word) (eng : Nat) (reach : Reach) (va : Nat) (rd wr : Bool) : Xlat :=
  match s.translate root va eng rd wr with
  | .local_ a => (match reach, s.target a with
    | .any, _ => .local_ a
    | .gddr, .gddr .. => .local_ a
    | .gddr, _ => .fault .prot 0x10)
  | .remote d a => (match reach with
    | .any => .remote d a
    | .gddr => .fault .prot 0x10)
  | x => x

/-- Read `len` bytes. -/
def State.vaRead (s : State) (root : Word) (eng : Nat) (reach : Reach) (va len : Nat) : VaRes :=
  (pageSegs (len / 0x1_0000 + 2) va len).foldl (fun r (va, k) =>
    if r.fault.isSome then r else
    match r.s.vaXlate root eng reach va true false with
    | .fault c q => { r with s := r.s.noteXlat root va eng true false, fault := some (c, q) }
    | .local_ a => { r with s := r.s.noteRead a k, bytes := r.bytes ++ r.s.rdBytes a k, bad := r.bad || r.s.rdBad a k }
    | .remote d a =>
      match r.s.peerRead d a k with
      | (s, .ok, bs) => { r with s := s, bytes := r.bytes ++ bs }
      | (s, c, _) => { r with s := s, fault := some (c, 0x88) }) ⟨s, [], none, false⟩

/-- Write bytes, page by page up to a fault. -/
def State.vaWrite (s : State) (root : Word) (eng : Nat) (reach : Reach) (va : Nat) (bs : List Byte) : VaRes :=
  (pageSegs (bs.length / 0x1_0000 + 2) va bs.length).foldl (fun r (va', k) =>
    if r.fault.isSome then r else
    let part := (bs.drop (va' - va)).take k
    match r.s.vaXlate root eng reach va' false true with
    | .fault c q => { r with s := r.s.noteXlat root va' eng false true, fault := some (c, q) }
    | .local_ a => { r with s := r.s.wr a part, bad := r.bad || r.s.wrBad a k }
    | .remote d a =>
      match r.s.peerWrite d a part with
      | (s, .ok) => { r with s := s }
      | (s, c) => { r with s := s, fault := some (c, 0x88) }) ⟨s, [], none, false⟩

/-- A little-endian number read at a virtual address: 0 where the read faults. -/
def VaRes.num (r : VaRes) : Nat := leNat r.bytes

/-- The value of an element at mapped coordinates, every scale applied (R40), read through translation. -/
def State.vaElem (s : State) (root : Word) (eng : Nat) (reach : Reach) (t : TD) (m : List Nat) : VaRes × FVal :=
  let x := (t.elemBit m).toNat
  let r := s.vaRead root eng reach (x / 8) ((x % 8 + t.bits + 7) / 8)
  if r.fault.isSome then (r, .zero) else
  let c := (r.num >>> (x % 8)) % 2 ^ t.bits
  let also (r : VaRes) (va n : Nat) : VaRes × Nat :=
    if r.fault.isSome then (r, 0) else
    let q := r.s.vaRead root eng reach va n
    ({ q with bad := r.bad || q.bad }, q.num)
  let (r, w) := if t.fm = .f4x then also r (t.escAddr (t.block m)) 4 else (r, 0)
  let (r, b) := if t.hasBlocks then also r (t.scaleAddr (t.block m)) 1 else (r, 0x7F)
  let (r, q) := if t.fm = .t2 then also r (t.scaleAddr (m.getD t.bdim 0)) 1 else (r, 0x38)
  let (r, z) := if t.tsc then also r t.sptr 4 else (r, F32.one.toNat)
  let v := elemVal t.fm c w (t.blockPos m)
  let v := if t.fm = .t2 then v.mul (Fmt.e4m3.decode q) else underScale b v
  (r, v.mul (F32.val (BitVec.ofNat 32 z)))

/-- Write element writes of a tensor at virtual addresses: whole elements of 8 bits or more, and parts of bytes. -/
def State.vaPut (s : State) (root : Word) (eng : Nat) (reach : Reach) (ws : List ElemWrite) : VaRes :=
  ws.foldl (fun r (a, n, v) =>
    if r.fault.isSome then r
    else if 8 ≤ n then
      let q := r.s.vaWrite root eng reach (a / 8) (natLE (n / 8) v)
      { q with bad := r.bad || q.bad }
    else match r.s.vaXlate root eng reach (a / 8) false true with
      | .fault c q => { r with s := r.s.noteXlat root (a / 8) eng false true, fault := some (c, q) }
      | .local_ h =>
        let w : ElemWrite := (8 * h + a % 8, n, v)
        { r with s := r.s.wrElems [w], bad := r.bad || r.s.wrElemsBad [w] }
      | .remote d h =>
        -- the rest of the byte is free: it is in the peer's memory (log entry 9)
        let old := (Config.undefByte r.s.freeCtr (2 ^ 50)).toNat
        let b := old - ((old >>> (a % 8)) % 2 ^ n) <<< (a % 8) + (v % 2 ^ n) <<< (a % 8)
        match r.s.peerWrite d h [BitVec.ofNat 8 b] with
        | (s, .ok) => { r with s := s }
        | (s, c) => { r with s := s, fault := some (c, 0x88) }) ⟨s, [], none, false⟩

end Sys2Proof.Machine
end

