-- ==== Sys2Proof/Machine/Update.lean ====
section
/-! DEFINITION. The parameter update engines (spec/14_parameter_update.md): the UPD instruction, the checks of an
invocation, the recurrence of R349 with catch-up decay, the matrix preconditioners of R360 and R361, and the writes. -/

namespace Sys2Proof.Machine
open Sys2Proof

/-! ### Engines and invocations -/

def State.upd (s : State) (m : Nat) : Upd := SMap.get {} s.upds m

def State.onUpd (s : State) (m : Nat) (f : Upd → Upd) : State :=
  { s with upds := SMap.put {} s.upds m (f (s.upd m)) }

/-- Change an engine's part of the invocation it runs. -/
def State.onInv (s : State) (m : Nat) (f : Inv → Inv) : State := s.onUpd m fun u => { u with inv := u.inv.map f }

/-- Load the schedule row of a step into every engine; none where the table has no rows, or where the row cannot be
read (R351, R352; log entry 47). -/
def State.loadRow (s : State) (step : Word) : State :=
  let base := s.epFld 1067 Reg.ctlSchedBase 47 7 * 128
  let rows := min (s.epFld 1067 Reg.ctlSchedRows 20 0) 1048576
  let a := base + 128 * min step.toNat (rows - 1)
  let ok := rows != 0 && (match s.target a with | .gddr .. => true | _ => false) && (s.accessFail a).isNone && !s.rdBad a 128
  let bs := s.rdBytes a 128
  let row := if ok then
    some ((List.range 32).map fun i => BitVec.ofNat 32 (blockField bs (4 * i) 4)) else none
  let s := if rows = 0 then s else s.noteRead a 128
  forUpto 16 (fun m s => s.onUpd m fun u => { u with row := row, rowStep := step }) s

namespace Inv

def fld (v : Inv) (o n : Nat) : Nat := blockField v.block o n
def sel (v : Inv) : Nat := v.fld 0 4
def selBits (v : Inv) (hi lo : Nat) : Nat := (v.sel >>> lo) % 2 ^ (hi + 1 - lo)
def uEn (v : Inv) : Bool := v.sel.testBit 6
def vEn (v : Inv) : Bool := v.sel.testBit 7
def rdim (v : Inv) : Nat := v.selBits 8 8
def pcEn (v : Inv) : Bool := v.sel.testBit 9
def ovr (v : Inv) : Nat := v.fld 4 2
def clr (v : Inv) : Bool := (v.fld 7 1).testBit 0
def catchup (v : Inv) : Bool := (v.fld 7 1).testBit 1
def tlist (v : Inv) : Nat := v.fld 8 8
def stamp (v : Inv) : Nat := v.fld 0x10 8
def pcBlk (v : Inv) : Nat := v.fld 0x18 8
def desc (v : Inv) (o : Nat) : TD := td (BitVec.ofNat 512 (v.fld o 64))
def p (v : Inv) : TD := v.desc 0x80
def g (v : Inv) : TD := v.desc 0xC0
def u (v : Inv) : TD := v.desc 0x100
def v_ (v : Inv) : TD := v.desc 0x140

/-- Coefficient `i` (R354). -/
def coef (v : Inv) (i : Nat) : F32 :=
  if v.ovr.testBit i then v.row.getD (16 * v.fld 6 1 + i) 0 else BitVec.ofNat 32 (v.fld (0x20 + 4 * i) 4)

/-- The coordinate of an element that numbers its parameter row. -/
def rowOf (v : Inv) (m : List Nat) : Nat := m.getD v.rdim 0

/-- Rows of P. -/
def nrows (v : Inv) : Nat := max 1 (v.p.size v.rdim)

end Inv

/-- Whether a state may be updated (R347, R528). -/
def stateOk (v : Inv) (t : TD) : Bool :=
  t.ok && !t.isStream && t.sizes == v.p.sizes && !t.tsc &&
  (t.fm == .bf16 || (t.fm == .e4m3 && t.bdim != v.rdim && t.bdim != 7))

/-- The checks of an invocation (R347), with the engine's row and permission. -/
def Inv.ok (v : Inv) (rowLoaded pcAllowed : Bool) : Bool :=
  v.selBits 31 24 == 0 && v.selBits 11 11 == 0 && v.selBits 1 0 != 3 && v.selBits 3 2 != 3 &&
  v.fld 7 1 / 4 == 0 && decide (v.fld 6 1 ≤ 1) && v.fld 0x60 32 == 0 && v.fld 0x190 112 == 0 &&
  v.p.ok && !v.p.isStream && v.p.fm == .bf16 && !v.p.tsc &&
  v.g.ok && !v.g.isStream && v.g.sizes == v.p.sizes &&
  (v.g.fm == .g4 || v.g.fm == .e5m2 || v.g.fm == .bf16 || v.g.fm == .fp32) &&
  (!v.uEn || stateOk v v.u) && (!v.vEn || stateOk v v.v_) &&
  (v.ovr == 0 || rowLoaded) &&
  (!v.pcEn || (pcAllowed && v.tlist == 0 && v.p.has 1 && !v.p.has 2)) &&
  (!v.catchup || v.stamp != 0)

/-- Read 16-bit or 32-bit values and more through the update engines' permission (R346). -/
def State.updRoot (s : State) (m : Nat) : Word := s.epReg (1050 + m) Reg.sipPtRoot

/-! ### Preconditioners (R360, R361) -/

/-- A square or rectangular matrix of FP32 values, by rows. -/
abbrev Mat := List (List F32)

namespace Mat
def get (a : Mat) (i j : Nat) : F32 := (a.getD i []).getD j 0
def build (r c : Nat) (f : Nat → Nat → F32) : Mat := (List.range r).map fun i => (List.range c).map fun j => f i j

/-- A value rounded to BF16 by RNE, as FP32. -/
def bf16 (x : F32) : F32 := BitVec.ofNat 32 ((convElem .bf16 .rne (F32.val x)).code * 65536)

/-- A BF16 product accumulated under R59, in FP32; operands enter as BF16 (log entry 48). -/
def mulF (r k c : Nat) (a b : Mat) : Mat :=
  build r c fun i j => forUpto k (fun x acc =>
    ((F32.val acc).add ((F32.val (bf16 (a.get i x))).mul (F32.val (bf16 (b.get x j))))).f32) 0

/-- mm of R361: written to BF16. -/
def mm (r k c : Nat) (a b : Mat) : Mat := build r c fun i j => bf16 ((mulF r k c a b).get i j)

def trans (r c : Nat) (a : Mat) : Mat := build c r fun i j => a.get j i
def trace (n : Nat) (a : Mat) : F32 := forUpto n (fun i t => F32.add t (a.get i i)) 0
def map2 (r c : Nat) (f : Nat → Nat → F32 → F32) (a : Mat) : Mat := build r c fun i j => f i j (a.get i j)
def ident (n : Nat) : Mat := build n n fun i j => if i = j then F32.one else 0
def finite (a : Mat) : Bool := a.all fun r => r.all fun x => (F32.val x).isFin
end Mat

/-- One iteration of R361: the new X and M, and whether a non-finite value arose. -/
def rootStep (n q : Nat) (x m : Mat) : Mat × Mat × Bool :=
  let t := Mat.map2 n n (fun i j v =>
    F32.div (F32.sub (if i = j then F32.ofNat (q + 1) else 0) v) (F32.ofNat q)) m
  let x' := Mat.mm n n n x t
  let tq := forUpto (q - 1) (fun _ p => Mat.mm n n n p t) t
  let m' := Mat.mm n n n tq m
  (x', m', !(t.finite && x'.finite && m'.finite && tq.finite))

/-- The iterations: the root where one converges. -/
def rootIter (n q : Nat) (tol : F32) : Nat → Mat → Mat → Option Mat
  | 0, _, _ => none
  | k + 1, x, m =>
    let (x', m', bad) := rootStep n q x m
    if bad then none
    else if (List.range n).all fun i => (List.range n).all fun j =>
        (F32.val (F32.abs (F32.sub (m'.get i j) (if i = j then F32.one else 0)))).le (F32.val tol)
    then some x' else rootIter n q tol k x' m'

/-- What computing a root gives. -/
inductive RootRes where
  | ident
  | root (x : Mat)
  | keep

/-- The root of a statistic (R361, R362). -/
def rootOf (n q maxIt : Nat) (epsD tol : F32) (a : Mat) : RootRes :=
  let tr := Mat.trace n a
  if (F32.val tr).isZero then .ident
  else
    let damp := F32.mul epsD (F32.div tr (F32.ofNat n))
    let a1 := Mat.map2 n n (fun i j v => if i = j then F32.add v damp else v) a
    let t1 := Mat.trace n a1
    if !(F32.val t1).isFin || (F32.val t1).le .zero || !a1.finite then .keep
    else
      let c := F32.invRoot q t1
      let inv := F32.div F32.one t1
      let x := Mat.map2 n n (fun _ _ v => F32.mul c v) (Mat.ident n)
      let m := Mat.map2 n n (fun _ _ v => F32.mul v inv) a1
      match rootIter n q tol maxIt x m with
      | some r => .root r
      | none => .keep

/-- The four descriptors of a preconditioner block. -/
structure PcBlk where
  dl : TD
  dr : TD
  dlr : TD
  drr : TD

/-- The shape rules of R360. -/
def PcBlk.ok (b : PcBlk) (v : Inv) : Bool :=
  let br := b.dl.size 1
  let bc := b.dr.size 1
  let r := v.nrows
  let c := max 1 (v.p.size (1 - v.rdim))
  let nb := ((r + br - 1) / br) * ((c + bc - 1) / bc)
  let one (t : TD) (n : Nat) : Bool :=
    t.ok && !t.isStream && t.fm == .bf16 && t.has 2 && !t.has 3 && t.size 0 == nb && t.size 1 == n && t.size 2 == n
  one b.dl br && one b.dr bc && one b.dlr br && one b.drr bc && decide (br ≤ 128) && decide (bc ≤ 128)

/-- Read the preconditioner block. -/
def State.pcRead (s : State) (m : Nat) (v : Inv) : VaRes × PcBlk :=
  let r := s.vaRead (s.updRoot m) 2 .gddr v.pcBlk 256
  let d (i : Nat) : TD := td (BitVec.ofNat 512 (blockField r.bytes (64 * i) 64))
  (r, ⟨d 0, d 1, d 2, d 3⟩)

/-- What phase 1 has done so far; a faulting element stops it (R346). -/
structure Pc where
  s : State
  code : Code
  gt : List (Nat × F32)
  stop : Bool

/-- A matrix read element by element, zero outside the tensor; an element that faults stops phase 1. -/
def Pc.read (x : Pc) (m : Nat) (t : TD) (n : Nat) (at_ : Nat → Nat → Option (List Nat)) (k : Nat) : Pc × Mat :=
  (List.range n).foldl (fun (x, a) i =>
    let row := (List.range k).foldl (fun (y : Pc × List F32) j =>
      match at_ i j with
      | none => (y.1, y.2 ++ [0])
      | some co =>
        if y.1.stop then (y.1, y.2 ++ [0]) else
        let r := y.1.s.vaElem (y.1.s.updRoot m) 2 .gddr t co
        ({ y.1 with s := r.1.s, code := y.1.code.max r.1.code, stop := r.1.fault.isSome }, y.2 ++ [r.2.f32])) (x, [])
    (row.1, a ++ [row.2])) (x, [])

/-- Write a matrix as BF16 into block `b` of a tensor, by SR from its drip slot where a key is given: what stands there
afterwards. Elements that saturate are counted (R51), and a tensor scale is written with its amax slot (R209). -/
def Pc.write (x : Pc) (m unit : Nat) (t : TD) (b n : Nat) (key : Option DripKey) (a : Mat) : Pc × Mat :=
  if x.stop then (x, a) else
  let d : ConvDst := ⟨t, key, x.s.dstT t⟩
  let el (i j : Nat) : Elem := convElem .bf16 (d.rnd [b, i, j]) (tensorScaled (a.get i j) d.tx)
  let ij := (List.range n).flatMap fun i => (List.range n).map fun j => (i, j)
  let o : BlockOut :=
    { codes := ij.map fun (i, j) => ([b, i, j], (el i j).code), clips := (ij.filter fun (i, j) => (el i j).clip).length }
  let r := x.s.vaPut (x.s.updRoot m) 2 .gddr (d.writes o)
  let s := (r.s.amaxNote t (ij.map fun (i, j) => a.get i j)).addCounts unit fun k => { k with clips := k.clips + o.clips }
  ({ x with s := s, code := (x.code.max r.code).max (if o.clips = 0 then .ok else .counts), stop := r.fault.isSome },
   Mat.build n n fun i j => ((F32.val (BitVec.ofNat 32 ((el i j).code * 65536))).scale d.tx).f32)

/-- The root of one statistic written to its tensor, kept where it does not converge. -/
def Pc.root (x : Pc) (m : Nat) (v : Inv) (t : TD) (b n : Nat) (a old : Mat) : Pc × Mat :=
  if x.stop then (x, old) else
  match rootOf n (if v.selBits 10 10 = 1 then 4 else 2) v.maxIt (v.coef 12) (v.coef 15) a with
  | .ident => ({ x with s := x.s.bump (Reg.updPcIdentCnt m) 1 } : Pc).write m v.unit t b n none (Mat.ident n)
  | .root r => x.write m v.unit t b n none r
  | .keep => ({ x with s := x.s.bump (Reg.updNconvCnt m) 1, code := x.code.max .notConv }, old)

/-- One block of phase 1 (R361): the products, the statistics by SR, the roots that are due, and the block's
preconditioned gradient. -/
def pcBlock (m : Nat) (v : Inv) (pb : PcBlk) (b : Nat) (x : Pc) : Pc :=
  if x.stop then x else
  let br := pb.dl.size 1
  let bc := pb.dr.size 1
  let r := v.nrows
  let c := max 1 (v.p.size (1 - v.rdim))
  let perRow := (c + bc - 1) / bc
  let r0 := b / perRow * br
  let c0 := b % perRow * bc
  let co (i j : Nat) : Option (List Nat) :=
    if r0 + i < r ∧ c0 + j < c then
      some ((if v.rdim = 0 then [r0 + i, c0 + j] else [c0 + j, r0 + i]).take v.p.ndims) else none
  let inner (i j : Nat) : Option (List Nat) := some [b, i, j]
  let (x, g0) := x.read m v.g br co bc
  let gb := Mat.map2 br bc (fun _ _ y => F32.mul (v.coef 0) y) g0
  let (x, l0) := x.read m pb.dl br inner br
  let (x, q0) := x.read m pb.dr bc inner bc
  let (x, lr) := x.read m pb.dlr br inner br
  let (x, rr) := x.read m pb.drr bc inner bc
  let gbt := Mat.trans br bc gb
  let upd (n : Nat) (old new : Mat) : Mat :=
    Mat.map2 n n (fun i j y => F32.add (F32.mul (v.coef 13) y) (F32.mul (v.coef 14) (new.get i j))) old
  let (x, l) := x.write m v.unit pb.dl b br (some (x.s.dripKey pb.dl.drip v.drip)) (upd br l0 (Mat.mm br bc br gb gbt))
  let (x, q) := x.write m v.unit pb.dr b bc (some (x.s.dripKey pb.dr.drip v.drip)) (upd bc q0 (Mat.mm bc br bc gbt gb))
  let due := v.selBits 23 16 = 0 ∨ v.step.toNat % v.selBits 23 16 = 0
  let (x, lr) := if due then x.root m v pb.dlr b br l lr else (x, lr)
  let (x, rr) := if due then x.root m v pb.drr b bc q rr else (x, rr)
  let gt := Mat.mulF br bc bc (Mat.mm br br bc lr gb) rr
  let els := (List.range br).flatMap fun i => (List.range bc).filterMap fun j =>
    (co i j).map fun mm => (v.p.linear mm, gt.get i j)
  if x.stop then x else { x with gt := x.gt ++ els }

/-! ### The recurrence (R349, R358) -/

/-- pw of R358. -/
def pw : Nat → F32 → F32 → Nat → F32
  | 0, r, _, _ => r
  | k + 1, r, b, d => if d = 0 then r else pw k (if d % 2 = 1 then F32.mul r b else r) (F32.mul b b) (d / 2)

/-- sign of R349: +1, -1, +0 for a zero, NaN for a NaN. -/
def signOf (x : F32) : F32 :=
  match F32.val x with
  | .nan => F32.nan
  | .inf s => if s then 0xBF80_0000 else F32.one
  | .fin s m _ => if m = 0 then 0 else if s then 0xBF80_0000 else F32.one

/-- The recurrence of R349: the new parameter and states. -/
def updStep (v : Inv) (kg p g u w : F32) : F32 × F32 × F32 :=
  let k := v.coef
  let g1 := F32.add (F32.mul g kg) (F32.mul p (k 1))
  let un := F32.add (F32.mul (k 2) u) (F32.mul (k 3) g1)
  let ph := match v.selBits 1 0 with | 1 => F32.mul g1 g1 | 2 => F32.abs g1 | _ => 0
  let vn := F32.add (F32.mul (k 4) w) (F32.mul (k 5) ph)
  let ps := match v.selBits 3 2 with
    | 1 => F32.div F32.one (F32.add (F32.sqrt vn) (k 8))
    | 2 => F32.div F32.one (F32.add vn (k 8))
    | _ => F32.one
  let d := F32.mul (F32.add (F32.mul (k 6) un) (F32.mul (k 7) g1)) ps
  let d := if v.selBits 4 4 = 1 then signOf d else d
  let lo : F32 := k 9 ^^^ 0x8000_0000
  let d := if v.selBits 5 5 = 1 && !F32.isNaN d then
      (let d := if (F32.val d).lt (F32.val lo) then lo else d
       if (F32.val (k 9)).lt (F32.val d) then k 9 else d) else d
  let dec := F32.sub F32.one (F32.mul (k 10) (k 11))
  (F32.sub (F32.mul p dec) (F32.mul (k 10) d), un, vn)

/-- The rows that an invocation updates, in walk order (R355, R357); which they are is free where an access against R348
has met the list. -/
def State.updRows (s : State) (m : Nat) (v : Inv) : VaRes × List Nat :=
  if v.tlist = 0 then (⟨s, [], none, false⟩, List.range v.nrows)
  else
    let h := s.vaRead (s.updRoot m) 2 .gddr v.tlist 8
    if h.fault.isSome then (h, []) else
    let hdr : Word := BitVec.ofNat 64 h.num
    let span := if bits 63 63 hdr = 1 then 128 else 1
    let n := min (bits 31 0 hdr) ((v.nrows + span - 1) / span)
    let b := h.s.vaRead (h.s.updRoot m) 2 .gddr (v.tlist + 0x40) ((n + 63) / 64 * 8)
    ({ b with bad := b.bad || h.bad },
     if b.fault.isSome then [] else
     let met := !(meet v.race [(v.tlist, 0x40 + (n + 63) / 64 * 8)]).isEmpty
     ((List.range n).filter fun i => if met then (Config.freeEntry b.s.freeCtr i).getLsbD 0 else b.num.testBit i).flatMap fun i =>
       (List.range span).filterMap fun j => if i * span + j < v.nrows then some (i * span + j) else none)

/-- Δ of a row (R358). -/
def State.catchDelta (s : State) (m : Nat) (v : Inv) (row : Nat) : VaRes × Nat :=
  let r := s.vaRead (s.updRoot m) 2 .gddr (v.stamp + 4 * row) 4
  let d := (v.step.setWidth 32 - BitVec.ofNat 32 r.num - 1 : BitVec 32)
  (r, if d.toInt < 0 then 0 else d.toNat)

/-- What an engine has done with its elements so far. -/
structure UpdRun where
  s : State
  v : Inv
  stopped : Bool

/-- Stop the engine with a code. -/
def UpdRun.stop (r : UpdRun) (s : State) (c : Code) : UpdRun := ⟨s, { r.v with code := r.v.code.max c }, true⟩

/-- The memory controller that holds an element of P, by its translated address (R345); none where it faults. -/
def State.granule (s : State) (m : Nat) (t : TD) (co : List Nat) : Option Nat :=
  match s.translate (s.updRoot m) ((t.elemBit co).toNat / 8) 2 true false with
  | .local_ a => (match s.target a with | .gddr k _ => some k | _ => none)
  | _ => none

/-- The bytes that an element of a tensor takes its value from, by job virtual address. -/
def TD.elemRuns (t : TD) (co : List Nat) : List (Nat × Nat) :=
  let x := (t.elemBit co).toNat
  (x / 8, (x % 8 + t.bits + 7) / 8) :: (if t.hasBlocks then [(t.scaleAddr (t.block co), 1)] else []) ++
    (if t.tsc then [(t.sptr, 4)] else [])

/-- Whether an access against R348 has met what an element is computed from, or the stamp of its row. -/
def Inv.met (v : Inv) (co : List Nat) : Bool :=
  !v.race.isEmpty && !(meet v.race (v.p.elemRuns co ++ v.g.elemRuns co ++
    (if v.uEn then v.u.elemRuns co else []) ++ (if v.vEn then v.v_.elemRuns co else []) ++
    (if v.catchup then [(v.stamp + 4 * v.rowOf co, 4)] else []))).isEmpty

/-- The places of an element's E4M3 states, which are written in whole blocks once the engines have finished: one that the
engine may not write stops it at the element (R346, R359). -/
def State.stateFault (s : State) (root : Word) (v : Inv) (co : List Nat) : Option (State × Code) :=
  let one (t : TD) : List Nat := if t.fm = .bf16 then [] else
    (t.elemBit co).toNat / 8 :: (if t.hasBlocks then [t.scaleAddr (t.block co)] else [])
  ((if v.uEn then one v.u else []) ++ (if v.vEn then one v.v_ else [])).findSome? fun va =>
    match s.vaXlate root 2 .gddr va false true with
    | .fault c _ => some (s.noteXlat root va 2 false true, c)
    | _ => none

/-- Update one element: read, compute, and write P and the BF16 states; E4M3 states are kept for their blocks (R349,
R357 to R359); values that an access against R348 has met are free. An element that no controller holds stops the engine that its virtual address names (log entry 49). -/
def UpdRun.elem (m : Nat) (gts : List (Nat × F32)) (delta : Nat) (co : List Nat) (r : UpdRun) : UpdRun :=
  if r.stopped then r else
  let v := r.v
  let t := v.p
  let own := (r.s.granule m t co).getD (gddrCtl ((t.elemBit co).toNat / 8))
  if own ≠ m then r else
  let root := r.s.updRoot m
  let rp := r.s.vaElem root 2 .gddr t co
  if let some f := rp.1.fault then r.stop rp.1.s f.1 else
  let rg := rp.1.s.vaElem root 2 .gddr v.g co
  if let some f := rg.1.fault then r.stop rg.1.s f.1 else
  let ru := if v.uEn then rg.1.s.vaElem root 2 .gddr v.u co else (⟨rg.1.s, [], none, false⟩, .zero)
  if let some f := ru.1.fault then r.stop ru.1.s f.1 else
  let rv := if v.vEn then ru.1.s.vaElem root 2 .gddr v.v_ co else (⟨ru.1.s, [], none, false⟩, .zero)
  if let some f := rv.1.fault then r.stop rv.1.s f.1 else
  let bad := rp.1.bad || rg.1.bad || ru.1.bad || rv.1.bad
  let e := t.linear co
  let g := if v.pcEn then (match gts.find? fun x => x.1 == e with
      | some x => x.2
      | none => Config.freeEntry (rv.1.s.freeCtr) e) else rg.2.f32
  let decay (k : F32) (x : F32) : F32 := if delta = 0 then x else F32.mul x (pw 33 F32.one k delta)
  let n := rv.1.s.freeCtr
  let (pn, un, vn) := if v.met co then
      ((Config.freeEntry n (3 * e), Config.freeEntry n (3 * e + 1), Config.freeEntry n (3 * e + 2)) : F32 × F32 × F32)
    else updStep v (if v.pcEn then F32.one else v.coef 0) rp.2.f32 g
      (decay (v.coef 2) ru.2.f32) (decay (v.coef 4) rv.2.f32)
  let s := if v.met co then rv.1.s.drawn else rv.1.s
  if let some f := s.stateFault root v co then r.stop f.1 f.2 else
  let conv (d : TD) (x : F32) : Elem :=
    convElem .bf16 (.sr 16 ((s.dripKey d.drip v.drip).draw 16 (d.linear co))) (F32.val x)
  let one (d : TD) (x : F32) : List ElemWrite × Bool :=
    if d.fm = .bf16 then (let c := conv d x; ([d.put co c.code], c.clip)) else ([], false)
  let (wp, kp) := one t pn
  let (wu, ku) := if v.uEn then one v.u un else ([], false)
  let (wv, kv) := if v.vEn then one v.v_ vn else ([], false)
  let w := s.vaPut root 2 .gddr (wp ++ wu ++ wv)
  if let some f := w.fault then r.stop w.s f.1 else
  let clips := b2n kp + b2n ku + b2n kv
  let s := (w.s.bump (Reg.updElemCnt m) 1).bump (Reg.updNonfinCnt m)
    (b2n !(Fmt.bf16.decode (conv t pn).code).isFin)
  let s := s.addCounts v.unit fun k => { k with clips := k.clips + clips }
  let row := v.rowOf co
  let s := if v.rows.contains row then s else s.bump (Reg.updRowCnt m) 1
  ⟨s, { v with
      rows := insertKey v.rows row
      news := v.news ++ (if v.uEn && v.u.fm != .bf16 then [(1, e, un)] else []) ++
        (if v.vEn && v.v_.fm != .bf16 then [(2, e, vn)] else []),
      code := (v.code.max (if clips = 0 then .ok else .counts)).max (if bad || w.bad then .ecc else .ok) }, false⟩

/-- The elements of P in a row, ascending (R357). -/
def Inv.rowElems (v : Inv) (row : Nat) : List (List Nat) :=
  ((List.range v.p.count).map v.p.coords).filter fun co => v.rowOf co == row

/-- One row of an engine's walk. -/
def UpdRun.row (m : Nat) (gts : List (Nat × F32)) (row : Nat) (r : UpdRun) : UpdRun :=
  if r.stopped then r else
  let mine := r.v.rowElems row |>.any fun co =>
    ((r.s.granule m r.v.p co).getD (gddrCtl ((r.v.p.elemBit co).toNat / 8))) == m
  if !mine then r else
  let d := if r.v.catchup then r.s.catchDelta m r.v row else (⟨r.s, [], none, false⟩, 0)
  match d.1.fault with
  | some f => r.stop d.1.s f.1
  | none =>
    let r : UpdRun := ⟨d.1.s, { r.v with code := r.v.code.max (if d.1.bad then .ecc else .ok) }, false⟩
    (r.v.rowElems row).foldl (fun r co => r.elem m gts d.2 co) r

/-! ### The end of an invocation -/

/-- The engines whose parts belong to one invocation. -/
def State.partsOf (s : State) (unit work : Nat) : List (Nat × Inv) :=
  (List.range 16).filterMap fun m => match (s.upd m).inv with
    | some v => if v.unit = unit ∧ v.work = work then some (m, v) else none
    | none => none

/-- Write the E4M3 blocks of one state that hold an updated element, whole, elements that were not updated at their
old values (R359, log entry 50). -/
def State.writeState (s : State) (m : Nat) (v : Inv) (t : TD) (vals : List (Nat × F32)) : State × Code :=
  let blocks := (vals.map fun x => t.block (t.coords x.1)).eraseDups
  blocks.foldl (fun (s, c) b =>
    let members := ((List.range t.count).map t.coords).filter fun co => t.block co == b
    let got := members.foldl (fun (x : State × Code × List ConvEl) co =>
      match vals.find? fun y => y.1 == t.linear co with
      | some y => (x.1, x.2.1, x.2.2 ++ [⟨co, F32.val y.2⟩])
      | none =>
        let r := x.1.vaElem (x.1.updRoot m) 2 .gddr t co
        (r.1.s, x.2.1.max r.1.code, x.2.2 ++ [⟨co, r.2⟩])) (s, c, [])
    let s := got.1
    let d : ConvDst := ⟨t, some (s.dripKey t.drip v.drip), 0⟩
    let o := convBlock d b (rowExp .e4m3 (got.2.2.map (·.v))) got.2.2
    let ws := o.codes.map (fun x => t.put x.1 x.2) ++ o.scales.map fun x => (8 * t.scaleAddr x.1, 8, x.2)
    let r := s.vaPut (s.updRoot m) 2 .gddr ws
    let s := r.s.addCounts v.unit fun k => { k with clips := k.clips + o.clips }
    (s, (got.2.1.max r.code).max (if o.clips = 0 then .ok else .counts))) (s, .ok)

/-- Write the stamps of the updated rows, each counted in the engine whose granules hold the stamp word (R358). -/
def State.writeStamps (s : State) (m : Nat) (v : Inv) (rows : List Nat) : State × Code :=
  rows.foldl (fun (s, c) row =>
    let d := s.catchDelta m v row
    let va := v.stamp + 4 * row
    let owner := match d.1.s.translate (d.1.s.updRoot m) va 2 true false with
      | .local_ a => gddrCtl a
      | _ => gddrCtl va
    let w := d.1.s.vaWrite (d.1.s.updRoot m) 2 .gddr va (natLE 4 (v.step.toNat % 2 ^ 32))
    let s := if d.2 = 0 ∨ w.fault.isSome then w.s else w.s.bump (Reg.updCatchupCnt owner) 1
    (s, (c.max d.1.code).max w.code)) (s, .ok)

/-- Clear the whole bitmap of the touched list (R357). -/
def State.clearList (s : State) (m : Nat) (v : Inv) : State × Code :=
  let h := s.vaRead (s.updRoot m) 2 .gddr v.tlist 8
  if h.fault.isSome then (h.s, h.code) else
  let n := bits 31 0 (BitVec.ofNat 64 h.num : Word)
  let w := h.s.vaWrite (h.s.updRoot m) 2 .gddr (v.tlist + 0x40) (List.replicate ((n + 63) / 64 * 8) 0)
  (w.s, h.code.max w.code)

/-- End an invocation whose named engines have all finished: E4M3 blocks, stamps, the touched list, and the code of
highest rank (R314, R357 to R359). -/
def State.endUpd (s : State) (unit work : Nat) : State :=
  let ps := s.partsOf unit work
  match ps with
  | [] => s
  | (m, v) :: _ =>
    let ran := ps.any fun x => x.2.code != .desc
    let c := ps.foldl (fun c x => c.max x.2.code) Code.ok
    let news (i : Nat) : List (Nat × F32) := ps.flatMap fun x => (x.2.news.filter fun y => y.1 == i).map (·.2)
    let (s, c) := if !ran then (s, c) else
      let (s, c1) := s.writeState m v v.u (news 1)
      let (s, c2) := s.writeState m v v.v_ (news 2)
      let rows := ps.foldl (fun l x => x.2.rows.foldl insertKey l) []
      let (s, c3) := if v.catchup then s.writeStamps m v rows else (s, .ok)
      let (s, c4) := if v.clr && v.tlist != 0 then s.clearList m v else (s, .ok)
      (s, (((c.max c1).max c2).max c3).max c4)
    let s := ps.foldl (fun s x => s.onUpd x.1 fun u => { u with inv := none }) s
    s.endWork (SeqId.ofNum unit) work c

/-- End the invocation once every engine that its mask names has finished. -/
def State.checkUpd (s : State) (unit work mask : Nat) : State :=
  if (List.range 16).all fun m => !mask.testBit m ||
      (match (s.upd m).inv with | some v => v.unit == unit && v.work == work && v.done | none => false)
  then s.endUpd unit work else s

/-! ### The commands -/

/-- UPD: OPT[15:0] names the engines; an empty mask is refused (R314). -/
def execUpd (w : Issue) (fd : SReg) (a1 : AReg) (opt : Opt) (s : State) : Out :=
  issueTensor w fd (.upd w fd a1 opt) (if w.u.isCp then undefIf (ob opt 17 16 != 0) else some 0x81) s fun k s =>
    let k := { k with vals := [((s.seq w.u).getA a1).zeroExtend 64] }
    (if ob opt 15 0 = 0 then k.refused else k, s)

/-- Switch a unit through every epoch up to the last (R341). -/
def State.switchAll (s : State) (u : Nat) : State := { s with unitEpoch := SMap.put 0 s.unitEpoch u s.epoch }

/-- The UPD work of a control processor whose part an engine takes up next. -/
def nextUpd (s : State) (m : Nat) (q : Seq) : Option (Work × Nat) :=
  q.works.findSome? fun w =>
    match w.instr, w.status with
    | .upd _ _ _ opt, .queued => if (ob opt 15 0).testBit m then some (w, ob opt 15 0) else none
    | .upd _ _ _ opt, .running =>
      if (ob opt 15 0).testBit m && (match (s.upd m).inv with | none => true | some _ => false)
      then some (w, ob opt 15 0) else none
    | _, _ => none

/-- The byte runs, by job virtual address, that an invocation only reads. -/
def Inv.readRuns (v : Inv) : List (Nat × Nat) :=
  v.g.bytes ++ (if v.tlist = 0 then [] else [(v.tlist, 0x40 + (v.nrows + 63) / 64 * 8)]) ++
    (if v.catchup then [(v.stamp, 4 * v.nrows)] else [])

/-- The byte runs of the parameters and states that an invocation updates. -/
def Inv.writeRuns (v : Inv) : List (Nat × Nat) :=
  v.p.bytes ++ (if v.uEn then v.u.bytes else []) ++ (if v.vEn then v.v_.bytes else [])

/-- What two invocations share that one of them writes (R348). -/
def Inv.share (v w : Inv) : List (Nat × Nat) := meet v.writes (w.reads ++ w.writes) ++ meet v.reads w.writes

/-- An engine takes up its part of an invocation; what it shares with another running invocation is free in both. -/
def State.takeInv (s : State) (m : Nat) (v : Inv) : State :=
  let mine (w : Inv) : Bool := w.unit == v.unit && w.work == v.work
  let clash (e : Nat × Upd) : List (Nat × Nat) :=
    match e.2.inv with
    | some w => if mine w || s.updRoot m != s.updRoot e.1 then [] else v.share w
    | none => []
  let v := { v with race := v.race ++ s.upds.flatMap clash }
  let s : State := { s with upds := s.upds.map fun e => (e.1, { e.2 with inv := e.2.inv.map fun w =>
    { w with race := w.race ++ clash e } }) }
  s.onUpd m fun x => { x with inv := some v }

/-- Whether every engine that an invocation's mask names permits preconditioners, by the epoch it starts the invocation in
(R347, R363). -/
def State.pcAllowed (s : State) (mask : Nat) : Bool :=
  (List.range 16).all fun i => !mask.testBit i || (s.switchAll (1050 + i)).epFld (1050 + i) (Reg.updCfg i) 0 0 == 1

/-- Block `b` of an invocation falls to engine `b mod 16`: whether every named engine that a block falls to is lent a
grotto. -/
def Inv.lent (v : Inv) (mask nb : Nat) : Bool :=
  (List.range 16).all fun i => !mask.testBit i || decide (nb ≤ i) || decide (v.fld (0x180 + i) 1 ≤ 99)

/-- UPD_ENGINE_START: an idle engine takes up its part of an invocation: its epoch's configuration, the block, the
checks, and its copy of the schedule row (R341, R346, R347, R353). The first engine that finds a check failed refuses the
whole invocation, and nothing is written; the checks of all named engines are its own (log entry 123). An
engine that no block falls to has no phase 1 (R361). -/
def execUpdEngineStart (m : Fin 16) (n : Fin 4) (s : State) : Out :=
  let u := SeqId.cp n
  let q := s.seq u
  if (s.upd m.val).inv.isSome || !s.domUp 3 || s.isOff 7 (34 + m.val) then .next s else
  match nextUpd s m.val q with
  | none => .next s
  | some (w, mask) =>
    if !s.mayStart q w then .next s else
    let s := s.switchAll (1050 + m.val)
    let i := (w.vals.getD 0 0).toNat
    let a := sramBase + 4 * i
    let placed := i % 32 == 0 && decide (i + 128 ≤ storeWords u)
    let bad := placed && s.rdBad a 512
    let cfg := s.epReg (1050 + m.val) (Reg.updCfg m.val)
    let begun := ((s.partsOf u.num w.seq).head?).map (·.2)
    let row := match begun with | some p => some p.row | none => (s.upd m.val).row
    let v : Inv :=
      { unit := u.num, work := w.seq, block := if placed then s.rdBytes a 512 else [],
        row := row.getD [], step := q.step, drip := q.stepNow.toNat, maxIt := 0, phase1 := false, done := false,
        gt := [], news := [], rows := [], code := .ok }
    let it := v.selBits 15 12
    let def_ := if bits 11 8 cfg = 0 then 12 else bits 11 8 cfg
    let v := { v with maxIt := if it = 0 then def_ else it, reads := v.readRuns, writes := v.writeRuns }
    let s := (if placed then s.noteRead a 512 else s).runWork u w.seq
    let stop (s : State) (c : Code) : Out :=
      .next ((s.onUpd m.val fun x => { x with inv := some { v with done := true, code := c, reads := [], writes := [] } }).checkUpd
        u.num w.seq mask)
    let refuse (s : State) : Out := if begun.isSome then stop s .desc else .next (s.endWork u w.seq .desc)
    if bad then stop s .ecc
    else if !(placed && v.ok row.isSome (begun.isSome || s.pcAllowed mask)) then refuse s
    else if v.pcEn then
      let (r, pb) := s.pcRead m.val v
      if r.fault.isSome then stop r.s r.code
      else if !pb.ok v ∨ !v.lent mask (pb.dl.size 0) then refuse r.s
      else .next (r.s.takeInv m.val { v with phase1 := decide (m.val < pb.dl.size 0), code := if r.bad then .ecc else .ok })
    else .next (s.takeInv m.val v)

/-- Chambers whose contents outside quad 0 become undefined: fresh free bytes (R361). -/
def State.undefChamber (s : State) (c : Nat) : State :=
  let b := chamberBase c
  let inside (a : Nat) : Bool := decide (b + 0x2_0000 ≤ a) && decide (a < b + 0x20_0000)
  { s.drawn with mem := s.mem.keep fun a => !inside a, poison := s.poison.filter fun a => !inside a,
                 fresh := s.fresh.filter fun a => !inside a,
                 chGen := SMap.put 0 s.chGen c (s.freeCtr + 1) }

/-- UPD_PHASE1_START: an engine takes its lent grotto once the eight cores run no program, and computes the blocks
that fall to it: block b falls to engine b mod 16 (R361). A fault ends the engine's part (R346). The cores are held within
this one command, so no other command meets a held grotto (log entry 117). -/
def execUpdPhase1Start (m : Fin 16) (s : State) : Out :=
  match (s.upd m.val).inv with
  | none => .next s
  | some v =>
    if !v.phase1 || v.done || s.vaTraining (s.updRoot m.val) 2 v.reads then .next s else
    let g := v.fld (0x180 + m.val) 1
    let cores := (List.range 800).filter fun c => grottoOf c == g
    if cores.any fun c => (s.seq (SeqId.ofNum c)).run != .idle then .next s
    else if cores.any s.coreOff then .next (s.onInv m.val fun v => { v with phase1 := false, done := true, code := v.code.max .aborted })
    else
      let (r, pb) := s.pcRead m.val v
      let nb := pb.dl.size 0
      let x := forUpto nb (fun b x => if b % 16 = m.val then pcBlock m.val v pb b x else x) (⟨r.s, r.code, [], r.fault.isSome⟩ : Pc)
      let s := cores.foldl State.undefChamber x.s
      .next (s.onInv m.val fun v => { v with phase1 := false, done := x.stop, gt := x.gt, code := v.code.max x.code })

/-- UPD_ENGINE_DONE: an engine finishes its elements of the touched units; the last of the named engines ends the
invocation (R345, R346, R357). Elements whose block no named engine handled have a free preconditioned gradient. -/
def execUpdEngineDone (m : Fin 16) (s : State) : Out :=
  match (s.upd m.val).inv with
  | none => .next s
  | some v =>
    let u := SeqId.ofNum v.unit
    let mask := match (s.seq u).works.find? fun w => w.seq == v.work with
      | some w => (match w.instr with | .upd _ _ _ opt => ob opt 15 0 | _ => 0)
      | none => 0
    let ps := s.partsOf v.unit v.work
    let all := (List.range 16).all fun i => !mask.testBit i || ps.any fun x => x.1 == i && (!x.2.phase1 || x.2.done)
    if v.phase1 || (v.pcEn && !all) || (!v.done && s.vaTraining (s.updRoot m.val) 2 (v.reads ++ v.writes)) then .next s
    else if v.done then .next (s.checkUpd v.unit v.work mask)
    else
      let gts := ps.flatMap fun x => x.2.gt
      let (t, rows) := s.updRows m.val v
      let r : UpdRun := match t.fault with
        | some f => ⟨t.s, { v with code := v.code.max f.1 }, true⟩
        | none => rows.foldl (fun r i => r.row m.val gts i) ⟨t.s, { v with code := v.code.max (if t.bad then .ecc else .ok) }, false⟩
      let s := if v.pcEn then r.s.drawn else r.s
      .next ((s.onInv m.val fun _ => { r.v with done := true }).checkUpd v.unit v.work mask)

end Sys2Proof.Machine
end

