-- ==== Sys2Proof/Machine/Commands.lean ====
section
/-! DEFINITION. Commands, queues and pools (spec/13_command_processing.md): the rings, the life of a command, its operations
and its completion record; core launches; pools; the configuration epochs that commits and fences use. -/

namespace Sys2Proof.Machine
open Sys2Proof

/-! ### Rings (R320 to R325) -/

/-- The first local address of a ring. -/
def ringBase (cfg : Word) : Nat := bits 47 12 cfg * 4096

/-- s32(a - b) (R322). -/
def dist32 (a b : Nat) : Int := (BitVec.ofNat 32 a - BitVec.ofNat 32 b).toInt

def State.sqHead (s : State) (q : Nat) : Nat := s.fld (Reg.ctlSqStat q) 31 0
def State.sqTail (s : State) (q : Nat) : Nat := s.fld (Reg.ctlSqDoorbell q) 31 0
def State.sqCq (s : State) (q : Nat) : Nat := s.fld (Reg.ctlSqCfg q) 55 48

/-- Whether a completion ring is enabled; there are 64. -/
def State.cqOn (s : State) (c : Nat) : Bool := decide (c < 64) && s.bit (Reg.ctlCqCfg c) 63

/-- Whether a completion ring has no room (R331). -/
def State.cqFull (s : State) (c : Nat) : Bool :=
  decide ((ringSize (s.reg (Reg.ctlCqCfg c)) : Int) ≤ dist32 (s.fld (Reg.ctlCqTail c) 31 0) (s.fld (Reg.ctlCqHead c) 31 0))

/-- Stop a queue with a reason; a queue that is stopped keeps its first reason. -/
def State.stopQueue (s : State) (q reason : Nat) : State :=
  let o := Reg.ctlSqStat q
  if s.bit o 63 then s else (s.setFld o 55 48 reason).setFld o 63 63 1

/-- Count a rejected doorbell or head write. -/
def State.ringErr (s : State) : State := s.bump Reg.ctlRingErrCnt 1

/-- SQ_DOORBELL: the submission tail `t` of queue `q` (R323, R324). -/
def execSqDoorbell (q : Fin 64) (t : BitVec 32) (s : State) : Out :=
  let d := dist32 t.toNat (s.sqHead q.val)
  if !s.domUp 4 then .next s
  else if d ≤ 0 ∨ dist32 t.toNat (s.sqTail q.val) < 0 then .next s.ringErr
  else if (ringSize (s.reg (Reg.ctlSqCfg q.val)) : Int) < d then .next ((s.stopQueue q.val 1).ringErr)
  else .next (s.setFld (Reg.ctlSqDoorbell q.val) 31 0 t.toNat)

/-- Whether a ring may hold a queue's entries (R321). -/
def State.ringPlace (s : State) (a : Nat) : Bool :=
  match s.target a with
  | .gddr .. => true
  | .sram _ => true
  | .host => true
  | _ => false

/-- A fetched command's record. -/
def newCmd (q idx : Nat) (e : List Byte) : Cmd where
  q := q
  idx := idx
  entry := e
  running := false
  begun := false
  finished := false
  cancelled := false
  epoch := 0
  code := .ok
  counts := {}
  info := 0
  left := []

/-- End a command that has not started with 0x11; the epoch of its record is free (R328, R330). -/
def State.cancelUnstarted (s : State) (q idx : Nat) : State :=
  s.drawn.finishCmd q idx fun c => { c with code := .cancelled, epoch := bits 31 0 s.free }

/-- Whether a command is a PROG or CORES. -/
def Cmd.launches (c : Cmd) : Bool := blockField c.entry 0 1 == 1 || blockField c.entry 0 1 == 2

/-- The live tags whose blocks came from rings of a queue are due for retirement, as one of its PROG or CORES is cancelled
(R380). -/
def State.retireDue (s : State) (q : Nat) : State :=
  let due (b : Batch) : Batch := if b.live && s.fld (Reg.xchWringCfg b.ring) 57 52 == q then { b with due := true } else b
  { s with xch := { s.xch with batches := s.xch.batches.map due } }

/-- Fetch the entry at HEAD of a queue (R321, R325): a fetch fault stops the queue with REASON 2. -/
def State.fetch (s : State) (q : Nat) : State :=
  let cfg := s.reg (Reg.ctlSqCfg q)
  let i := s.sqHead q
  let a := ringBase cfg + 64 * (i % ringSize cfg)
  if !s.ringPlace a then s.stopQueue q 2
  else if (s.accessFail a).isSome then (s.noteAccessFail a).stopQueue q 2
  else if s.training a 64 then s
  else if s.rdBad a 64 then (s.noteRead a 64).stopQueue q 2
  else
    let c := newCmd q i (s.rdBytes a 64)
    let s := { s with cmds := s.cmds ++ [c] }
    let s := s.setFld (Reg.ctlSqStat q) 31 0 (i + 1)
    if s.cancels.contains (q, i) then
      let s := { s with cancels := s.cancels.erase (q, i) }.cancelUnstarted q i
      if c.launches then s.retireDue q else s
    else s

/-- COMMAND_FETCH: control processor `n` serves the next of its rings that has an entry (R325). A ring whose
completion ring is not enabled stops with REASON 3 (R333). -/
def execCommandFetch (n : Fin 4) (s : State) : Out :=
  let has (q : Nat) : Bool := s.bit (Reg.ctlSqCfg q) 63 && !s.bit (Reg.ctlSqStat q) 63 &&
    decide (0 < dist32 (s.sqTail q) (s.sqHead q)) && (!s.cqOn (s.sqCq q) || !s.cqFull (s.sqCq q))
  let t := SMap.get 0 s.turn n.val
  if s.isOff 7 51 || decide (1024 ≤ (s.cmds.filter fun c => c.q / 16 == n.val).length) then .next s else
  match (List.range 16).find? fun i => has (16 * n.val + (t + i) % 16) with
  | none => .next s
  | some i =>
    let k := (t + i) % 16
    let q := 16 * n.val + k
    if !s.cqOn (s.sqCq q) then .next (s.stopQueue q 3)
    else .next ({ s with turn := SMap.put 0 s.turn n.val ((k + 1) % 16) }.fetch q)

/-! ### The life of a command (R326 to R329) -/

def Cmd.fld (c : Cmd) (o n : Nat) : Nat := blockField c.entry o n
def Cmd.flag (c : Cmd) (b : Nat) : Bool := (c.fld 1 1).testBit b

/-- Whether an entry names an operation, with its RSVD fields 0 and operands that the operation takes (R326, R328,
R340). -/
def Cmd.ok (c : Cmd) : Bool :=
  c.fld 2 6 == 0 && c.fld 1 1 / 8 == 0 &&
  (match c.fld 0 1 with
   | 0 => true
   | 1 => true
   | 2 => true
   | 3 => c.fld 8 8 % 4 == 0 && c.fld 0x10 8 % 4 == 0 && c.fld 0x18 8 % 4 == 0
   | 4 => decide (c.fld 8 1 ≤ 15) && decide (c.fld 9 1 ≤ 2)
   | 5 => decide (c.fld 8 1 ≤ 63)
   | 6 => true
   | _ => false)

/-- Change a command whose work has not ended. -/
def State.onCmd (s : State) (q idx : Nat) (f : Cmd → Cmd) : State :=
  { s with cmds := s.cmds.map fun c => if c.q = q ∧ c.idx = idx ∧ !c.finished then f c else c }

/-- The running command of a queue and index, where its operation is `op`. -/
def State.cmdOf (s : State) (q : Fin 64) (idx : BitVec 32) (op : Nat) : Option Cmd :=
  s.cmds.find? fun c => c.q == q.val && c.idx == idx.toNat && c.running && !c.finished && c.fld 0 1 == op

/-- COMMAND_START: the next command of a queue starts, in ring order and behind its FENCE (R325); an entry that is
refused completes at once (R326). -/
def execCommandStart (q : Fin 64) (s : State) : Out :=
  match s.cmds.find? fun c => c.q == q.val && !c.running && !c.finished with
  | none => .next s
  | some c =>
    if c.flag 0 && s.cmds.any (fun x => x.q == q.val && decide (0 < dist32 c.idx x.idx)) then .next s
    else
      let s := s.onCmd c.q c.idx fun c => { c with running := true, epoch := (SMap.get 0 s.unitEpoch 1067).toNat }
      if c.ok then .next s else .next (s.finishCmd c.q c.idx fun c => { c with code := .desc })

/-- End a command with a code. -/
def State.endCmd (s : State) (c : Cmd) (code : Code) (info : Nat) : State :=
  s.finishCmd c.q c.idx fun c => { c with code := c.code.max code, info := info % 2 ^ 32 }

/-- CMD_NOP. -/
def execCmdNop (q : Fin 64) (idx : BitVec 32) (s : State) : Out :=
  match s.cmdOf q idx 0 with
  | none => .next s
  | some c => .next (s.endCmd c .ok 0)

/-- Read bytes at a local address: its code, and the bytes where it is reached. -/
def State.localRead (s : State) (a n : Nat) : State × Code × List Byte :=
  match s.accessFail a with
  | some c => (s.noteAccessFail a, c, [])
  | none => match s.accessFail (a + n - 1) with
    | some c => (s.noteAccessFail (a + n - 1), c, [])
    | none => (s.noteRead a n, if s.rdBad a n then .ecc else .ok, s.rdBytes a n)

/-- Whether a range lies in the control-cluster SRAM. -/
def inSram (a n : Nat) : Bool := decide (sramBase ≤ a) && decide (a + n ≤ sramBase + 0x400_0000)

/-- Set every enabled data cursor for a step (R450, R451); there is no table where its address is outside the
control-cluster SRAM (log entry 52). -/
def State.cursors (s : State) (n : Nat) : State :=
  let base := s.fld Reg.rslCurBase 47 0
  if !inSram base 0x4000 then s else
  forUpto 256 (fun k s =>
    let a := base + 64 * k
    let len := s.rdLE (a + 0x10) 8
    let st := s.rdLE (a + 0x18) 8
    if s.rdLE (a + 4) 4 % 2 = 0 ∨ len = 0 then s else
    let r := if st ≤ n then (n - st) * s.rdLE (a + 8) 8 else 0
    (s.wrLE (a + 0x28) 8 (r % len)).wrLE (a + 0x30) 8 (r / len)) s

/-- PROG: once the control processor runs no program, its program starts at ENTRY, with the schedule row and the
cursors of STEP0 (R329, R352, R451). -/
def execProg (q : Fin 64) (idx : BitVec 32) (s : State) : Out :=
  match s.cmdOf q idx 1 with
  | none => .next s
  | some c =>
    let u := SeqId.cp ⟨q.val / 16, by omega⟩
    if c.begun || (s.seq u).run != .idle then .next s else
    let args := c.fld 0x18 8
    let (s, code, bs) := if args = 0 then (s, Code.ok, []) else s.localRead args 120
    if code ≠ .ok then .next (s.endCmd c code 0) else
    let step : Word := BitVec.ofNat 64 (c.fld 0x10 8)
    let regs := (List.range 15).map fun i => BitVec.ofNat 64 (blockField bs (8 * i) 8)
    let s := s.onCmd c.q c.idx fun c => { c with begun := true }
    let s := s.onSeq u fun r => r.started (c.fld 8 4) regs (.cmd c.q c.idx) step
    .next ((s.loadRow step).cursors step.toNat)

/-! ### Launches (R319) -/

/-- The cores that a launch block names. -/
def launchCores (b : List Byte) : List Nat := (List.range 800).filter fun c => (blockField b 0x88 100).testBit c

/-- Whether a launch block is accepted: an image inside the control-cluster SRAM, and R319's limits. -/
def launchOk (b : List Byte) : Bool :=
  decide (blockField b 0 4 < blockField b 4 4) && decide (blockField b 4 4 ≤ 8192) && !(launchCores b).isEmpty &&
  decide (blockField b 8 8 + 2 * blockField b 4 4 ≤ 16777216)

/-- Launch a program on each of some cores: each starts where its core runs no program and waits where it does. -/
def State.launchOn (s : State) (by_ : Launcher) (b : List Byte) (step : Word) (cores : List Nat) : State :=
  cores.foldl (fun s c =>
    let l : Launch :=
      { core := c, by_ := by_, entry := blockField b 0 4, image := blockField b 8 8, len := blockField b 4 4,
        regs := (List.range 15).map fun i => BitVec.ofNat 64 (blockField b (0x10 + 8 * i) 8), step := step }
    let s := { s with launches := s.launches ++ [l] }
    if (s.seq (SeqId.ofNum c)).run = .idle then s.startNext c else s) s

/-- Start a RUN: its record with the cores that it waits for, and the launches; a core that takes no program
contributes 0x10 (R319, R513). -/
def State.startRun (s : State) (u : SeqId) (w : Work) : Work × State :=
  if !launchOk w.block then (w.refused, s) else
  let off := (launchCores w.block).filter s.coreRefuses
  let on := (launchCores w.block).filter fun c => !s.coreRefuses c
  let acc := if off.isEmpty then Code.ok else .aborted
  match u with
  | .core _ => (w.refused, s)
  | .cp n =>
    if on.isEmpty then ({ w with status := .ended acc }, s)
    else ({ w with status := .running, left := on, acc := acc },
          s.launchOn (.run n w.seq) w.block (s.seq u).stepNow on)

/-- RUN: the launch block is read at the issue; the launch follows where no fence holds it. -/
def execRun (w : Issue) (fd : SReg) (a1 : AReg) (s : State) : Out :=
  issueTensor w fd (.run w fd a1) (if w.u.isCp then none else some 0x81) s fun k s =>
    let q := s.seq w.u
    let (k, s) := withBlock w.u (q.getA a1).toNat 64 1 k s
    if k.status = .queued ∧ s.mayStart q k then s.startRun w.u k else (k, s)

/-- Start the RUNs of a control processor that a fence or a pause held back. -/
def State.startRuns (s : State) (u : SeqId) : State :=
  let q := s.seq u
  q.works.foldl (fun s w =>
    match w.instr, w.status with
    | .run .., .queued =>
      if s.mayStart (s.seq u) w then
        let (w', s) := s.startRun u w
        s.onSeq u fun q => { q with works := q.works.map fun x => if x.seq = w.seq then w' else x }
      else s
    | _, _ => s) s

/-- CORES: launches as RUN does, with step number 0 (R326, R329). -/
def execCores (q : Fin 64) (idx : BitVec 32) (s : State) : Out :=
  match s.cmdOf q idx 2 with
  | none => .next s
  | some c =>
    if c.begun then .next s else
    let i := c.fld 8 4
    let b := s.rdBytes (sramBase + 4 * i) 256
    if 16777216 < i + 64 ∨ !launchOk b then .next (s.endCmd c .desc 0) else
    let off := (launchCores b).filter s.coreRefuses
    let on := (launchCores b).filter fun c => !s.coreRefuses c
    let acc := if off.isEmpty then Code.ok else .aborted
    let s := s.onCmd c.q c.idx fun c => { c with begun := true, left := on, code := acc }
    if on.isEmpty then .next (s.endCmd c .ok 0)
    else .next (s.launchOn (.cmd c.q c.idx) b 0 on)

/-! ### COPY (R326) -/

/-- What a COPY has done so far. -/
structure Copy where
  s : State
  done : Nat
  bad : Bool
  fault : Option Code

/-- Copy one element of 4 bytes; the first element that cannot be reached stops the copy and is recorded (R235). -/
def Copy.one (sip src dst i : Nat) (x : Copy) : Copy :=
  if x.fault.isSome then x else
  let s := x.s
  let stop (a : Nat) (c : Code) (wr : Bool) : Copy :=
    let k := match s.target a, c with
      | .regs _, _ => 0x13
      | _, .trans => 0x04
      | _, .prot => if wr then 0x11 else 0x10
      | _, _ => 0
    let s := s.noteAccessFail a
    let o := Reg.sipFault sip
    let s' := s.recordFirst o (BitVec.ofNat 64 (c.toNat <<< 48 + k <<< 40 + 0x3FF <<< 16))
    { x with s := if s.bit o 63 then s' else s'.setReg (Reg.sipFaultVa sip) (BitVec.ofNat 64 (a % 2 ^ 48)), fault := some c }
  let a := src + 4 * i
  let b := dst + 4 * i
  match s.accessFail a with
  | some c => stop a c false
  | none => match s.accessFail b with
    | some c => stop b c true
    | none =>
      let bs := s.rdBytes a 4
      let bad := s.rdBad a 4 || s.wrBad b 4
      { x with s := (s.noteRead a 4).wr b bs, done := x.done + 4, bad := x.bad || bad }

/-- COPY: LEN bytes between local addresses by edge siphon q mod 16 (R326). -/
def execCopy (q : Fin 64) (idx : BitVec 32) (s : State) : Out :=
  match s.cmdOf q idx 3 with
  | none => .next s
  | some c =>
    let sip := 200 + q.val % 16
    if s.sipRefuses sip then .next (s.endCmd c .aborted 0) else
    if s.training (c.fld 8 8) (c.fld 0x18 8) || s.training (c.fld 0x10 8) (c.fld 0x18 8) then .next s else
    let s := (s.poolTouch (c.fld 8 8) (c.fld 0x18 8)).poolTouch (c.fld 0x10 8) (c.fld 0x18 8)
    let x := forUpto (c.fld 0x18 8 / 4) (Copy.one sip (c.fld 8 8) (c.fld 0x10 8)) ⟨s, 0, false, none⟩
    .next (x.s.endCmd c ((x.fault.getD .ok).max (if x.bad then .ecc else .ok)) x.done)

/-! ### Pools (R311 to R313, R337 to R340) -/

def State.pool (s : State) (p : Nat) : Pool := SMap.get {} s.pools p
def State.setPool (s : State) (p : Nat) (x : Pool) : State := { s with pools := SMap.put {} s.pools p x }

/-- The pool that an instruction names, and whether it takes. -/
def poolOf (i : Instr) : Option (Nat × Bool) :=
  match i with
  | .poolTake _ _ _ p => some (p.toNat, true)
  | .poolPut _ _ _ p => some (p.toNat, false)
  | _ => none

/-- The POOL instructions that wait at a pool, with their units. -/
def State.poolWaits (s : State) (p : Nat) : List (Nat × Work) :=
  s.seqs.flatMap fun (u, q) => (q.works.filter fun w =>
    w.status == .queued && (poolOf w.instr).map (·.1) == some p).map fun w => (u, w)

/-- A core's width for the MODE of an entry; for G11 the smallest of the four (R339). -/
def State.fitWidth (s : State) (c mode : Nat) : Nat :=
  if mode = 3 then
    min (min (s.saWidth c 0) (s.saWidth c 1)) (min (s.saWidth c 2) (s.saWidth c 3))
  else s.modeWidth c mode 0

/-- Whether an entry fits a unit: every entry fits a control processor (R312). -/
def State.fits (s : State) (u : Nat) (e : List Byte) : Bool :=
  let h := blockField e 0 8
  (SeqId.ofNum u).isCp || decide (h >>> 51 % 512 ≤ s.fitWidth u (h >>> 60 % 4))

/-- Whether a header may be put: no RSVD bit, and NCOLS up to 256 (R338). -/
def headerOk (e : List Byte) : Bool :=
  let h := blockField e 0 8
  h >>> 62 == 0 && h >>> 32 % 2 ^ 19 == 0 && decide (h >>> 51 % 512 ≤ 256)

/-- The local address of a waiting instruction's buffer. -/
def bufferOf (u : Nat) (w : Work) : Nat := storeBase (SeqId.ofNum u) + 4 * (w.vals.getD 0 0).toNat

/-- What a waiting POOL instruction can do now, none where it goes on waiting. -/
def State.poolAct (s : State) (p : Nat) (x : Nat × Work) : Option State :=
  let (u, w) := x
  let su := SeqId.ofNum u
  let pl := s.pool p
  let a := bufferOf u w
  if !s.mayStart (s.seq su) w then none else
  match poolOf w.instr with
  | some (_, true) =>
    -- a core that takes no new work is answered as by a closed pool (R312, R513)
    if decide (u < 800) && s.coreRefuses u then some ((s.wrLE a 8 0xFFFF_FFFF_FFFF_FFFF).endWork su w.seq .ok) else
    (match pl.entries.find? (s.fits u) with
     | some e => some (((s.setPool p { pl with entries := pl.entries.erase e }).wr a e).endWork su w.seq .ok)
     | none => if pl.isOpen then none else some ((s.wrLE a 8 0xFFFF_FFFF_FFFF_FFFF).endWork su w.seq .ok))
  | _ =>
    let e := s.rdBytes a 128
    if s.rdBad a 128 then some ((s.noteRead a 128).endWork su w.seq .ecc)
    else if !headerOk e then some (s.endWork su w.seq .desc)
    else if !pl.isOpen then some (s.endWork su w.seq .cancelled)
    else if pl.entries.length < ringSize (s.reg (Reg.ctlPoolCfg p)) then
      some ((s.setPool p { pl with entries := pl.entries ++ [e] }).endWork su w.seq .ok)
    else none

/-- Serve a pool until nothing that waits there can go on. Where several can, which goes first is undefined (R312), so a
free value picks. -/
def State.poolRun (s : State) (p : Nat) : Nat → State
  | 0 => s
  | n + 1 =>
    match (s.poolWaits p).filterMap (s.poolAct p) with
    | [] => s
    | [t] => t.poolRun p n
    | t :: ts =>
      let l := (s.drawn.poolWaits p).filterMap (s.drawn.poolAct p)
      (l.getD (s.free.toNat % (ts.length + 1)) t).poolRun p n

def State.poolService (s : State) (p : Nat) : State := s.poolRun p (s.poolWaits p).length

/-- Serve every pool. -/
def State.poolsService (s : State) : State := forUpto 16 (fun p s => s.poolService p) s

/-- Apply a function to a next state. -/
def andThen (o : Out) (f : State → State) : Out :=
  match o with
  | .next s => .next (f s)
  | o => o

/-- Apply a function once an instruction of a unit has issued with a handle: not where it only passed, waited or faulted. -/
def onIssue (u : SeqId) (s : State) (o : Out) (f : State → State) : Out :=
  andThen o fun t => if (t.seq u).nseq = (s.seq u).nseq + 1 then f t else t

/-- The entry buffer: a word index on a 32-word boundary inside the unit's store (R311), or the refusal of R292. -/
def withBuffer (u : SeqId) (a1 : AReg) (k : Work) (s : State) : Work × State :=
  let i := ((s.seq u).getA a1).toNat
  let k := { k with vals := [BitVec.ofNat 64 i] }
  (if i % 32 ≠ 0 ∨ storeWords u < i + 32 then k.refused else k, s)

/-- POOL.TAKE (R312). -/
def execPoolTake (w : Issue) (fd : SReg) (a1 : AReg) (pool : BitVec 4) (s : State) : Out :=
  onIssue w.u s (issueTensor w fd (.poolTake w fd a1 pool) none s (withBuffer w.u a1)) fun s => s.poolService pool.toNat

/-- POOL.PUT (R313). -/
def execPoolPut (w : Issue) (fd : SReg) (a1 : AReg) (pool : BitVec 4) (s : State) : Out :=
  onIssue w.u s (issueTensor w fd (.poolPut w fd a1 pool) none s (withBuffer w.u a1)) fun s => s.poolService pool.toNat

/-- The running POOL command with an ACTION. -/
def State.poolCmd (s : State) (q : Fin 64) (idx : BitVec 32) (action : Nat) : Option Cmd :=
  match s.cmdOf q idx 4 with
  | some c => if c.fld 9 1 = action then some c else none
  | none => none

/-- POOL with ACTION 0: opens the pool and leaves its entries (R340). -/
def execPoolOpen (q : Fin 64) (idx : BitVec 32) (s : State) : Out :=
  match s.poolCmd q idx 0 with
  | none => .next s
  | some c =>
    let p := c.fld 8 1
    .next (((s.setPool p { s.pool p with isOpen := true }).poolService p).endCmd c .ok 0)

/-- POOL with ACTION 1: closes the pool (R340). -/
def execPoolClose (q : Fin 64) (idx : BitVec 32) (s : State) : Out :=
  match s.poolCmd q idx 1 with
  | none => .next s
  | some c =>
    let p := c.fld 8 1
    .next (((s.setPool p { s.pool p with isOpen := false }).poolService p).endCmd c .ok 0)

/-- POOL with ACTION 2: closes the pool and discards its entries, whose number is INFO (R326, R340). -/
def execPoolDiscard (q : Fin 64) (idx : BitVec 32) (s : State) : Out :=
  match s.poolCmd q idx 2 with
  | none => .next s
  | some c =>
    let p := c.fld 8 1
    .next (((s.setPool p {}).poolService p).endCmd c .ok (s.pool p).entries.length)

/-! ### Commits and fences (R316, R317, R342) -/

/-- Recompute the configuration digest from the group configuration block (R417); it is free where the block's address is
outside the control-cluster SRAM (log entry 52). -/
def State.digest (s : State) : State :=
  let a := s.fld Reg.cslGcfgPtr 47 12 * 4096
  if !inSram a 4096 then forUpto 8 (fun k (t : State) => t.drawn.setReg (Reg.cslDigest k) t.free) s else
  let d := shake256 (s.rdBytes a 4096) 64
  forUpto 8 (fun k s => s.setReg (Reg.cslDigest k) (BitVec.ofNat 64 (blockField d (8 * k) 8))) s

/-- A commit: the epoch rises by 1, the shadow values are taken up, and the digest is recomputed (R316, R417). -/
def State.commitAll (s : State) : State := s.commit.digest.recheck

/-- Whether a unit of R341 is disabled, or its domain is in reset. -/
def State.unitOff (s : State) (u : Nat) : Bool :=
  if u < 800 then s.coreOff u
  else if u < 1016 then s.sipOff (u - 800) || !s.domUp (sipDom (u - 800))
  else if u < 1032 then s.isOff 7 (u - 1016) || !s.domUp 3
  else if u < 1036 then s.isOff 5 (u - 1032) || !s.domUp 4
  else if u < 1048 then s.isOff 4 (u - 1036) || !s.domUp 4
  else if 1050 ≤ u ∧ u < 1066 then s.isOff 7 (u - 1016) || !s.domUp 3
  else s.isOff 7 (u - 1016) || !s.domUp 4

/-- Whether every enabled unit has reached an epoch (R317). -/
def State.fenceOk (s : State) (t : BitVec 32) : Bool :=
  (List.range 1068).all fun u => s.unitOff u || decide (0 ≤ (SMap.get 0 s.unitEpoch u - t).toInt)

/-- COMMIT_CMD: a commit; with WAITALL it completes as FENCE.CFG would release (R326). -/
def execCommitCmd (q : Fin 64) (idx : BitVec 32) (s : State) : Out :=
  match s.cmdOf q idx 6 with
  | none => .next s
  | some c =>
    let s := if c.begun then s else
      let s := s.commitAll
      s.onCmd c.q c.idx fun c => { c with begun := true, info := s.epoch.toNat }
    let e := if c.begun then c.info else s.epoch.toNat
    if !c.flag 2 || s.fenceOk (BitVec.ofNat 32 e) then .next (s.endCmd c .ok e) else .next s

/-- COMMIT: the new epoch goes to FD (R316). -/
def execCommit (w : Issue) (fd : SReg) (s : State) : Out :=
  issue w s fun s =>
    if !w.u.isCp then s.seqFault w.u .desc 0x81 0 else
    let s := s.commitAll
    (s.onSeq w.u fun q => q.setS fd (s.epoch.zeroExtend 64)).adv w.u

/-- FENCE.CFG waits until every enabled unit has reached the epoch in its register (R317). -/
def execFenceCfg (w : Issue) (r1 : SReg) (s : State) : Out :=
  issueWhen w (fun s => !w.u.isCp || s.fenceOk (((s.seq w.u).getS r1).setWidth 32)) id s fun s =>
    if !w.u.isCp then s.seqFault w.u .desc 0x81 0 else s.adv w.u

/-! ### Completion records (R330 to R332) -/

/-- The 32 bytes of a record; counts saturate. -/
def Cmd.record (c : Cmd) (phase : Nat) : List Byte :=
  let sat (n : Nat) : Nat := min n (2 ^ 32 - 1)
  natLE 4 ((c.q <<< 24) + c.idx % 2 ^ 24) ++ natLE 1 c.code.toNat ++ natLE 1 phase ++ natLE 2 0 ++ natLE 4 c.epoch ++
  natLE 4 (sat c.counts.drops) ++ natLE 4 (sat c.counts.clips) ++ natLE 4 (sat c.counts.escapes) ++
  natLE 4 (sat c.counts.retries) ++ natLE 4 c.info

/-- COMPLETION_RECORD_WRITE: the next finished command of a completion ring that has room writes its record; then the
ring's vector is sent by count, or where nothing is in flight (R331, R332). -/
def execCompletionRecordWrite (cq : Fin 64) (s : State) : Out :=
  let cfg := s.reg (Reg.ctlCqCfg cq.val)
  match s.cmds.find? fun c => c.finished && s.sqCq c.q == cq.val with
  | none => .next s
  | some c =>
    let t := s.fld (Reg.ctlCqTail cq.val) 31 0
    let n := ringSize cfg
    let a := ringBase cfg + 32 * (t % n)
    if !s.cqOn cq.val || s.cqFull cq.val || !s.ringPlace a || (s.accessFail a).isSome || s.training a 32 then .next s else
    let r := c.record (1 - t / n % 2)
    let s := (s.wr (a + 8) (r.drop 8)).wr a (r.take 8)
    let s := { s with cmds := s.cmds.erase c }.setFld (Reg.ctlCqTail cq.val) 31 0 (t + 1)
    if c.flag 1 then .next s else
    let k := SMap.get 0 s.sinceMsg cq.val + 1
    let busy := s.cmds.any fun x => !x.finished && s.sqCq x.q == cq.val
    if 2 ^ bits 11 8 cfg ≤ k ∨ !busy then
      .next ({ s with sinceMsg := SMap.put 0 s.sinceMsg cq.val 0 }.msix (bits 58 48 cfg))
    else .next { s with sinceMsg := SMap.put 0 s.sinceMsg cq.val k }

/-! ### Ring registers (R331, R333) -/

/-- CQ_HEAD_WRITE: a head that would pass TAIL is ignored and counted (R331). -/
def execCqHeadWrite (q : Fin 64) (v : Word) (s : State) : Out :=
  if !s.domUp 4 then .next s
  else writeReg (Reg.ctlCqHead q.val) v s fun v s =>
  if 0 < dist32 (bits 31 0 v) (s.fld (Reg.ctlCqTail q.val) 31 0) then .next s.ringErr
  else .next (s.storeReg (Reg.ctlCqHead q.val) v allOnes)

/-- SQ_CFG_WRITE: writing EN as 1 clears STOPPED (R333, R344). -/
def execSqCfgWrite (q : Fin 64) (v : Word) (s : State) : Out :=
  if !s.domUp 4 then .next s
  else writeReg (Reg.ctlSqCfg q.val) v s fun v s =>
    let s := s.storeReg (Reg.ctlSqCfg q.val) v allOnes
    if bits 63 63 v = 1 then .next ((s.setFld (Reg.ctlSqStat q.val) 63 63 0).setFld (Reg.ctlSqStat q.val) 55 48 0)
    else .next s

/-- CQ_CFG_WRITE: clearing EN stops the submission rings that direct into the ring with REASON 3 (R333). -/
def execCqCfgWrite (q : Fin 64) (v : Word) (s : State) : Out :=
  if !s.domUp 4 then .next s
  else writeReg (Reg.ctlCqCfg q.val) v s fun v s =>
    let was := s.cqOn q.val
    let s := s.storeReg (Reg.ctlCqCfg q.val) v allOnes
    if was && !s.cqOn q.val then
      .next (forUpto 64 (fun i s => if s.sqCq i = q.val then s.stopQueue i 3 else s) s)
    else .next s

end Sys2Proof.Machine
end

