-- ==== Sys2Proof/Machine/Links.lean ====
section
/-! DEFINITION. Cascade links (spec/17_cascade_links.md, R411 to R426): frames and the retry buffer, retrains and losses,
hellos, quarantine and attestation, remote requests and their answers; and the drops of members that follow a
loss (R435 to R437, R440). -/

namespace Sys2Proof.Machine
open Sys2Proof

/-! ### Requests that end without their answer -/

/-- End a request with a failure code: an arrival's handle, a sequencer's BAR.WAIT by cause 0x88, a siphon's transfer
(R260, R262, R437). -/
def State.failReq (s : State) (c : Code) (r : Req) : State :=
  let s := { s with reqs := s.reqs.filter fun x => x.id != r.id }
  match r.purpose with
  | .arrive u w => s.endWork (SeqId.ofNum u) w c
  | .wait (.seq u) =>
    (match (s.seq u).barWait with
     | some (va, _) => s.seqFault u c 0x88 va
     | none => s)
  | .wait (.sip n id) => s.onSiph n.val fun q => { q with transfers := q.transfers.map fun t =>
      if t.id = id then { t.stop c with waiting := false } else t }
  | .wait (.block r idx) => s.wakeX r.val idx.toNat c
  | .wait (.remote ..) => s
  -- a posted store that fails stops its sequencer, where the program that stored still runs (R281, log entry 113)
  | .store u va =>
    if (s.seq (SeqId.ofNum u)).run == .running || (s.seq (SeqId.ofNum u)).run == .waiting
    then s.seqFault (SeqId.ofNum u) c 0x88 va else s
  | .xfer n u w va =>
    match (s.siph n).transfers.find? fun t => t.unit == u && t.work == w with
    | some t =>
      let stop (x : Transfer) : Transfer := if x.id = t.id then x.stop c else x
      (s.sipFault n t (c, 0x88, va)).onSiph n fun q => { q with transfers := q.transfers.map stop }
    | none => s

/-- End every request that satisfies a test. -/
def State.failReqs (s : State) (c : Code) (f : Req → Bool) : State := (s.reqs.filter f).foldl (fun s r => s.failReq c r) s

/-! ### Drops (R435 to R437, R440) -/

/-- Write the DROPPED bit of a device in the roster block. -/
def State.setDropped (s : State) (d : Nat) (on : Bool) : State :=
  let a := s.fld Reg.rslRoster 47 0 + 512 + d / 8
  let v := (s.byte a).toNat
  if s.dropped d = on then s
  else s.putByte a (BitVec.ofNat 8 (if on then v + 2 ^ (d % 8) else v - 2 ^ (d % 8)))

/-- The master: every live member waits at the hold, so HELD is set (R441). -/
def State.checkHeld (s : State) : State :=
  if s.isMaster ∧ s.live.all s.rsl.reports.contains ∧ s.bit Reg.rslHold 62 then s.setFld Reg.rslStat 2 2 1 else s

/-- Apply DROP(f, st): the roster, the log, the requests to f, and the step from which R437 holds. -/
def State.applyDrop (s : State) (f st : Nat) : State :=
  let s := (s.setDropped f true).recordFirst Reg.rslDropLog (BitVec.ofNat 64 ((f % 4096) <<< 48 + st % 2 ^ 48))
  let s := { s with
    dropStep := SMap.put 0 s.dropStep f (st + 1)
    xch := { s.xch with
      inbound := s.xch.inbound.map fun (g : Inbound) => { g with heads := g.heads.map fun (h : InHead) =>
        if h.src = f then { h with mute := true, rows := if g.placed then h.rows else [] } else h }
      parts := s.xch.parts.filter fun p => !(p.src.toNat == f && decide (st < p.step.toNat)) } }
  ((s.loseTo f).failReqs .link fun r => r.dev == f).checkHeld

/-- The master drops a device at its group step (R436). -/
def State.dropDev (s : State) (f : Nat) : State :=
  let st := (s.reg Reg.cslGstep).toNat
  (s.notifyAll "drop" [f, st]).applyDrop f st

/-- A report of LOST(f) at the master: a drop, or a record in RSL.PENDING (R435). -/
def State.lostReport (s : State) (f reporter : Nat) : State :=
  if !s.isMaster || f == 0 || !s.isLive f then s
  else if s.bit Reg.rslPolicy 0 then s.dropDev f
  else if s.bit Reg.rslPending 63 then s
  else s.setReg Reg.rslPending (BitVec.ofNat 64 (2 ^ 63 + reporter <<< 24 + f))

/-- Report LOST(f) to the master, or observe it there. -/
def State.reportLost (s : State) (f : Nat) : State :=
  if s.isMaster then s.lostReport f 0 else s.notify 0 "lost" [f]

/-- Whether every link that CSL.ROUTE[d] names is lost or excluded. -/
def State.cutOff (s : State) (d : Nat) : Bool := !(s.routeLinks d).isEmpty && (s.routeLinks d).all s.linkGone

/-- The devices that CSL.ROUTE reaches over a link. -/
def State.routedBy (s : State) (l : Nat) : List Nat :=
  (s.regs.filterMap fun (o, _) => if 0x808000 ≤ o ∧ o < 0x810000 then some ((o - 0x808000) / 8) else none).filter
    fun d => (s.routeLinks d).contains l

/-- What follows once a link has gone: reports of every device that it cut off, and isolation (R435, R440). -/
def State.afterGone (s : State) (l : Nat) : State :=
  let lost := (s.routedBy l).filter s.cutOff
  let s := lost.foldl State.reportLost (lost.foldl State.loseTo s)
  if !s.isMaster && s.cutOff 0 then { s.setFld Reg.rslStat 0 0 1 with rsl := { s.rsl with cut := true } } else s

/-! ### Link states (R414 to R420) -/

/-- A link without its session. -/
def Link.fresh (k : Link) : Link := { session := k.session }

/-- The packets that a link holds, in either direction. -/
def Link.packets (k : Link) : List Packet := k.retry.filterMap (·.ends) ++ k.waiting ++ k.inbox

/-- Send an answer of this device to a peer's access at a local address, by the route table's rule: ADDR names the
requester (R412, R424; log entry 51). -/
def State.answerTo (s : State) (src a tag kind code : Nat) (body : List Byte) : State :=
  match s.linkTo src a with
  | (s, none) => s
  | (s, some l) => s.sendOn l ⟨src, globalAddr src a, kind, 1, 0, s.devId, tag, code, body⟩

/-- Whether a packet asks for an access to memory (R412). -/
def Packet.isRequest (p : Packet) : Bool := p.kind == 0 || p.kind == 2 || p.kind == 4

/-- Return a request to its source as a negative response with 0x40 (R424). -/
def State.returnBack (s : State) (p : Packet) : State :=
  if p.isRequest then s.answerTo p.src (p.addr % 2 ^ 48) p.tag 7 0x40 [] else s

/-- What becomes of a packet that a link loses: its access completes with 0x40, at its requester too where its path merely
crossed the link; a row of this device's batch is lost (R415, R420, R382). -/
def State.losePacket (s : State) (p : Packet) : State :=
  if p.isRequest then (if p.src = s.devId then s else s.returnBack p)
  else if p.kind = 5 then (if p.src = s.devId then s.loseBatchTo p.tag p.dev else s)
  else if p.kind = 6 then s
  else if p.dev = s.devId then s
  else s.answerTo p.dev (p.addr % 2 ^ 48) p.tag 7 0x40 []

/-- A link drops what it holds. -/
def State.dropPackets (s : State) (l : Nat) : State :=
  (s.link l).packets.foldl State.losePacket (s.onLink l Link.fresh)

/-- A link is lost (R415): it trains again where EN stays 1. -/
def State.loseLink (s : State) (l : Nat) : State :=
  let o := Reg.cslLinkStat l
  if s.linkGone l then s else
  let s := ((s.setFld o 63 60 (if s.bit (Reg.cslLinkCfg l) 63 then 1 else 0)).setFld o 59 56 0).setFld o 52 48 0
  let s := (s.dropPackets l).bump (Reg.cslDownCnt l) 1
  (((s.event 5).failReqs .link fun r => r.link == l).afterGone l).retrainOver 4 l 2

/-- Send a hello frame (R417). -/
def State.sendHello (s : State) (l : Nat) : State :=
  s.send (.frame l 3 [s.devId, l, (s.link l).session.toNat, s.fwVersion.toNat, profileVersion.toNat, s.digestOf.toNat])

/-- Ask the peer for an attestation report with a fresh nonce; an attestation that failed stays so until a new training
(R418, R420). -/
def State.askReport (s : State) (l : Nat) : State :=
  let n := (List.range 4).map fun i => Config.freeWord (s.freeCtr + i)
  let s := { s with freeCtr := s.freeCtr + 4 }.onLink l fun k =>
    { k with nonce := n, attest := if k.attest = Attested.failed then .failed else .pending }
  s.sendManage l (s.fld (Reg.cslPeer l) 11 0) (noteBytes "attest" (n.map BitVec.toNat))

/-- Lanes by the code of MAXW (R433). -/
def lanes (c : Nat) : Nat := if c = 0 then 16 else if c = 1 then 8 else 4

/-- The active MAXW of a link, as a code of 0 to 2. -/
def State.maxw (s : State) (l : Nat) : Nat := min 2 (s.epFld (1036 + l) (Reg.cslLinkCfg l) 1 0)

/-- LINK_TRAINED: a training from DOWN ends at a width up to MAXW; the session number rises, a hello is sent, and the
link enters QUARANTINE (R417). -/
def execLinkTrained (l : Fin 12) (w : Fin 3) (s : State) : Out :=
  let o := Reg.cslLinkStat l.val
  let k := s.link l.val
  if !s.domUp 4 || s.linkState l.val != 1 || k.prior != 0 || s.isOff 4 l.val then .next s else
  let s := ((s.setFld o 63 60 2).setFld o 59 56 4).setFld o 52 48 (lanes (max w.val (s.maxw l.val)))
  let s := s.onLink l.val fun k => { k.fresh with session := k.session + 1 }
  .next (s.sendHello l.val)

/-- HELLO_RECEIVE: a first hello, upon which the peer's report is asked for, a new epoch's hello or the hello that ends a
retrain. A new session number loses the link; other versions or another digest put it into QUARANTINE; the hello of an
unchanged peer returns a retrained link to its state (R415, R417 to R419). -/
def execHelloReceive (l : Fin 12) (h : Hello) (s : State) : Out :=
  let st := s.linkState l.val
  let k := s.link l.val
  let o := Reg.cslLinkStat l.val
  if s.linkGone l.val then .next s
  else if (match k.hello with | some x => x.session != h.session | none => false) then .next (s.loseLink l.val)
  else
    let same : Bool := match k.hello with
      | some x => x.fw == h.fw && x.profile == h.profile && x.digest == h.digest
      | none => true
    let s := (s.setFld o 31 0 h.session.toNat).setReg (Reg.cslPeer l.val)
      (BitVec.ofNat 64 (h.fw.toNat <<< 32 + h.profile.toNat <<< 16 + h.lnk.toNat <<< 12 + h.dev.toNat))
    let s := s.onLink l.val fun k => { k with hello := some h, prior := 0 }
    let s := if st = 1 then s.setFld o 63 60 k.prior else s
    let s := if k.hello.isNone then s.askReport l.val else s
    if st = 1 ∧ same then .next (s.pump l.val) else .next (s.settle l.val)

/-- Begin a retrain of a link that carries traffic, asked for by RETRAIN or not (R414). -/
def State.beginRetrain (s : State) (l : Nat) (asked : Bool) : State :=
  let st := s.linkState l
  if st = 2 ∨ st = 3 then (s.onLink l fun k => { k with prior := st, asked := asked }).setFld (Reg.cslLinkStat l) 63 60 1
  else s

/-- LINK_RETRAIN: a retrain ends at the first width that trains on both sides, none where it fails at 4 lanes and
loses the link. Only one that RETRAIN asked for ends wider than before. A narrower width is counted; the frames of the retry buffer are replayed; a hello follows (R414, R417). -/
def execLinkRetrain (l : Fin 12) (w : Option (Fin 3)) (s : State) : Out :=
  let o := Reg.cslLinkStat l.val
  if s.linkState l.val != 1 || (s.link l.val).prior == 0 then .next s else
  match w with
  | none => .next (s.loseLink l.val)
  | some c =>
    let n := lanes (max c.val (s.maxw l.val))
    let n := if (s.link l.val).asked then n else min n (s.fld o 52 48)
    let s := if n < s.fld o 52 48 then s.bump (Reg.cslDegradeCnt l.val) 1 else s
    let s := s.setFld o 52 48 n
    let s := (s.onLink l.val fun k => { k with retry := k.retry.map fun f => { f with replays := 0 } })
    let s := s.sendFrames l.val (s.link l.val).retry
    .next ((s.sendHello l.val).retrainOver 4 l.val 0)

/-- LINK_LOSS: a link is lost, as where its reference is lost (R415, R440). -/
def execLinkLoss (l : Fin 12) (s : State) : Out := .next (s.loseLink l.val)

/-- LINK_CFG_WRITE: EN starts training from DOWN; clearing it loses the link and ends EXCLUDED (R415, R416, R433). -/
def execLinkCfgWrite (l : Fin 12) (v : Word) (s : State) : Out :=
  if !s.domUp 4 then .next s else
  writeReg (Reg.cslLinkCfg l.val) v s fun v s =>
  let o := Reg.cslLinkStat l.val
  let s := s.storeReg (Reg.cslLinkCfg l.val) v allOnes
  if s.bit (Reg.cslLinkCfg l.val) 63 then
    .next (if s.linkState l.val = 0 ∧ !s.isOff 4 l.val then s.setFld o 63 60 1 else s)
  else .next ((s.loseLink l.val).setFld o 63 60 0)

/-- LINK_EXCLUDE: the link carries nothing, and packets held for it complete with 0x40 (R420). -/
def execLinkExclude (l : Fin 12) (s : State) : Out :=
  if !s.domUp 4 then .next s else
  let o := Reg.cslLinkStat l.val
  let s := ((s.setFld o 63 60 4).setFld o 59 56 0).dropPackets l.val
  .next ((s.failReqs .link fun r => r.link == l.val).afterGone l.val)

/-- LINK_RECHECK: the link repeats its hello and its attestation (R418, R481). -/
def execLinkRecheck (l : Fin 12) (s : State) : Out :=
  if s.linkState l.val = 2 ∨ s.linkState l.val = 3 then
    .next (((s.sendHello l.val).askReport l.val).settle l.val)
  else .next s

/-- LINK_RETRAIN_REQUEST: host software asks for a retrain up to MAXW (R414). -/
def execLinkRetrainRequest (l : Fin 12) (s : State) : Out := .next (s.beginRetrain l.val true)

/-! ### Frames (R412, R413) -/

/-- Send a control frame: the next SEQ expected, and the NAK bit (R413). -/
def State.sendAck (s : State) (l : Nat) (nak : Bool) : State :=
  s.send (.frame l 1 [(s.link l).rxSeq, if nak then 1 else 0])

/-- The packet that begins some bytes, and the bytes behind it: none where they do not hold a whole one (R412). -/
def Packet.parse (bs : List Byte) : Option (Packet × List Byte) :=
  let lo := leNat (bs.take 8)
  let hi := leNat ((bs.drop 8).take 8)
  let n := 16 + 4 * (hi >>> 32 % 4096)
  if bs.length < 16 ∨ bs.length < n then none
  else some (⟨lo >>> 48 % 4096, lo, hi >>> 60 % 16, hi >>> 58 % 4, hi >>> 56 % 4, hi >>> 44 % 4096, hi >>> 16 % 65536,
    hi >>> 8 % 256, (bs.drop 16).take (n - 16)⟩, bs.drop n)

/-- The packets in some bytes, and the bytes of the last one that is not whole: zeros up to the end of a frame are no
packet (log entry 51). -/
def parsePackets : Nat → List Byte → List Packet × List Byte
  | 0, bs => ([], bs)
  | n + 1, bs =>
    if bs.all (· == 0) then ([], []) else
    match Packet.parse bs with
    | none => ([], bs)
    | some (p, r) => let x := parsePackets n r; (p :: x.1, x.2)

/-- Forward a packet for another device by this device's own table; one that would cross a fourth link, or finds no route,
is returned with 0x40 and counted (R424). -/
def State.relay (s : State) (p : Packet) : State :=
  match s.routeBy p.dev p.key with
  | none => (s.bump Reg.cslRouteDropCnt 1).returnBack p
  | some l =>
    if 3 ≤ p.hops + 1 then (s.bump Reg.cslRouteDropCnt 1).returnBack p
    else if s.linkGone l then s.returnBack p
    else s.sendOn l { p with hops := p.hops + 1 }

/-- A packet that has arrived whole: requests, and what is for this device, wait for the step that processes them; all
else is forwarded. -/
def State.arrive (s : State) (l : Nat) (p : Packet) : State :=
  if p.dev = s.devId ∨ p.isRequest then s.onLink l fun k => { k with inbox := k.inbox ++ [p] } else s.relay p

/-- Take the first packet of a link's that satisfies a test, where no packet of its source, channel and key stands before
it (R425). -/
def State.takeIn (s : State) (l : Nat) (f : Packet → Bool) : Option State :=
  let q := (s.link l).inbox
  match q.find? f with
  | none => none
  | some p =>
    if (q.takeWhile fun x => !f x).any fun x => x.src == p.src && x.vc == p.vc && x.key == p.key then none
    else some (s.onLink l fun k => { k with inbox := q.erase p })

/-- Take a packet on whatever link it came. -/
def State.takeAny (s : State) (f : Packet → Bool) : Option State := (List.range 12).findSome? fun l => s.takeIn l f

/-- Bytes filled with zeros to whole units of 4. -/
def pad4 (bs : List Byte) : List Byte := bs ++ List.replicate ((4 - bs.length % 4) % 4) 0

/-- Take the notice of a device with its kind and values (log entry 53). -/
def State.takeNote (s : State) (src : Nat) (kind : String) (body : List Nat) : Option State :=
  s.takeAny fun p => p.kind == 6 && p.src == src && p.body == pad4 (noteBytes kind body)

/-- DATA_FRAME_RECEIVE: a frame with the expected SEQ is accepted and acknowledged, and the packets that it completes
arrive; one whose CRC fails, which overlaps an uncorrectable FEC codeword, or which has an unexpected SEQ or an undefined
TYPE is discarded, with one NAK until the expected SEQ arrives (R412, R413). Good frames of other types are not data
frames; a link in training carries none (R416). -/
def execDataFrameReceive (l : Fin 12) (body : List (BitVec 8)) (w : BitVec 32) (fec : Ecc) (s : State) : Out :=
  let k := s.link l.val
  let type := (w >>> 28).toNat
  let seq := (w >>> 16).toNat % 4096
  if s.linkState l.val != 2 && s.linkState l.val != 3 then .next s else
  let s := match fec with
    | .clean => s
    | .corrected => s.bump (Reg.cslFecCorrCnt l.val) 1
    | .uncorrectable => s.bump (Reg.cslFecUncorrCnt l.val) 1
  let sound := fec != .uncorrectable && body.length == 256 && frameCrc body w == w.setWidth 16
  if sound && (type == 1 || type == 2 || type == 3) then .next s
  else if sound && type == 0 && seq == k.rxSeq then
    let (ps, rest) := parsePackets 65 (k.rx ++ body)
    let s := (s.onLink l.val fun k => { k with rxSeq := (k.rxSeq + 1) % 4096, naked := false, rx := rest }).sendAck l.val false
    .next (ps.foldl (fun s p => s.arrive l.val p) s)
  else if k.naked then .next s
  else .next ((s.onLink l.val fun k => { k with naked := true }).sendAck l.val true)

/-- CONTROL_FRAME_RECEIVE: the peer expects `ack`, which frees every frame before it; a NAK replays from it, and a
frame replayed 8 times in a row starts a retrain (R413, R414). -/
def execControlFrameReceive (l : Fin 12) (ack : BitVec 12) (nak : Bool) (s : State) : Out :=
  let k := s.link l.val
  match k.retry with
  | [] => .next s
  | f :: _ =>
    if s.linkState l.val != 2 && s.linkState l.val != 3 then .next s else
    let d := (ack.toNat + 4096 - f.seq) % 4096
    if k.retry.length < d then .next s else
    let s := s.onLink l.val fun k => { k with retry := k.retry.drop d }
    let fs := (s.link l.val).retry
    if !nak || fs.isEmpty then .next (s.pump l.val) else
    let fs := fs.map fun f => { f with replays := f.replays + 1 }
    let s := ((s.onLink l.val fun k => { k with retry := fs }).bump (Reg.cslReplayCnt l.val) 1).sendFrames l.val fs
    .next (if fs.any fun f => decide (8 ≤ f.replays) then s.beginRetrain l.val false else s.pump l.val)

/-! ### Attestation of a peer (R418, R481) -/

/-- Whether a certificate of `kind` names a subject and issuer and carries a signature of its body under a key (R478). -/
def certOk (cert : List Byte) (kind : Nat) (subject issuer key : List Byte) : Bool :=
  cert.length == 256 + 29792 && blockField cert 0 4 == 0x57464331 && blockField cert 4 4 == kind &&
  (cert.drop 0x18).take 64 == subject && (cert.drop 0x58).take 64 == issuer &&
  Config.slhVerify key (cert.take 256) (cert.drop 256)

/-- Whether the certificates chain from a public key to ROOTHASH: the device certificate under the intermediate key, and
the intermediate's under the root key (R478, R481). -/
def State.chainOk (s : State) (pub dev mid root : List Byte) : Bool :=
  let mkey := (mid.drop 0x18).take 64
  certOk dev 1 pub (shake256 mkey 64) mkey && certOk mid 2 mkey s.fuses.rootHash root &&
  shake256 root 64 == s.fuses.rootHash

/-- Whether a report passes every check of R481 on a link. -/
def State.reportOk (s : State) (l : Nat) (r dev mid root : List Byte) : Bool :=
  match (s.link l).hello with
  | none => false
  | some h =>
    let k := s.link l
    let pub := (r.drop 0x28).take 64
    let id := (shake256 pub 64).take 32
    let tbl := s.fld Reg.secPeerIds 47 0 + 32 * h.dev.toNat
    let inTbl := decide (sramBase ≤ tbl) && decide (tbl + 32 ≤ sramBase + 0x400_0000)
    r.length == 30176 && blockField r 0 4 == 0x57465231 && blockField r 4 2 == 1 &&
    Config.slhVerify pub (r.take 0x180) (r.drop 0x180) && s.chainOk pub dev mid root &&
    (r.drop 8).take 32 == k.nonce.flatMap (fun w => natLE 8 w.toNat) &&
    blockField r 0x68 4 == h.fw.toNat && blockField r 0x100 64 == h.digest.toNat &&
    blockField r 6 2 == h.dev.toNat && inTbl && id.any (· != 0) && s.rdBytes tbl 32 == id

/-- PEER_REPORT_VERIFY: the peer's report, with its two certificates and the root key that signed them, is verified;
`other`: the peer has verified this device's report. A report that fails leaves QREASON 5; the link becomes ACTIVE
once both sides have verified. A failure stands until a new training (R418, R420, R481). The report is an
operand: no packet carries it (log entry 119). -/
def execPeerReportVerify (l : Fin 12) (report dev mid root : List (BitVec 8)) (other : Bool) (s : State) : Out :=
  if (s.linkState l.val != 2 && s.linkState l.val != 3) || (s.link l.val).attest == .failed then .next s
  else if !s.reportOk l.val report dev mid root then
    .next ((s.onLink l.val fun k => { k with attest := .failed }).settle l.val)
  else if !other then .next s
  else .next ((s.onLink l.val fun k => { k with attest := .verified }).settle l.val)

/-- QUARANTINE_REPORT: the master records a member's failed check in CSL.QLOG (R418). -/
def execQuarantineReport (reporter : BitVec 12) (l : Fin 12) (peer : BitVec 12) (reason : BitVec 4) (s : State) : Out :=
  if !s.isMaster || !s.domUp 4 then .next s else
  match s.takeNote reporter.toNat "quarantine" [l.val, peer.toNat, reason.toNat] with
  | some s => .next (s.recordQlog reporter.toNat l.val peer.toNat reason.toNat)
  | none => .next s

/-! ### Remote requests (R422 to R425) -/

/-- The code that a completion-code byte names; a byte that names none counts as 0x7F. -/
def Code.ofByte (n : Nat) : Code :=
  match n with
  | 0x00 => .ok | 0x01 => .counts | 0x10 => .aborted | 0x11 => .cancelled | 0x20 => .prot | 0x21 => .trans
  | 0x22 => .desc | 0x30 => .retry | 0x40 => .link | 0x41 => .peer | 0x50 => .ecc | 0x60 => .notConv
  | _ => .internal

/-- Answer a remote request towards its source (R424). -/
def State.answer (s : State) (r : Remote) (kind code : Nat) (body : List Byte) : State :=
  s.answerTo r.src.toNat (r.addr.toNat % 2 ^ 48) r.tag.toNat kind code body

/-- The kind of a request and its payload: a read gives the number of bytes asked for, a wait none and its target, a
request over the management channel its name in the model (log entry 51). -/
def RemoteOp.wire (o : RemoteOp) : Nat × List Byte :=
  match o with
  | .read n => (0, natLE 4 n.val)
  | .write bs => (2, bs)
  | .add inc => (4, natLE 4 inc.toNat)
  | .wait t => (0, waitBody t)
  | .push bs => (6, natLE 4 0x5055_5348 ++ bs)
  | .commit => (6, natLE 4 0x434F_4D4D)

/-- Whether a packet is a request. -/
def Remote.isIn (r : Remote) (p : Packet) : Bool :=
  p.addr == r.addr.toNat && p.kind == (RemoteOp.wire r.op).1 && p.body == pad4 (RemoteOp.wire r.op).2 && p.src == r.src.toNat &&
  p.hops == r.hops.toNat && p.tag == r.tag.toNat

/-- The packet of a request as it is forwarded. -/
def Remote.packet (r : Remote) : Packet :=
  ⟨r.addr.toNat >>> 48 % 4096, r.addr.toNat, (RemoteOp.wire r.op).1, 0, r.hops.toNat, r.src.toNat, r.tag.toNat, 0, (RemoteOp.wire r.op).2⟩

/-- The code with which a target refuses an address for peers: GDDR7 and the chamber window only (R423). -/
def State.remoteRefuse (s : State) (addr : Nat) : Option Code :=
  if addr >>> 60 ≠ 8 then some .prot else
  match s.target (addr % 2 ^ 48) with
  | .gddr .. => s.accessFail (addr % 2 ^ 48)
  | .chamber .. => none
  | .unpopulated => some .trans
  | _ => some .prot

/-- Serve a request of a peer at a local address (R195, R255, R259, R394, R423). -/
def State.serveRemote (s : State) (l : Fin 12) (r : Remote) : State :=
  let a := r.addr.toNat % 2 ^ 48
  match r.op with
  | .read n =>
    if s.rdBad a n.val then (s.noteRead a n.val).answer r 7 0x50 [] else s.answer r 1 0 (s.rdBytes a n.val)
  | .write bs =>
    let bad := s.wrBad a bs.length
    (s.wr a bs).answer r (if bad then 7 else 3) (if bad then 0x50 else 0) []
  | .add inc =>
    if a % 4 ≠ 0 then s.answer r 7 0x22 [] else
    let x := s.arriveAt a inc.toNat
    if x.2 = .ok then x.1.answer r 3 0 [] else x.1.answer r 7 x.2.toNat []
  | .wait t =>
    if a % 4 ≠ 0 then s.answer r 7 0x22 []
    else if s.rdBad a 4 then (s.noteRead a 4).answer r 7 0x50 []
    else if ahead (s.counterAt a) t then s.answer r 1 0 []
    else s.watch a t (.remote l r.src r.tag)
  | .push bs =>
    if sramBase ≤ a ∧ a + bs.length ≤ sramBase + 0x400_0000 then s.wr a bs else s
  | .commit => s.commitAll

/-- Whether a cairn's pause holds a request: writes and arrivals, with HOLD_REMOTE (R446). -/
def State.holdsRemote (s : State) (o : RemoteOp) : Bool :=
  s.paused && s.epFld 1066 Reg.rslCairnCfg 0 0 == 1 &&
  (match o with | .write _ => true | .add _ => true | _ => false)

/-- Whether a request comes over the management channel. -/
def RemoteOp.managed (o : RemoteOp) : Bool := (RemoteOp.wire o).1 == 6

/-- The bytes that a request reaches at its target. -/
def RemoteOp.reach (o : RemoteOp) : Nat :=
  match o with
  | .read n => n.val
  | .write bs => bs.length
  | .push bs => bs.length
  | .commit => 0
  | _ => 4

/-- REMOTE_REQUEST: a request whose packet arrived over link `l` is served, refused, or forwarded (R422 to R424). The
master's requests come over the management channel, which QUARANTINE carries too (R416, R420). -/
def execRemoteRequest (l : Fin 12) (r : Remote) (s : State) : Out :=
  let d := r.addr.toNat >>> 48 % 4096
  let mine := d == s.devId
  if s.linkState l.val != 3 && !(RemoteOp.managed r.op && s.linkState l.val == 2) then .next s
  else if mine && (s.remoteRefuse r.addr.toNat).isNone &&
    (s.holdsRemote r.op || s.training (r.addr.toNat % 2 ^ 48) (RemoteOp.reach r.op)) then .next s
  else match s.takeIn l.val (Remote.isIn r) with
    | none => .next s
    | some s =>
      if !mine then .next (s.relay (Remote.packet r))
      else if RemoteOp.managed r.op then .next (if r.src = 0 ∧ !s.isMaster then s.serveRemote l r else s)
      else match s.remoteRefuse r.addr.toNat with
        | some c => .next (s.answer r 7 c.toNat [])
        | none => .next ((s.poolTouch (r.addr.toNat % 2 ^ 48) (RemoteOp.reach r.op)).serveRemote l r)

/-- Whether a packet is such an answer to the request of a tag. -/
def State.isAnswer (s : State) (tag : Nat) (r : RemoteAns) (p : Packet) : Bool :=
  p.tag == tag && p.dev == s.devId && (match r with | .ack => p.kind == 1 || p.kind == 3 | .neg c => p.kind == 7 && p.code == c.toNat)

/-- REMOTE_RESPONSE: the answer to a request of this device: an arrival completes, a wait is released, and a negative
response ends either with its code (R260, R423, R425). -/
def execRemoteResponse (tag : BitVec 16) (r : RemoteAns) (s : State) : Out :=
  match s.takeAny (s.isAnswer tag.toNat r) with
  | none => .next s
  | some s =>
  match s.reqs.find? fun x => x.id % 65536 == tag.toNat with
  | none => .next s
  | some q =>
    match r with
    | .neg c => .next (s.failReq (Code.ofByte c.toNat) q)
    | .ack =>
      let s := { s with reqs := s.reqs.filter fun x => x.id != q.id }
      match q.purpose with
      | .arrive u w => .next (s.endWork (SeqId.ofNum u) w .ok)
      | .wait who => .next (s.release who)
      | _ => .next s

/-! ### Notices of the group (R426, R435, R436) -/

/-- GSTEP_NOTICE: a member keeps the master's step number (R426). -/
def execGstepNotice (step : Word) (s : State) : Out :=
  if s.isMaster || !s.domUp 4 then .next s else
  match s.takeNote 0 "gstep" [step.toNat] with
  | some s => .next (s.setReg Reg.cslGstep step)
  | none => .next s

/-- LOST_REPORT: a member's report of a lost device reaches the master (R435). -/
def execLostReport (f reporter : BitVec 12) (s : State) : Out :=
  match s.takeNote reporter.toNat "lost" [f.toNat] with
  | some s => .next (s.lostReport f.toNat reporter.toNat)
  | none => .next s

/-- RSL_DROP: host software has the master drop a device (R435). -/
def execRslDrop (v : Word) (s : State) : Out :=
  if !s.domUp 4 then .next s else
  writeReg Reg.rslDrop v s fun v s =>
  let f := bits 11 0 v
  if s.isMaster && f != 0 && s.isLive f then .next (s.dropDev f) else .next s

/-- DROP_NOTICE: a member applies DROP(f, st) (R436, R437). -/
def execDropNotice (f : BitVec 12) (st : Word) (s : State) : Out :=
  if !s.domUp 4 then .next s else
  match s.takeNote 0 "drop" [f.toNat, st.toNat] with
  | some s => .next (s.applyDrop f.toNat st.toNat)
  | none => .next s

end Sys2Proof.Machine
end

