-- ==== Sys2Proof/Machine/Sparse.lean ====
section
/-! DEFINITION. The sparse engine (spec/06_gather_merge_engine.md, spec/07_sparsity_compression_prediction.md): gather,
scatter, scatter-add, intersection, top-k, segmented reductions, compression, pruning and the bat predictor. Each
operation answers the state after its work and its completion code. -/

namespace Sys2Proof.Machine
open Sys2Proof

/-! ### Rows -/

/-- A sparse operand in the core's chamber (R192, R214, R528). -/
def sparseOperand (c : Nat) (t : TD) : Bool := t.ok && !t.isStream && t.inChamber c && t.aligned 512

/-- A list operand: one dimension, of the given format, in the core's chamber (R130, R301). -/
def listOperand (c : Nat) (f : Fmt) (t : TD) : Bool :=
  t.okList && !t.isStream && t.fm == f && t.inChamber c && t.aligned 512

/-- Elements of a row (R130). -/
def TD.rowLen (t : TD) : Nat := (t.shape.drop 1).foldl (· * ·) 1

/-- The coordinates of element `j` of row `r`. -/
def TD.rowAt (t : TD) (r j : Nat) : List Nat := r :: TD.coordsOf (t.shape.drop 1) j

/-- The block rules of a row that travels with its scales (R134). -/
def TD.rowsTravel (t : TD) : Bool :=
  if t.fm = .t2 then t.bdim == 0 else !t.hasBlocks || (t.bdim != 0 && t.rowLen % 32 == 0)

/-- The side writes of row `p`: per block a scale byte and an escape word, or the T2 row scale, from `f`. -/
def TD.rowSide (t : TD) (p : Nat) (scale esc : Nat → Nat) : List ElemWrite :=
  if t.fm = .t2 then [(8 * t.scaleAddr p, 8, scale 0)]
  else if t.hasBlocks then
    (List.range t.rowLen).flatMap fun j =>
      let m := t.rowAt p j
      if t.blockPos m = 0 then
        (8 * t.scaleAddr (t.block m), 8, scale j) ::
          (if t.fm = .f4x then [(8 * t.escAddr (t.block m), 32, esc j)] else [])
      else []
  else []

/-- The codes of row `p` of `b` copied from row `r` of `a`, and the scales that travel with it: 0x7F from a source
without a block-scale array (R41, R134). -/
def State.copyRow (s : State) (a b : TD) (r p : Nat) : List (List Nat × Nat) × List ElemWrite :=
  ((List.range b.rowLen).map fun j => (b.rowAt p j, s.code a (a.rowAt r j)),
   b.rowSide p
     (fun j => if a.fm = .t2 then (s.rd (a.scaleAddr r)).toNat else s.scaleByte a (a.rowAt r j))
     (fun j => s.rdLE (a.escAddr (a.block (a.rowAt r j))) 4))

/-- A row of the fill value (R133, R134). -/
def fillRow (a b : TD) (p : Nat) : List (List Nat × Nat) × List ElemWrite :=
  ((List.range b.rowLen).map fun j => (b.rowAt p j, a.fillCode a.fill),
   b.rowSide p (fun _ => if b.fm = .t2 then 0x38 else 0x7F) (fun _ => 0))

/-- Write whole rows and report an uncorrectable word written in part. -/
def State.putRows (s : State) (t : TD) (rows : List (List (List Nat × Nat) × List ElemWrite)) : State × Code :=
  s.wrCode (t.writes (rows.flatMap (·.1)) ++ rows.flatMap (·.2))

/-- Count the uncorrectable words of the operands that are read; the code 0x50 where there is one. -/
def State.readOperands (s : State) (ts : List TD) : State × Code :=
  (ts.foldl State.noteOperand s, if ts.any s.badOperand then .ecc else .ok)

/-- The entries of a list, resolved against an indexed tensor (R131). -/
def State.resolved (s : State) (idx t : TD) : List (Option Nat) :=
  (List.range (idx.size 0)).map fun p => resolve (s.entry idx p) (t.size 0) t.neg

/-! ### Gather and scatter -/

/-- A row of undefined content: its elements and everything that travels with it are free values (R136). -/
def freeRow (s : State) (b : TD) (p : Nat) : List (List Nat × Nat) × List ElemWrite :=
  let f (i : Nat) : Nat := (Config.freeEntry s.freeCtr i).toNat
  ((List.range b.rowLen).map fun j => (b.rowAt p j, f (3 * (p * b.rowLen + j)) % 2 ^ b.bits),
   b.rowSide p (fun j => f (3 * (p * b.rowLen + j) + 1) % 256) (fun j => f (3 * (p * b.rowLen + j) + 2)))

/-- GTH (R134 to R136). It reads every row in `v`, where the bytes that the source shares with the destination are free
values (log entry 106). -/
def State.doGth (s v : State) (c : Nat) (a b idx : TD) : State × Code :=
  if !(a.ok && !a.isStream && a.inSomeChamber && a.aligned 512 && sparseOperand c b && listOperand c .s32 idx &&
       a.fm == b.fm && a.rowLen == b.rowLen && a.rowsTravel && b.rowsTravel && b.size 0 == idx.size 0) then (s, .desc)
  else
    let rows := v.resolved idx a
    let n := rows.length
    let limit := if a.homeCore != c && s.coreOff a.homeCore then (rows.findIdx? Option.isSome).getD n else n
    let out := (List.range limit).map fun p => match rows.getD p none with
      | some r => v.copyRow a b r p
      | none => fillRow a b p
    let undef := (List.range (n - limit)).map fun i => freeRow s b (limit + i)
    let (reads, coal) := gatherReads (rows.take limit)
    let drops := ((rows.take limit).filter Option.isNone).length
    let (s, k) := s.readOperands [a, idx]
    let (s, wk) := s.putRows b (out ++ undef)
    let s := if limit < n then s.drawn else s
    let s := ((s.noteDrops c (Reg.corDropIdxCnt c) drops).bump (Reg.corGatherReadCnt c) reads).bump (Reg.corGatherCoalCnt c) coal
    (s, ((countCode (drops != 0)).max (if limit < n then .aborted else .ok)).max (k.max wk))

/-- The checks that SCT and SCA share: one input row per position, rows of equal length (R138, R139). The input too must
lie in the core's own chamber: R80's reach is presumed for it, since no rule sends it through the mesh-remote port (log
entry 107). -/
def scatterOk (c : Nat) (a b idx : TD) : Bool :=
  sparseOperand c a && sparseOperand c b && listOperand c .s32 idx && a.size 0 == idx.size 0 && a.rowLen == b.rowLen

/-- SCT (R138), its input read in `v` as GTH reads its source (log entry 106). -/
def State.doSct (s v : State) (c : Nat) (a b idx : TD) : State × Code :=
  if !(scatterOk c a b idx && a.fm == b.fm && a.rowsTravel && b.rowsTravel) then (s, .desc)
  else
    let rows := v.resolved idx b
    let out := (rows.zipIdx).filterMap fun (r, p) => r.map fun r => v.copyRow a b p r
    let drops := (rows.filter Option.isNone).length
    let (s, k) := s.readOperands [a, idx]
    let (s, wk) := s.putRows b out
    (s.noteDrops c (Reg.corDropIdxCnt c) drops, (countCode (drops != 0)).max (k.max wk))

/-- The pairings of SCA (R139). -/
def scaPair (inp dst : Fmt) : Bool :=
  match dst with
  | .fp32 | .bf16 | .fp16 => (match inp with | .fp32 | .bf16 | .fp16 | .e4m3 | .e5m2 | .g4 => true | _ => false)
  | .i32 => (match inp with | .i32 | .i8 => true | _ => false)
  | _ => false

/-- The sum of one destination element of SCA over the positions that name its row, in ascending order, from the
element's value with its tensor scale (R140, R209). -/
def State.scaAcc (v : State) (a b : TD) (ps : List Nat) (r j : Nat) : F32 :=
  ps.foldl (fun (x : F32) p => F32.add x (v.value a (a.rowAt p j)).f32) (v.value b (b.rowAt r j)).f32

/-- One destination element of SCA. An FP32 destination takes the sum unchanged, any other floating-point one converts it
under the exponent `tx` of its slot (R140, R209; log entry 110). -/
def State.scaElem (v : State) (a b : TD) (key : Option DripKey) (tx : Int) (ps : List Nat) (r j : Nat) : Elem :=
  let m := b.rowAt r j
  if b.fm = .i32 then
    let sum := ps.foldl (fun (z : Int) p => z + sext a.bits (v.code a (a.rowAt p j))) (sext 32 (v.code b m))
    ⟨(sum % (2 ^ 32 : Nat)).toNat, false⟩
  else
    let acc := v.scaAcc a b ps r j
    if b.fm = .fp32 then ⟨acc.toNat, false⟩
    else convElem b.fm (ConvDst.rnd ⟨b, key, tx⟩ m) (tensorScaled acc tx)

/-- SCA (R139 to R142, R209, R356). -/
def State.doSca (s v : State) (c : Nat) (a b idx : TD) (sr : Bool) : State × Code :=
  if !(scatterOk c a b idx && scaPair a.fm b.fm) then (s, .desc)
  else
    let rows := v.resolved idx b
    let named := (rows.filterMap id).eraseDups
    let key := if sr then some (s.dripKey b.drip (s.seq (coreSeq c)).stepNow.toNat) else none
    let tx := s.dstT b
    let at_ (r : Nat) : List Nat := (rows.zipIdx).filterMap fun (x, p) => if x = some r then some p else none
    let els := named.flatMap fun r =>
      (List.range b.rowLen).map fun j => (b.rowAt r j, v.scaElem a b key tx (at_ r) r j)
    let sums := if b.fm = .i32 then [] else
      named.flatMap fun r => (List.range b.rowLen).map fun j => v.scaAcc a b (at_ r) r j
    let drops := (rows.filter Option.isNone).length
    let clips := (els.filter (·.2.clip)).length
    let (s, k) := s.readOperands [a, b, idx]
    let (s, wk) := s.wrCode (b.writes (els.map fun e => (e.1, e.2.code)) ++ (ConvDst.mk b key tx).sideWrites {})
    let s := s.amaxNote b sums
    let (s, tk) := if b.aptr ≠ 0 then s.touch (s.epReg c Reg.sipPtRoot) 0 b.aptr named else (s, .ok)
    ((s.noteDrops c (Reg.corDropIdxCnt c) drops).noteEvents c clips 0 0,
     (countCode (drops + clips != 0)).max ((k.max wk).max tk))

/-! ### Intersection (R143 to R146) -/

/-- The equal pairs of one pass of the walk, ascending `i`, then ascending `j`. -/
def mergePass (a b : Nat → Int) (pa ea pb eb : Nat) : List (Int × Nat × Nat) :=
  (List.range (ea - pa)).flatMap fun i => (List.range (eb - pb)).filterMap fun j =>
    if a (pa + i) = b (pb + j) then some (a (pa + i), pa + i, pb + j) else none

/-- The walk of R144; every pass advances a stream, so `na + nb` passes suffice. -/
def mergeWalk (a b : Nat → Int) (na nb : Nat) : Nat → Nat → Nat → List (Int × Nat × Nat)
  | 0, _, _ => []
  | fuel + 1, pa, pb =>
    if pa < na ∧ pb < nb then
      let ea := min (pa + 16) na
      let eb := min (pb + 16) nb
      let m := mergePass a b pa ea pb eb
      let x := a (ea - 1)
      let y := b (eb - 1)
      m ++ (if x < y then mergeWalk a b na nb fuel ea pb
            else if y < x then mergeWalk a b na nb fuel pa eb
            else mergeWalk a b na nb fuel ea eb)
    else []

/-- The matches of two bitmaps: each common position with the bits set below it in each (R143, R146). -/
def bitmapMatch (a b : Nat → Bool) (n : Nat) : List (Int × Nat × Nat) :=
  (forUpto n (fun p (x : List (Int × Nat × Nat) × Nat × Nat) =>
    let (l, ca, cb) := x
    (if a p && b p then ((p : Int), ca, cb) :: l else l, ca + b2n (a p), cb + b2n (b p))) ([], 0, 0)).1.reverse

/-- The match list of MRG (R301). -/
def matchListOk (c : Nat) (t : TD) : Bool :=
  sparseOperand c t && t.fm == .s32 && t.lay == .rm && t.flat && t.size 1 == 3

/-- Write the matches of MRG and its total (R143). -/
def State.putMatches (s : State) (c : Nat) (ops : List TD) (out : TD) (word : Nat) (ms : List (Int × Nat × Nat)) :
    State × Code :=
  let cap := out.size 0
  let els := ((ms.take cap).zipIdx).flatMap fun (x, i) =>
    [([i, 0], (x.1 % (2 ^ 32 : Nat)).toNat), ([i, 1], x.2.1), ([i, 2], x.2.2)]
  let trunc := ms.length - cap
  let (s, k) := s.readOperands ops
  let (s, wk) := s.wrCode (els.map (fun e => out.put e.1 e.2) ++ [(8 * (chamberBase c + 4 * word), 32, ms.length)])
  ((s.bump (Reg.corMrgMatchCnt c) ms.length).noteDrops c (Reg.corMrgTruncCnt c) trunc,
   (countCode (trunc != 0)).max (k.max wk))

/-- MRG in mode merge. A total outside the chamber is refused (log entry 43). -/
def State.doMrgMerge (s v : State) (c : Nat) (a b out : TD) (word : Nat) : State × Code :=
  if !((listOperand c .s32 a && listOperand c .s32 b || listOperand c .u16 a && listOperand c .u16 b) &&
       matchListOk c out && decide (word < 524288)) then (s, .desc)
  else
    let at_ (t : TD) (i : Nat) : Int := if t.fm = .s32 then v.entry t i else (v.code t.asList [i, 0] : Int)
    s.putMatches c [a, b] out word
      (mergeWalk (at_ a) (at_ b) (a.size 0) (b.size 0) (a.size 0 + b.size 0) 0 0)

/-- MRG in mode bitmap. -/
def State.doMrgBitmap (s v : State) (c : Nat) (a b out : TD) (word : Nat) : State × Code :=
  if !(listOperand c .i8 a && listOperand c .i8 b && matchListOk c out && decide (word < 524288)) then (s, .desc)
  else
    let at_ (t : TD) (p : Nat) : Bool := decide (p / 8 < t.size 0) && (v.code t.asList [p / 8, 0]).testBit (p % 8)
    s.putMatches c [a, b] out word (bitmapMatch (at_ a) (at_ b) (8 * max (a.size 0) (b.size 0)))

/-! ### Top-k (R147 to R149) -/

/-- Whether selection value `x` comes strictly before `y`: larger first, every number before a NaN. -/
def topBefore (x y : F32) : Bool := (!F32.isNaN x && F32.isNaN y) || (F32.val y).lt (F32.val x)

def insTop (e : Nat × F32) : List (Nat × F32) → List (Nat × F32)
  | [] => [e]
  | x :: l => if topBefore e.2 x.2 then e :: x :: l else x :: insTop e l

/-- The first `k` columns in selection order; equal values by ascending column (R148). -/
def topK (k : Nat) (vals : List F32) : List Nat :=
  (((vals.zipIdx).foldl (fun l (v, j) => insTop (j, v) l) []).take k).map (·.1)

/-- TOPK; the bias is read with its tensor scale (R148, R209, log entry 124). -/
def State.doTopk (s v : State) (c : Nat) (sc oi ov : TD) (bias : Option TD) (k : Nat) : State × Code :=
  let r := sc.size 0
  let l := sc.rowLen
  let okOut (t : TD) (f : Fmt) : Bool := sparseOperand c t && t.fm == f && t.size 0 == r && t.rowLen == k
  if !(decide (1 ≤ k) && decide (k ≤ 64) && sparseOperand c sc &&
       (match sc.fm with | .fp32 | .bf16 | .fp16 | .e4m3 => true | _ => false) &&
       okOut oi .s32 && okOut ov .fp32 &&
       (match bias with | some b => listOperand c .fp32 b && b.size 0 == l | none => true)) then (s, .desc)
  else
    let raw (i : Nat) : List F32 := (List.range l).map fun j => (v.value sc (sc.rowAt i j)).f32
    let sel (i : Nat) : List F32 := match bias with
      | some b => ((raw i).zipIdx).map fun (x, j) => F32.add x (v.value b.asList [j, 0]).f32
      | none => raw i
    let out := (List.range r).flatMap fun i =>
      let js := topK k (sel i)
      (List.range k).map fun q => match js[q]? with
        | some j => (i, q, j, ((raw i).getD j 0).toNat)
        | none => (i, q, 0xFFFF_FFFF, ov.fillCode ov.fill)
    let (s, rk) := s.readOperands (sc :: bias.toList)
    let (s, wk) := s.wrCode (out.map (fun x => oi.put (oi.rowAt x.1 x.2.1) x.2.2.1) ++
      out.map (fun x => ov.put (ov.rowAt x.1 x.2.1) x.2.2.2))
    (s, rk.max wk)

/-! ### Segmented reductions (R150, R151) -/

/-- FP32 order with -0 below +0. -/
def zeroLt (x y : F32) : Bool :=
  (F32.val x).lt (F32.val y) || ((F32.val x).isZero && (F32.val y).isZero && x == 0x8000_0000 && y == 0)

/-- One element of a segment. -/
def segElem (op : Nat) (fill : F32) (vs : List F32) : F32 :=
  match op with
  | 0 => vs.foldl F32.add 0
  | 3 => F32.ofNat vs.length
  | _ =>
    match vs with
    | [] => fill
    | v :: l =>
      if vs.any F32.isNaN then F32.nan
      else l.foldl (fun a x => if op = 1 then (if zeroLt a x then x else a) else (if zeroLt x a then x else a)) v

/-- SEG. -/
def State.doSeg (s v : State) (c : Nat) (a out off : TD) (op : Nat) : State × Code :=
  if !(sparseOperand c a && sparseOperand c out && out.fm == .fp32 && listOperand c .s32 off &&
       out.size 0 + 1 == off.size 0 && out.rowLen == a.rowLen) then (s, .desc)
  else
    let r : Int := a.size 0
    let offs := (List.range (off.size 0)).map fun i => v.entry off i
    let cl := offs.map fun x => max 0 (min r x)
    let changed := ((offs.zip cl).filter fun x => x.1 != x.2).length
    let els := (List.range (out.size 0)).flatMap fun g =>
      let lo := (cl.getD g 0).toNat
      let n := (cl.getD (g + 1) 0).toNat - lo
      (List.range out.rowLen).map fun j =>
        (out.rowAt g j, (segElem op (BitVec.ofNat 32 (out.fillCode out.fill))
          ((List.range n).map fun i => (v.value a (a.rowAt (lo + i) j)).f32)).toNat)
    let (s, k) := s.readOperands [a, off]
    let (s, wk) := s.wrCode (els.map fun e => out.put e.1 e.2)
    (s.noteDrops c (Reg.corDropIdxCnt c) changed, (countCode (changed != 0)).max (k.max wk))

/-! ### Compression (R165, R175) -/

/-- A sparse-engine operand of CMP or PRN, a stream allowed. -/
def cmpOperand (c : Nat) (t : TD) : Bool := t.ok && t.has 1 && t.inChamber c && t.aligned 512

/-- The scale bytes and escape words copied unchanged from one tensor to another of the same sizes. -/
def State.copySide (s : State) (a b : TD) : List ElemWrite :=
  if b.hasBlocks then
    (List.range b.count).flatMap fun e =>
      let m := b.coords e
      if b.blockPos m = 0 then
        (8 * b.scaleAddr (b.block m), 8, s.scaleByte a m) ::
          (if b.fm = .f4x then [(8 * b.escAddr (b.block m), 32, s.escWord a m)] else [])
      else []
  else []

/-- Insert a candidate of a group by descending magnitude, NaN last, ties to the lower position (R173). -/
def insKeep (e : Nat × FVal) : List (Nat × FVal) → List (Nat × FVal)
  | [] => [e]
  | x :: l => if (!e.2.isNaN && x.2.isNaN) || x.2.abs.lt e.2.abs then e :: x :: l else x :: insKeep e l

/-- The `n` of some positions of a group that are kept, ascending. -/
def keepOf (n : Nat) (vs : List (Nat × FVal)) : List Nat :=
  let l := ((vs.foldl (fun l e => insKeep e l) []).take n).map (·.1)
  (List.range 4).filter l.contains

/-- The `n` positions of a group that are kept, ascending. -/
def keepPos (n : Nat) (vs : List FVal) : List Nat := keepOf n ((vs.zipIdx).map fun (v, p) => (p, v))

/-- The group of four at group row `g` of a tile: position `q` is element row `4 g + q`. -/
def groupKept (n : Nat) (ks : List Nat) (w : Nat → Nat) : NmGroup :=
  let p0 := ks.getD 0 0
  if n = 1 then ⟨w p0, 0, p0, p0⟩ else ⟨w p0, w (ks.getD 1 0), p0, ks.getD 1 0⟩

/-- Write one plane of an NM stream from a function of tile, group row and column. -/
def State.writeNm (s : State) (t : TD) (o : List Nat) (n1 : Bool) (grp : Nat → Nat → Nat → NmGroup) : State × Code :=
  let b := t.at_ o
  forUpto t.tiles (fun n (x : State × Code) =>
    let rows := t.tileRows n
    let cols := t.tileCols n
    let gr := (rows + 3) / 4
    let bs := packNm t.fm rows cols ((List.range (gr * cols)).map fun i => grp n (i / cols) (i % cols)) n1 false 0
    let a := b.tileAddr n
    (x.1.wr a bs, if x.1.wrBad a bs.length then x.2.max .ecc else x.2)) (s, Code.ok)

/-- First row and column of tile `n`. -/
def TD.tileOrg (t : TD) (n : Nat) : Nat × Nat := (n / t.gridCols * t.trows, n % t.gridCols * t.tcols)

/-- CMP into an NM stream from a source read in `src`: of a group with more than N non-zero elements N of those are kept,
the others dropped (R175). -/
def State.cmpNm (s src : State) (c : Nat) (a b : TD) (n : Nat) : State × Code :=
  let val (r j : Nat) (o : List Nat) : FVal := if r < a.size 0 then src.value a (r :: j :: o) else .zero
  let nz (r j : Nat) (o : List Nat) : Bool := decide (r < a.size 0) && !isZeroCode a.fm (src.code a (r :: j :: o))
  let kept (r j : Nat) (o : List Nat) : List Nat :=
    let q := (List.range 4).filter fun q => nz (r + q) j o
    if q.length ≤ n then
      let z := (List.range 4).filter fun p => !q.contains p
      (List.range 4).filter (q ++ z.take (n - q.length)).contains
    else keepOf n (q.map fun p => (p, val (r + p) j o))
  let drop (r j : Nat) (o : List Nat) : Nat :=
    ((List.range 4).filter fun q => nz (r + q) j o && !(kept r j o).contains q).length
  b.outers.foldl (fun (x : State × Code) o =>
    let y := x.1.writeNm b o (n == 1) fun t g k =>
      let (r0, c0) := b.tileOrg t
      groupKept n (kept (r0 + 4 * g) (c0 + k) o)
        fun q => if r0 + 4 * g + q < a.size 0 then src.code a ((r0 + 4 * g + q) :: (c0 + k) :: o) else 0
    let drops := (List.range ((a.size 0 + 3) / 4)).foldl (fun d g =>
      (List.range (a.size 1)).foldl (fun d j => d + drop (4 * g) j o) d) 0
    (y.1.noteDrops c (Reg.corPruneDropCnt c) drops, (x.2.max y.2).max (countCode (drops != 0)))) (s, .ok)

/-- The dense codes of tile `n` of an NM stream, row-major, and whether its header failed. A position that both values of
a group name holds a free value: the spec gives its product (R152), not a code for the sum. -/
def State.readNmDense (s : State) (t : TD) (n : Nat) : TileRead :=
  let (gs, bad, one) := s.readNm t n
  let cols := t.tileCols n
  let code (r j : Nat) : Nat :=
    let g := gs.getD (r / 4 * cols + j) ⟨0, 0, 0, 1⟩
    if !one && g.p0 == g.p1 && g.p0 == r % 4 then (Config.freeEntry s.freeCtr (8 * t.tileAddr n + r * cols + j)).toNat % 2 ^ t.bits
    else if g.p0 = r % 4 then g.w0 else if !one && g.p1 == r % 4 then g.w1 else 0
  ⟨(List.range (t.tileRows n * cols)).map fun i => code (i / cols) (i % cols), bad, 0⟩

/-- CMP: compress into a stream, or expand a stream into a dense tensor; an option bit without an NM destination, a T2
source and any other pairing are refused (R165, R301, R528). -/
def State.doCmp (s v : State) (c : Nat) (a b : TD) (opt0 : Nat) : State × Code :=
  if !(cmpOperand c a && cmpOperand c b && a.fm == b.fm && a.fm != .t2 && a.shape == b.shape &&
       a.isStream != b.isStream && (b.lay == .nm || opt0 == 0)) then (s, .desc)
  else
    let side := v.copySide a b
    let (s1, k) := s.readOperands [a]
    if b.lay = .nm then
      let (s1, wk) := s1.wrCode side
      let (s1, nk) := s1.cmpNm v c a b (opt0 + 1)
      (s1, (k.max wk).max nk)
    else if b.isStream then
      let (s1, wk) := s1.wrCode side
      let (s1, tk) := b.outers.foldl (fun (x : State × Code) o =>
        let y := x.1.writeTiles c b o (fun r j => v.code a (r :: j :: o)) [] []
        (y.1, x.2.max y.2)) (s1, Code.ok)
      (s1, (k.max wk).max tk)
    else
      let rd (o : List Nat) (n : Nat) : TileRead := if a.lay = .nm then v.readNmDense (a.at_ o) n else v.readTile (a.at_ o) n
      let planes := a.outers.map fun o => (o, (List.range a.tiles).map (rd o))
      let tiles := planes.flatMap (·.2)
      let bad := (tiles.filter (·.bad)).length
      let drops := (tiles.map (·.drops)).foldl (· + ·) 0
      let els := planes.flatMap fun (o, ts) => (List.range (a.size 0 * a.size 1)).map fun i =>
        let r := i / a.size 1
        let j := i % a.size 1
        let x := streamPos a r j
        (r :: j :: o, ((ts.getD x.1 ⟨[], true, 0⟩).codes).getD x.2 0)
      let (s1, wk) := (if a.lay = .nm then s1.drawn else s1).wrCode (b.writes els ++ side)
      ((s1.noteDrops c (Reg.corTileBadCnt c) bad).noteDrops c (Reg.corDropIdxCnt c) drops,
       (countCode (bad + drops != 0)).max (k.max wk))

/-! ### Pruning (R172 to R174) -/

/-- The positions that the metadata of a group holds, as stored. -/
def State.nmMeta (s : State) (t : TD) (o : List Nat) (n i : Nat) : Nat × Nat :=
  let g := (t.tileRows n + 3) / 4 * t.tileCols n
  let md := s.rdBits (8 * ((t.at_ o).tileAddr n + 8 : Nat) + (2 * g * t.bits + 4 * i : Nat)) 4
  (md % 4, md / 4)

/-- Whether PRN runs a selection (R173). -/
def prnSelects (force : Bool) (step p q : Nat) : Bool :=
  force || (p != 0 && (((step : Int) - q) % (p : Int)) == 0)

/-- The kept positions of every group of plane `o`: by tile and group of the tile (R173, R174). -/
def State.prnKept (s : State) (a b : TD) (o : List Nat) (sel : Bool) (n t i : Nat) : Nat × Nat :=
  if sel then
    let (r0, c0) := b.tileOrg t
    let g := i / b.tileCols t
    let j := i % b.tileCols t
    let ks := keepPos n ((List.range 4).map fun q =>
      let r := r0 + 4 * g + q
      if r < a.size 0 then s.value a (r :: (c0 + j) :: o) else .zero)
    (ks.getD 0 0, if n = 1 then ks.getD 0 0 else ks.getD 1 0)
  else s.nmMeta b o t i

/-- The kept coordinates of a group, those outside the tensor left out (R158). -/
def keptCoords (b : TD) (o : List Nat) (n t i : Nat) (p : Nat × Nat) : List (List Nat) :=
  let (r0, c0) := b.tileOrg t
  let g := i / b.tileCols t
  let j := i % b.tileCols t
  ((if n = 1 then [p.1] else [p.1, p.2]).filter fun q => decide (r0 + 4 * g + q < b.size 0)).map fun q =>
    (r0 + 4 * g + q) :: (c0 + j) :: o

/-- PRN: the kept values form blocks whose other elements are zero, so a block without one takes the exponent of zeros
(R173). -/
def State.doPrn (s v : State) (c : Nat) (a b : TD) (r4 : Word) (force : Bool) (n : Nat) : State × Code :=
  if !(cmpOperand c a && !a.isStream && a.fm == .bf16 && cmpOperand c b && b.lay == .nm && a.shape == b.shape &&
       (b.bdim == 0 || b.bdim == 1 || b.bdim == 7)) then (s, .desc)
  else
    let step := (s.seq (coreSeq c)).stepNow.toNat
    let sel := prnSelects force step (bits 15 0 r4) (bits 31 16 r4)
    let groups := b.outers.flatMap fun o => (List.range b.tiles).flatMap fun t =>
      (List.range ((b.tileRows t + 3) / 4 * b.tileCols t)).map fun i => (o, t, i, v.prnKept a b o sel n t i)
    let tx := s.dstT b
    let d : ConvDst := ⟨b, none, tx⟩
    let ys := groups.flatMap fun (o, t, i, p) => (keptCoords b o n t i p).map fun m => (m, (v.value a m).f32)
    let kept : SMap Nat := ys.foldl (fun m y => SMap.put 0 m (b.linear y.1) 1) []
    let zeros := if b.hasBlocks then
        ((List.range b.count).filter fun e => SMap.get 0 kept e = 0).map fun e => ConvEl.mk (b.coords e) FVal.zero else []
    let els := ys.map (fun y => ConvEl.mk y.1 (tensorScaled y.2 tx)) ++ zeros
    let out := if b.hasBlocks then
        (blocksOf d els).foldr (fun k r => (convBlock d k.n (rowExp b.fm (k.els.map (·.v))) k.els).add r) {}
      else convPlain d (fun _ => .one) els
    let codes : SMap Nat := out.codes.foldl (fun m e => SMap.put 0 m (b.linear e.1) e.2) []
    let code (r j : Nat) (o : List Nat) : Nat := if r < b.size 0 then SMap.get 0 codes (b.linear (r :: j :: o)) else 0
    let (s1, k) := s.readOperands [a]
    let (s1, wk) := s1.wrCode (d.sideWrites out)
    let (s1, nk) := b.outers.foldl (fun (x : State × Code) o =>
      let y := x.1.writeNm b o (n == 1) fun t g j =>
        let (r0, c0) := b.tileOrg t
        let p := v.prnKept a b o sel n t (g * b.tileCols t + j)
        let w (q : Nat) : Nat := code (r0 + 4 * g + q) (c0 + j) o
        ⟨w p.1, if n = 1 then 0 else w p.2, p.1, p.2⟩
      (y.1, x.2.max y.2)) (s1, Code.ok)
    ((s1.noteEvents c out.clips 0 0).amaxNote b (ys.map (·.2)), (countCode (out.clips != 0)).max ((k.max wk).max nk))

/-! ### The bat predictor (R177 to R182) -/

/-- The group size of a G code; 0 for code 3, which is refused. -/
def batGroup (g : Nat) : Nat := match g with | 0 => 32 | 1 => 64 | 2 => 128 | _ => 0

/-- The products of one token: h = x × P1 converted into the format of x, and the row s = h × P2 (R177). -/
def batRow (s : State) (x : TD) (p1 p2 : Tile) (sab : F32) (m : Nat) : List F32 × Nat :=
  let row : FeedRow := ⟨(List.range (x.size 1)).map fun j => s.elem x [m, j],
    (List.range (nBlocks (x.size 1))).map fun b => s.scaleByte x [m, 32 * b], false⟩
  let ys := (List.range 64).map fun j => ([m, j], outputY (dotElem p1 row j 0 0).1 0 sab .one)
  let hd : TD := { x with sizes := [x.size 0, 64], bdim := 1, tsc := false }
  let res := (convTile [⟨hd, none, 0⟩] (fun _ => .one) ys 0 false).outs.getD 0 {}
  let h : FeedRow := ⟨(List.range 64).map fun j =>
      x.fm.decode ((res.codes.find? fun e => e.1 == [m, j]).map (·.2) |>.getD 0),
    (List.range 2).map fun b => ((res.scales.find? fun e => e.1 == hd.block [m, 32 * b]).map (·.2)).getD 0x7F, false⟩
  ((List.range p2.cols.length).map fun j => (dotElem p2 h j 0 0).1, res.clips)

/-- The sum of one group over one token's row: a + max(s, +0) in ascending order. -/
def batSum (a : F32) (ss : List F32) : F32 :=
  ss.foldl (fun a v => if F32.isNaN v then F32.nan else F32.add a (if (F32.val v).lt .zero || v == 0x8000_0000 then 0 else v)) a

/-- The non-zero elements of the calibration stream, by column. -/
def State.calCols (s : State) (t : TD) : List Nat :=
  (List.range t.tiles).flatMap fun n =>
    let r := s.readTile t n
    ((r.codes.zipIdx).filter fun e => !isZeroCode t.fm e.1).map fun e => n % t.gridCols * t.tcols + e.2 % t.tileCols n

/-- BAT: the state after its work, and its code. -/
def State.doBat (s v : State) (c : Nat) (opt : Opt) (ds : List Desc) : State × Code :=
  let d (i : Nat) : TD := td (ds.getD i 0)
  let x := d 0
  let p1 := d 1
  let p2 := d 2
  let sc := d 3
  let sel := obit opt 8
  let out := if sel then some (d 4) else none
  let cal := if obit opt 7 then some (d (4 + b2n sel)) else none
  let g := batGroup (ob opt 17 16)
  let k := ob opt 6 0
  let f := p2.size 1
  let proj (t : TD) : Bool := denseOperand c t && t.fm == x.fm && t.bdim == 0 &&
    (match t.lay with | .si | .rm | .cm => true | _ => false)
  if !(denseOperand c x && x.lay == .fi && (x.fm == .f4 || x.fm == .i4) && x.bdim == 1 && proj p1 && proj p2 &&
       p1.size 0 == x.size 1 && p1.size 1 == 64 && p2.size 0 == 64 && g != 0 && f % g == 0 &&
       listOperand c .fp32 sc && sc.size 0 == f / g &&
       (match out with
        | some o => listOperand c .s32 o && decide (k + 1 ≤ o.size 0) && decide (1 ≤ k) && decide (k ≤ 64)
        | none => true) &&
       (match cal with
        | some t => cmpOperand c t && t.flat && (t.lay == .bt || t.lay == .cl) && t.size 1 == f
        | none => true)) then (s, .desc)
  else
    let t1 := (v.loadTile p1 false).1
    let t2 := (v.loadTile p2 false).1
    let sab := F32.mul (v.tscale x) t1.tscale
    let rows := (List.range (x.size 0)).map fun m => batRow v x t1 t2 sab m
    let clips := (rows.map (·.2)).foldl (· + ·) 0
    let ng := f / g
    let scores := (List.range ng).map fun i =>
      let a0 : F32 := if obit opt 9 then (v.value sc.asList [i, 0]).f32 else 0
      rows.foldl (fun a r => batSum a ((r.1.drop (i * g)).take g)) a0
    let n := min k ng
    let chosen := (List.range ng).filter (topK n scores).contains
    let selW := match out with
      | some o => (chosen.zipIdx.map fun (v, i) => o.asList.put [i, 0] v) ++ [o.asList.put [n, 0] n]
      | none => []
    let chunks := (x.size 0 + 255) / 256
    let loads := chunks * ((x.size 1 + 255) / 256 + (f + s.modeWidth c 0 0 - 1) / s.modeWidth c 0 0)
    let beats := ((x.size 1 + 255) / 256 + (f + s.modeWidth c 0 0 - 1) / s.modeWidth c 0 0) * x.size 0
    let cols := match cal with | some t => v.calCols t | none => []
    let miss := (cols.filter fun j => !(decide (sel = true) && chosen.contains (j / g))).length
    let calBad := match cal with
      | some t => ((List.range t.tiles).filter fun i => (v.readTile t i).bad).length
      | none => 0
    let calDrop := match cal with
      | some t => ((List.range t.tiles).map fun i => (v.readTile t i).drops).foldl (· + ·) 0
      | none => 0
    let (s, rk) := s.readOperands ([x, p1, p2] ++ (if obit opt 9 then [sc] else []) ++ cal.toList)
    let (s, wk) := s.wrCode ((scores.zipIdx.map fun (v, i) => sc.asList.put [i, 0] v.toNat) ++ selW)
    let s := ((s.bump (Reg.corLoadBeatCnt c) (128 * loads)).bump (Reg.corStreamBeatCnt c) beats).noteEvents c clips 0 0
    let s := (s.bump (Reg.corBatNzCnt c) cols.length).bump (Reg.corBatMissCnt c) miss
    let s := (s.noteDrops c (Reg.corTileBadCnt c) calBad).noteDrops c (Reg.corDropIdxCnt c) calDrop
    let s := (s.onCore c fun k => { k with mode := 0, tiles := [], cells := [], chains := [], acc := [], accGen := s.freeCtr + 1 }).drawn
    (s, (countCode (clips + calBad + calDrop != 0)).max (rk.max wk))

end Sys2Proof.Machine
end

