-- ==== Sys2Proof/Machine/Exchange.lean ====
section
/-! DEFINITION. The exchange unit (spec/15_expert_routing.md): work rings and blocks, routing and admission, batches and
their tags at the source, headers, expert entries and answers at a destination, the backward operations and the
bias loop. -/

namespace Sys2Proof.Machine
open Sys2Proof

/-! ### Access at job virtual addresses (R365) -/

/-- The unit of R341 whose epoch the exchange runs under: its two halves act as one, and the west half stands for it. -/
def xchUnit : Nat := 1048

def State.xchRoot (s : State) : Word := s.epReg xchUnit Reg.sipPtRoot

/-- A chain of accesses that has met nothing yet. -/
def chain (s : State) : VaRes := ⟨s, [], none, false⟩

namespace VaRes

/-- Read `n` bytes. -/
def get (r : VaRes) (va n : Nat) : VaRes × List Byte :=
  if r.fault.isSome then (r, []) else
  let q := r.s.vaRead r.s.xchRoot 3 .any va n
  ({ q with bytes := [], bad := r.bad || q.bad }, q.bytes)

/-- Read a little-endian number. -/
def getLE (r : VaRes) (va n : Nat) : VaRes × Nat :=
  let x := r.get va n
  (x.1, leNat x.2)

/-- Write bytes. -/
def put (r : VaRes) (va : Nat) (bs : List Byte) : VaRes :=
  if r.fault.isSome then r else
  let q := r.s.vaWrite r.s.xchRoot 3 .any va bs
  { q with bytes := [], bad := r.bad || q.bad }

/-- Write elements. -/
def puts (r : VaRes) (ws : List ElemWrite) : VaRes :=
  if r.fault.isSome then r else
  let q := r.s.vaPut r.s.xchRoot 3 .any ws
  { q with bytes := [], bad := r.bad || q.bad }

/-- The code of an element. -/
def raw (r : VaRes) (t : TD) (m : List Nat) : VaRes × Nat :=
  let a := (t.elemBit m).toNat
  let x := r.getLE (a / 8) ((a % 8 + t.bits + 7) / 8)
  (x.1, (x.2 >>> (a % 8)) % 2 ^ t.bits)

/-- The value of an element, every scale applied (R40). -/
def value (r : VaRes) (t : TD) (m : List Nat) : VaRes × FVal :=
  if r.fault.isSome then (r, .zero) else
  let x := r.s.vaElem r.s.xchRoot 3 .any t m
  ({ x.1 with bytes := [], bad := r.bad || x.1.bad }, x.2)

/-- Do one step for every member of a list, and collect what the steps give. -/
def each {α β : Type} (f : VaRes → α → VaRes × β) : VaRes → List α → VaRes × List β
  | r, [] => (r, [])
  | r, x :: xs =>
    let y := f r x
    let z := each f y.1 xs
    (z.1, y.2 :: z.2)

end VaRes

/-! ### Rows as they travel (R368) -/

/-- The format of a travelling row: its element format, the elements under one scale byte (32 in a block, 1 in T2, 0 where
there are none), and its elements. -/
structure RowFmt where
  f : Fmt
  per : Nat
  h : Nat

namespace RowFmt

def dataLen (x : RowFmt) : Nat := (x.h * x.f.bits + 7) / 8
def nblk (x : RowFmt) : Nat := (x.h + 31) / 32
/-- Scale bytes of a row. -/
def nscale (x : RowFmt) : Nat := if x.per = 0 then 0 else (x.h + x.per - 1) / x.per

/-- Bytes of a row: its elements, then its scale bytes, then its escape words (log entry 53). -/
def len (x : RowFmt) : Nat := x.dataLen + x.nscale + (if x.f = .f4x then 4 * x.nblk else 0)

/-- The value of element `i` of a row, its block scale or T2 row scale applied (R40, R44). -/
def val (x : RowFmt) (bs : List Byte) (i : Nat) : FVal :=
  let c := bitsAt bs (i * x.f.bits) x.f.bits
  let w := if x.f = .f4x then blockField bs (x.dataLen + x.nscale + 4 * (i / 32)) 4 else 0
  let v := elemVal x.f c w (i % 32)
  if x.per = 0 then v
  else
    let b := blockField bs (x.dataLen + i / x.per) 1
    if x.f = .t2 then v.mul (Fmt.e4m3.decode b) else underScale b v

/-- A row from its codes, scale bytes and escape words. -/
def pack (x : RowFmt) (codes scales escs : List Nat) : List Byte :=
  packBits x.f.bits codes 1 ++ (if x.per = 0 then [] else scales.map (BitVec.ofNat 8)) ++
  (if x.f = .f4x then escs.flatMap (natLE 4) else [])

end RowFmt

/-- The row format of answers in a format code: blocks run along the row in the formats that need them (log entry 53). -/
def answerFmt (f : Fmt) (h : Nat) : RowFmt := ⟨f, if f.is4 then 32 else 0, h⟩

/-- The row format of a tensor: a T2 row whose output index runs along it has a scale for each element (R208, R428). -/
def TD.rowFmt (t : TD) (h : Nat) : RowFmt :=
  ⟨t.fm, if t.hasBlocks then 32 else if t.fm = .t2 ∧ t.bdim = 1 then 1 else 0, h⟩

/-- The address of scale byte `b` of a row; `at_` gives the coordinates of its element `j`. -/
def TD.rowScaleAddr (t : TD) (at_ : Nat → List Nat) (b : Nat) : Nat :=
  if t.fm = .t2 then t.scaleAddr b else t.scaleAddr (t.block (at_ (32 * b)))

/-- Read one row of a tensor; `at_` gives the coordinates of its element `j`. -/
def VaRes.row (r : VaRes) (t : TD) (h : Nat) (at_ : Nat → List Nat) : VaRes × List Byte :=
  let x := t.rowFmt h
  let (r, codes) := r.each (fun r j => r.raw t (at_ j)) (List.range h)
  let (r, scales) := r.each (fun r b => r.getLE (t.rowScaleAddr at_ b) 1) (List.range x.nscale)
  let (r, escs) := r.each (fun r b => r.getLE (t.escAddr (t.block (at_ (32 * b)))) 4)
    (if t.fm = .f4x then List.range x.nblk else [])
  (r, x.pack codes scales escs)

/-- The writes that place a travelling row into a tensor of its format. -/
def TD.rowWrites (t : TD) (h : Nat) (at_ : Nat → List Nat) (bs : List Byte) : List ElemWrite :=
  let x := t.rowFmt h
  t.writes ((List.range h).map fun j => (at_ j, bitsAt bs (j * t.bits) t.bits)) ++
  ((List.range x.nscale).map fun b => (8 * t.rowScaleAddr at_ b, 8, blockField bs (x.dataLen + b) 1)) ++
  (if t.fm = .f4x then (List.range x.nblk).map fun b =>
    (8 * t.escAddr (t.block (at_ (32 * b))), 32, blockField bs (x.dataLen + x.nscale + 4 * b) 4) else [])

/-- Convert values into a destination under R61 and R62: the exponent of every block is its own; `scale` gives the row
scales of a T2 destination. -/
def convOut (d : ConvDst) (scale : List Nat → FVal) (ys : List (List Nat × F32)) : BlockOut :=
  let els := ys.map fun (m, y) => ConvEl.mk m (tensorScaled y d.tx)
  if d.t.hasBlocks then
    (blocksOf d els).foldr (fun b o => (convBlock d b.n (rowExp d.t.fm (b.els.map (·.v))) b.els).add o) {}
  else convPlain d scale els

/-- Write converted values, raising the amax slot of a destination that has a tensor scale (R70): the chain, and the
elements that saturated, those beyond two escapes among them. A T2 destination keeps the row scales that it holds: the
operation supplies none and asks for none (R45; log entry 114). -/
def VaRes.convert (r : VaRes) (d : ConvDst) (ys : List (List Nat × F32)) : VaRes × Nat :=
  let rows := if d.t.fm = .t2 ∧ d.t.bdim < 6 then List.range (d.t.size d.t.bdim) else []
  let (r, scales) := r.each (fun r i => r.getLE (d.t.scaleAddr i) 1) rows
  let o := convOut d (fun m => Fmt.e4m3.decode (scales.getD (m.getD d.t.bdim 0) 0x38)) ys
  let r := r.puts (d.writes o)
  ({ r with s := r.s.amaxNote d.t (ys.map (·.2)) }, o.clips)

/-- Undefined results: every element of a tensor takes a free code. -/
def State.scramble (s : State) (t : TD) : State :=
  let ms := (List.range t.count).map t.coords
  let ws := (ms.zipIdx).map fun (m, i) => t.put m ((Config.freeEntry s.freeCtr i).toNat % 2 ^ t.bits)
  if t.isStream then s.drawn else ((chain s.drawn).puts ws).s

/-! ### Blocks (R364 to R366) -/

namespace XBlock

def fld (b : XBlock) (o n : Nat) : Nat := blockField b.bytes o n
def op (b : XBlock) : Nat := b.fld 0 1
def half (b : XBlock) : Nat := b.fld 1 1 % 2
def layer (b : XBlock) : Nat := b.fld 2 1
def t (b : XBlock) : Nat := b.fld 4 4
def step (b : XBlock) : Nat := b.fld 8 8
def done (b : XBlock) : Nat := b.fld 0x10 8
def start (b : XBlock) : Nat := b.fld 0x18 8
def tgt (b : XBlock) : BitVec 32 := BitVec.ofNat 32 (b.fld 0x20 4)
def rec_ (b : XBlock) : Nat := b.fld 0x28 8
def ret (b : XBlock) : Nat := b.fld 0x30 8
def link (b : XBlock) : Nat := b.fld 0x38 8
def da (b : XBlock) : TD := td (BitVec.ofNat 512 (b.fld 0x40 64))
def db (b : XBlock) : TD := td (BitVec.ofNat 512 (b.fld 0x80 64))
def dc (b : XBlock) : TD := td (BitVec.ofNat 512 (b.fld 0xC0 64))

end XBlock

/-- The registers of a ring: configuration and status. -/
def ringRegs (r : Nat) : Nat × Nat :=
  if r < 4 then (Reg.xchWringCfg r, Reg.xchWringStat r) else (Reg.xchCringCfg (r - 4), Reg.xchCringStat (r - 4))

/-- The next block of a ring that its submission counter has passed: its index and local address (R364). -/
def State.ringNext (s : State) (r : Nat) : Option (Nat × Nat) :=
  let (c, st) := ringRegs r
  let base := s.fld c 47 12 * 4096
  let n := 2 ^ (if 4 ≤ s.fld c 51 48 ∧ s.fld c 51 48 ≤ 12 then s.fld c 51 48 else 12)
  let i := s.fld st 63 32
  let a := base + 256 + 256 * (i % n)
  let here (x : Nat) : Bool := (match s.target x with | .gddr .. => true | _ => false) && (s.accessFail x).isNone
  if s.domUp 4 && s.bit c 63 && here base && here a && decide (0 ≤ dist32 (s.rdLE base 4) (i + 1)) then some (i, a)
  else none

/-- Change a block. -/
def State.onX (s : State) (b : XBlock) (f : XBlock → XBlock) : State :=
  { s with xch := { s.xch with blocks := s.xch.blocks.map fun x =>
      if x.ring = b.ring ∧ x.idx = b.idx then f x else x } }

/-- Whether a submitted block that the unit has not taken, or one that it has, stands at a block's place in its ring. -/
def State.slotTaken (s : State) (b : Batch) : Bool :=
  let c := Reg.xchWringCfg b.ring
  let n := 2 ^ (if 4 ≤ s.fld c 51 48 ∧ s.fld c 51 48 ≤ 12 then s.fld c 51 48 else 12)
  let base := s.fld c 47 12 * 4096
  let next := s.fld (Reg.xchWringStat b.ring) 63 32
  let i := next + ((b.addr - (base + 256)) / 256 + n - next % n) % n
  s.xch.blocks.any (fun x => x.addr == b.addr) || decide (0 ≤ dist32 (s.rdLE base 4) (i + 1))

/-- The batch that a LINK names: the one that the block at that address dispatched; a retired one only while no later
block stands at that address (R365, R380). -/
def State.linkBatch (s : State) (va : Nat) : Option Batch :=
  match s.translate s.xchRoot (va % 2 ^ 48) 3 true false with
  | .local_ a => s.xch.batches.find? fun b => b.addr == a && (b.live || !s.slotTaken b)
  | _ => none

/-- End the life of a tag: its COMBINE or GATHER_B has ended (R379). -/
def State.dropTag (s : State) (tag : Nat) : State :=
  { s with xch := { s.xch with batches := s.xch.batches.filter fun x => x.tag != tag } }

/-- What the exchange unit forgets as a block ends: the tag of the batch that a COMBINE or GATHER_B closes (R379); of a
collective the contributions, and that it runs (R432). -/
def State.closeX (s : State) (b : XBlock) : State :=
  let s := { s with xch := { s.xch with blocks := s.xch.blocks.filter fun x => !(x.ring == b.ring && x.idx == b.idx) } }
  if b.ring < 4 then
    match (if b.op = 2 ∨ b.op = 4 then s.linkBatch b.link else none) with
    | some t => if t.live then s.dropTag t.tag else s
    | none => s
  else
    let g := (s.reg Reg.cslGstep).toNat
    { s with xch := { s.xch with
        parts := s.xch.parts.filter fun p => !(p.coll.toNat == b.fld 0x24 4 && p.step.toNat == b.step)
        ended := (b.fld 0x24 4, b.step) :: s.xch.ended.filter fun e => decide (g < e.2 + 2) } }

/-- End a block: its code goes to STATUS (and a collective's LIVE beside it), and the unit arrives at DONE (R366). -/
def State.endX (s : State) (b : XBlock) (c : Code) : State :=
  let s := s.closeX b
  let s := (s.wrLE (b.addr + (if b.ring < 4 then 3 else 2)) 1 c.toNat).setFld (ringRegs b.ring).2 7 0 c.toNat
  let s := if b.ring < 4 then s else s.wrLE (b.addr + 6) 2 b.live
  (s.arriveVa s.xchRoot 3 (b.done % 2 ^ 48) 1).1

/-- A block as it is taken. -/
def newBlock (r i a : Nat) (bs : List Byte) : XBlock where
  ring := r
  idx := i
  addr := a
  bytes := bs
  started := false
  tag := 0
  sent := 0
  code := .ok
  live := 0

/-- Take a block: it is read once, and NEXT moves on (R364, R365). -/
def State.takeX (s : State) (r i a : Nat) : State × XBlock :=
  let b := newBlock r i a (s.rdBytes a 256)
  let s := (s.noteRead a 256).setFld (ringRegs r).2 63 32 (i + 1)
  -- a retired batch's slot in the ring is another block's now (R380)
  let move (x : Batch) : Batch := if !x.live && x.addr == a then { x with addr := 2 ^ 48 } else x
  ({ s with xch := { s.xch with blocks := s.xch.blocks ++ [b], batches := s.xch.batches.map move } }, b)

/-- XCH_BLOCK_TAKE (R364). A block of a later step waits for the bias update (R377); one that is uncorrectable ends with
0x50, and one whose LINK names a retired batch with 0x11 (R380). -/
def execXchBlockTake (r : Fin 4) (s : State) : Out :=
  match s.ringNext r.val with
  | none => .next s
  | some (i, a) =>
    let bad := s.rdBad a 256
    let step := blockField (s.rdBytes a 256) 8 8
    if (match s.xch.step with | some n => decide (n < step) | none => false) then .next s else
    let (s, b) := s.takeX r.val i a
    let s := { s with xch := { s.xch with step := some (s.xch.step.getD step) } }
    if bad then .next (s.endX b .ecc)
    else if decide (2 ≤ b.op) && decide (b.op ≤ 4) && (s.linkBatch b.link).any (fun x => !x.live) then
      .next (s.endX b .cancelled)
    else .next s

/-! ### The layer table (R367) -/

/-- Local address of a layer slot under the unit's epoch. -/
def State.layerAt (s : State) (l : Nat) : Nat := s.epFld xchUnit Reg.xchLayerBase 47 12 * 4096 + 4096 * l

def State.layerE (s : State) (a : Nat) : Nat := s.rdLE a 2
def State.layerK (s : State) (a : Nat) : Nat := s.rdLE (a + 2) 1
def State.layerRfmt (s : State) (a : Nat) : Fmt := (Fmt.ofCode (s.rdLE (a + 0x14) 1)).getD .fp32

/-- The device that holds an expert. -/
def State.place (s : State) (a e : Nat) : Nat := s.rdLE (a + 0x80 + 2 * e) 2 % 4096

/-- The experts that a device holds, in ascending order: position is the local index. -/
def State.expertsOf (s : State) (a d : Nat) : List Nat := (List.range (s.layerE a)).filter fun e => s.place a e == d

/-- Whether a slot can be read, and its values are in range. -/
def State.layerOk (s : State) (a : Nat) : Bool :=
  let n (o w : Nat) := s.rdLE (a + o) w
  (match s.target a with | .gddr .. => true | _ => false) && (s.accessFail a).isNone &&
  decide (1 ≤ n 0 2) && decide (n 0 2 ≤ 256) && decide (1 ≤ n 2 1) && decide (n 2 1 ≤ 2) && decide (n 3 1 ≤ 15) &&
  decide (1 ≤ n 4 2) && decide (1 ≤ n 6 2) && decide (n 6 2 ≤ 1024) && decide (n 0x15 1 ≤ 3) && decide (n 0x16 2 ≤ 256) &&
  (match Fmt.ofCode (n 0x14 1) with | some f => f != .t2 | none => false)

/-! ### Checks (R366, R368) -/

/-- An FP32 or S32 matrix operand. -/
def plainMat (d : TD) (f : Fmt) (r c : Nat) : Bool :=
  d.ok && !d.isStream && d.flat && d.fm == f && d.bdim == 7 && d.size 0 == r && d.size 1 == c

/-- Token rows: a multiple of 32 elements, with blocks along the row. -/
def tokenRows (d : TD) (r : Nat) : Bool :=
  d.ok && !d.isStream && d.flat && d.size 0 == r && d.size 1 != 0 && d.size 1 % 32 == 0 &&
  (d.bdim == 1 || d.bdim == 7) && d.fm != .t2

/-- Whether a block passes the checks of its operation. -/
def State.checkX (s : State) (b : XBlock) : Bool :=
  let e := s.layerE b.slot
  let k := s.layerK b.slot
  let h : Nat := ((s.linkBatch b.link).map (·.h)).getD 0
  let tOk := (s.linkBatch b.link).any fun x => x.tokens == b.t && x.live
  decide (b.fld 1 1 < 2) && b.fld 0x26 2 == 0 && decide (1 ≤ b.t) && decide (b.t ≤ 65536) && decide (b.layer < 64) && s.layerOk b.slot &&
  (match b.op with
   | 0 => plainMat b.da .fp32 b.t e && plainMat b.db .fp32 b.t e &&
          b.dc.okList && !b.dc.isStream && b.dc.fm == .fp32 && b.dc.size 0 == e
   | 1 => tokenRows b.da b.t && plainMat b.db .s32 b.t k && plainMat b.dc .fp32 b.t k
   | 2 => tOk && tokenRows b.db b.t && b.db.size 1 == h
   | 3 => tokenRows b.da b.t && plainMat b.dc .fp32 b.t e
   | 4 => tOk && tokenRows b.db b.t && b.db.size 1 == h
   | 5 => plainMat b.da .fp32 b.t e && plainMat b.db .fp32 b.t e && plainMat b.dc .fp32 b.t e
   | _ => false)

/-! ### Starts, batches and tags (R365, R378, R379) -/

/-- Where the START counter of a block stands: reached, not reached, or a code; a counter at a peer is reached once the
peer has answered the wait. -/
def State.startX (s : State) (b : XBlock) : Option Code × Bool :=
  let va := b.start
  if va = 0 then (none, true)
  else if va % 4 ≠ 0 then (some .desc, false)
  else match s.counterHome s.xchRoot (va % 2 ^ 48) 3 false with
    | .fault c _ => (some c, false)
    | .remote _ _ => (if b.code = .ok then none else some b.code, b.reached)
    | .local_ h => (none, ahead (s.counterAt h) b.tgt)

/-- Whether the START counter of a block is at a peer. -/
def State.startAway (s : State) (b : XBlock) : Bool :=
  match s.counterHome s.xchRoot (b.start % 2 ^ 48) 3 false with
  | .remote .. => true
  | _ => false

/-- Send a block's wait to the peer that holds its START counter (R257, R365). -/
def State.askX (s : State) (b : XBlock) : State :=
  match s.counterHome s.xchRoot (b.start % 2 ^ 48) 3 false with
  | .remote d a =>
    let s := s.onX b fun b => { b with asked := true }
    (match s.linkTo d a with
     | (s, none) => s.wakeX b.ring b.idx .link
     | (s, some l) =>
       (s.sendPkt l d 0 0 (s.nextReq % 65536) (globalAddr d a) (waitBody b.tgt)).request l d
         (.wait (.block ⟨b.ring % 8, Nat.mod_lt _ (by decide)⟩ (BitVec.ofNat 32 b.idx))))
  | _ => s

/-- Whether a batch still waits for an answer. -/
def Batch.pending (b : Batch) : Bool := !b.sent || b.assigns.any fun a => a.st == .pending

/-- The next tag (R379). -/
def State.nextTag (s : State) : Nat :=
  let busy (t : Nat) : Bool := s.xch.batches.any fun b => b.tag == t && (b.live || !b.acks.isEmpty)
  let t := fun i => (s.xch.lastTag + 1 + i) % 65536
  t (((List.range (s.xch.batches.length + 1)).find? fun i => !busy (t i)).getD 0)

/-- Start a batch under its tag. -/
def State.openBatch (s : State) (b : XBlock) : State :=
  let t := s.nextTag
  let h := b.da.size 1
  let x : Batch :=
    { tag := t, ring := b.ring, addr := b.addr, bytes := b.bytes, layer := b.layer, place := b.slot, half := b.half,
      h := h, k := s.layerK b.slot, tokens := b.t, rowLen := (answerFmt (s.layerRfmt b.slot) h).len, sent := false,
      assigns := [], dests := [], refused := [], code := .ok, live := true, due := false, acks := [] }
  { s with xch := { s.xch with lastTag := t, batches := x :: s.xch.batches.filter fun y => y.tag != t } }.onX b
    fun x => { x with started := true, tag := t, slot := b.slot }

/-- The code that a block ends with at its start where a check fails: the LINK of COMBINE and GATHER_B is translated, then
come the checks of this chapter (R232, R365, R366). -/
def State.startFails (s : State) (b : XBlock) : Option Code :=
  match (if b.op = 2 ∨ b.op = 4 then s.translate s.xchRoot (b.link % 2 ^ 48) 3 true false else .local_ 0) with
  | .fault c _ => some c
  | _ => if s.checkX b then none else some .desc

/-- Whether the limits of R378 and R379 hold a block back: 32 live tags, or an earlier batch of its layer and half. -/
def State.limited (s : State) (b : XBlock) : Bool :=
  decide (b.ring < 4) && (b.op == 1 || b.op == 3) && (s.startFails { b with slot := s.layerAt b.layer }).isNone &&
  (decide (32 ≤ (s.xch.batches.filter (·.live)).length) ||
    s.xch.batches.any fun x => x.live && x.layer == b.layer && x.half == b.half && x.pending)

/-- Start a block whose START counter is reached. A batch and a collective take up the unit's new epoch (R341, R367). -/
def State.startBlock (s : State) (b : XBlock) : State :=
  let batch := b.op = 1 ∨ b.op = 3
  let s := if 4 ≤ b.ring ∨ batch then (s.switchAll 1048).switchAll 1049 else s
  if 4 ≤ b.ring then s.onX b fun b => { b with started := true } else
  let b := { b with slot := s.layerAt b.layer }
  match s.startFails b with
  | some c => s.endX b c
  | none => if batch then s.openBatch b else s.onX b fun x => { x with started := true, slot := b.slot }

/-- Whether a taken block need not wait for its start. -/
def State.startable (s : State) (b : XBlock) : Bool := (s.startX b).1.isSome || ((s.startX b).2 && !s.limited b)

/-- XCH_BLOCK_START: the first taken block of a ring that need not wait starts: its START counter is reached, no cairn
pauses the device, and its limits allow it; where there is none, the next wait at a peer's START counter is sent (R365,
R378, R379, R446). Rings 4 to 7 are the collective rings. -/
def execXchBlockStart (r : Fin 8) (s : State) : Out :=
  if s.paused || s.isOff 7 32 || s.isOff 7 33 then .next s else
  let mine := s.xch.blocks.filter fun b => b.ring == r.val && !b.started
  match mine.find? s.startable with
  | some b =>
    match s.startX b with
    | (some c, _) => .next (s.endX b c)
    | (none, _) => .next (s.startBlock b)
  | none =>
    match mine.find? fun b => !b.asked && s.startAway b with
    | some b => .next (s.askX b)
    | none => .next s

/-- The started block of a ring and index, where its operation is `op` and no retraining slice holds its operands
(R396). -/
def State.xOf (s : State) (r : Nat) (idx : BitVec 32) (op : Nat) : Option XBlock :=
  (s.xch.blocks.find? fun b => b.ring == r && b.idx == idx.toNat && b.started && b.op == op).filter fun b =>
    !s.vaTraining s.xchRoot 3 (b.da.bytes ++ b.db.bytes ++ b.dc.bytes)

def State.batch (s : State) (tag : Nat) : Option Batch := s.xch.batches.find? fun b => b.tag == tag

/-! ### ROUTE (R369) -/

/-- The probabilities of one row of logits, none where one is infinite or a NaN. -/
def routeRow (l : List F32) : Option (List F32) :=
  if l.any fun x => !(F32.val x).isFin then none else
  let m := l.foldl F32.maxOf (l.headD 0)
  let xs := l.map fun x => F32.expNonPos (F32.sub x m)
  let sum := xs.foldl F32.add 0
  some (xs.map fun x => F32.div x sum)

/-- The probabilities of row `t` of the logits, NaN throughout where one is not finite, and whether the row is such a one. -/
def VaRes.routeOne (x : VaRes) (b : XBlock) (e t : Nat) : VaRes × Bool :=
  let (x, l) := x.each (fun x j => x.raw b.da [t, j]) (List.range e)
  let p := routeRow (l.map (BitVec.ofNat 32))
  let row := p.getD (List.replicate e F32.nan)
  (x.puts (b.db.writes ((row.zipIdx).map fun (v, j) => ([t, j], v.toNat))), p.isNone)

/-- The accesses of a ROUTE, and the rows that are NaN. -/
def State.routeRun (s : State) (b : XBlock) : VaRes × Nat :=
  let e := s.layerE b.slot
  let (x, bad) := (chain s).each (fun x t => x.routeOne b e t) (List.range b.t)
  (x.puts ((List.range e).map fun j => b.dc.asList.put [j, 0] (s.rdLE (b.slot + 0x280 + 4 * j) 4)), (bad.filter id).length)

/-- ROUTE: the probabilities, and the copy of the biases. -/
def execRoute (r : Fin 4) (idx : BitVec 32) (s : State) : Out :=
  match s.xOf r.val idx 0 with
  | none => .next s
  | some b =>
    let x := s.routeRun b
    .next ((x.1.s.bump Reg.xchRouteNanCnt x.2).endX b (x.1.code.max (if x.2 = 0 then .ok else .counts)))

/-! ### DISPATCH (R371 to R373) -/

/-- One selection: its place t * K + r, its entry of I, its raw score. -/
structure Sel where
  slot : Nat
  e : Int
  w : F32

/-- The admission order of one expert's selections: score descending, NaN last, then the place (R371). -/
def admitOrder (l : List Sel) : List Sel :=
  ((l.zipIdx).foldl (fun acc (x, i) => insTop (i, x.w) acc) []).filterMap fun (i, _) => l[i]?

/-- The bytes of a header packet: step, layer, half, direction, elements of a row, and the rows per local expert
(log entry 53). -/
def headBytes (hd : XHead) (experts : Nat) : List Byte :=
  natLE 8 hd.step.toNat ++ natLE 1 hd.layer.val ++ natLE 1 hd.half.toNat ++ natLE 1 hd.dir.toNat ++ natLE 1 0 ++
  natLE 4 hd.h ++ (List.range experts).flatMap fun e => natLE 4 (hd.rows.filter fun r => r.expert == e).length

/-- Send exchange packets to a device by the route of a tag; false where it cannot be reached. -/
def State.sendXch (s : State) (tag d : Nat) (msgs : List (List Byte)) : State × Bool :=
  match s.routeBy d (Nat.xor tag d) with
  | none => (s.bump Reg.cslRouteDropCnt 1, false)
  | some l =>
    if s.linkGone l then (s, false)
    else (msgs.foldl (fun s m => (allPayloads m).foldl
      (fun s p => s.sendPkt l d 5 0 tag (d <<< 48) p) s) s, true)

/-- The 16-byte route record of a row (log entry 53). -/
def routeRecord (slot expert step : Nat) : List Byte := natLE 4 slot ++ natLE 4 expert ++ natLE 8 step

/-- Whether a step is one that this device takes up: GSTEP or GSTEP + 1 (R426). -/
def State.stepAgrees (s : State) (n : Nat) : Bool :=
  n == (s.reg Reg.cslGstep).toNat || n == (s.reg Reg.cslGstep).toNat + 1

def insHead (h : InHead) : List InHead → List InHead
  | [] => [h]
  | x :: l => if h.src ≤ x.src then h :: x :: l else x :: insHead h l

/-- Put a header into the first batch of its step, layer, half and direction that has none of its source and is not
placed; `at_` is the layer's slot. -/
def addHead (hd : XHead) (at_ : Nat) : List Inbound → List Inbound
  | [] => [⟨hd.step.toNat, hd.layer.val, at_, hd.half.toNat, hd.dir.toNat,
            [⟨hd.src.toNat, hd.tag.toNat, hd.h, hd.rows, false⟩], false, [], 0⟩]
  | g :: l =>
    if g.step = hd.step.toNat ∧ g.layer = hd.layer.val ∧ g.half = hd.half.toNat ∧ g.dir = hd.dir.toNat ∧
        !g.placed ∧ !(g.heads.any fun x => x.src == hd.src.toNat)
    then { g with heads := insHead ⟨hd.src.toNat, hd.tag.toNat, hd.h, hd.rows, false⟩ g.heads } :: l
    else g :: addHead hd at_ l

/-- A header at its destination; false where it is refused under the step agreement (R426). A dropped source's batch is
discarded (R437). -/
def State.takeHead (s : State) (hd : XHead) : State × Bool :=
  if s.dropped hd.src.toNat then (s, true)
  else if !s.stepAgrees hd.step.toNat then (s.bump Reg.cslStepRefuseCnt 1, false)
  else ({ s with xch := { s.xch with inbound := addHead hd (s.layerAt hd.layer.val) s.xch.inbound } }, true)

/-- The messages of a batch to one device: its header and its rows (R373). -/
def XHead.msgs (hd : XHead) (experts : Nat) : List (List Byte) :=
  headBytes hd experts :: hd.rows.map fun r => routeRecord r.slot r.expert hd.step.toNat ++ r.data

/-- Send a batch to every destination: this device itself, and every device that holds an expert and is not dropped. -/
def State.sendBatch (s : State) (b : XBlock) (dir : Bool) (h : Nat) (rows : List (Nat × Nat × List Byte)) : State :=
  let tag := b.tag
  let devs := ((List.range (s.layerE b.slot)).map (s.place b.slot)).foldl insertKey []
  let devs := devs.filter fun d => !s.dropped d
  let layer : Fin 64 := ⟨b.layer % 64, Nat.mod_lt _ (by decide)⟩
  let s := s.onBatch tag fun x => { x with
    sent := true, dests := devs
    assigns := rows.map fun (slot, e, _) => ⟨slot, s.place b.slot e, .pending⟩ }
  let s := (rows.filter fun (_, e, _) => s.dropped (s.place b.slot e)).foldl
    (fun s (_, e, _) => s.loseBatchTo tag (s.place b.slot e)) s
  devs.foldl (fun s d =>
    let ex := s.expertsOf b.slot d
    let hd : XHead :=
      { src := BitVec.ofNat 12 s.devId, tag := BitVec.ofNat 16 tag, step := BitVec.ofNat 64 b.step, layer := layer,
        half := b.half == 1, dir := dir, h := h,
        rows := rows.filterMap fun (slot, e, bs) =>
          if s.place b.slot e = d then some ⟨ex.idxOf e, slot, bs⟩ else none }
    if d = s.devId then
      let (s, ok) := s.takeHead hd
      if ok then s else (s.onBatch tag fun x => { x with refused := d :: x.refused }).loseBatchTo tag d
    else
      let (s, ok) := s.sendXch tag d
        (XHead.msgs hd ex.length)
      if ok then s else s.loseBatchTo tag d) s

/-- The code that the losses of a batch give the block that sends it: 0x41 where this device itself refuses it, 0x01 where an
assignment was lost (R366, R382). -/
def State.sentCode (s : State) (tag : Nat) : Code :=
  match s.batch tag with
  | some b => if !b.refused.isEmpty then .peer else if b.assigns.any fun a => a.st == .lost then .counts else .ok
  | none => .ok

/-- End a block that never sent its batch: its tag is free again. -/
def State.failBatch (s : State) (b : XBlock) (c : Code) : State :=
  { s with xch := { s.xch with batches := s.xch.batches.filter fun x => x.tag != b.tag } }.endX b c

/-- The selections of a DISPATCH: the entry of I and the raw score at each place. -/
def State.selections (s : State) (b : XBlock) : VaRes × List Sel :=
  let k := s.layerK b.slot
  (chain s).each (fun x n =>
    let (x, i) := x.raw b.db [n / k, n % k]
    let (x, w) := x.raw b.dc [n / k, n % k]
    (x, Sel.mk n (sext 32 i) (BitVec.ofNat 32 w))) (List.range (b.t * k))

/-- The selections of expert `j` in the order of their admission. -/
def askFor (sel : List Sel) (j : Nat) : List Sel := admitOrder (sel.filter fun y => y.e == (j : Int))

/-- The admitted selections, as place and expert, expert by expert: the first of each up to its capacity, and none of a
dropped device's experts (R371, R437). -/
def State.admitted (s : State) (b : XBlock) (sel : List Sel) : List (Nat × Nat) :=
  (List.range (s.layerE b.slot)).flatMap fun j =>
    if s.dropped (s.place b.slot j) then [] else ((askFor sel j).take (s.rdLE (b.slot + 4) 2)).map fun y => (y.slot, j)

/-- The admitted selections by rising place. -/
def inOrder (n : Nat) (adm : List (Nat × Nat)) : List (Nat × Nat) :=
  (List.range n).filterMap fun i => adm.find? fun y => y.1 == i

/-- An entry of the routing record: the score, ADM and EXPERT, which is free where the entry of I names no expert (R372). -/
def State.recordEntry (s : State) (b : XBlock) (adm : List (Nat × Nat)) (y : Sel) : Nat :=
  y.w.toNat <<< 32 + (if adm.any fun z => z.1 == y.slot then 2 ^ 31 else 0) +
  (if 0 ≤ y.e ∧ y.e < (s.layerE b.slot : Int) then y.e.toNat else (Config.freeEntry s.freeCtr y.slot).toNat % 256)

/-- The rows of DA that a batch sends, with the place and the expert of each. -/
def VaRes.batchRows (x : VaRes) (b : XBlock) (k : Nat) (order : List (Nat × Nat)) : VaRes × List (Nat × Nat × List Byte) :=
  x.each (fun x y =>
    let (x, bs) := x.row b.da (b.da.size 1) fun j => [y.1 / k, j]
    (x, (y.1, y.2, bs))) order

/-- What a DISPATCH counts: for each expert the selections beyond its capacity, those for dropped devices, and the tokens
with no admitted selection (R371, R372, R437). -/
def State.tallies (s : State) (b : XBlock) (sel : List Sel) (adm : List (Nat × Nat)) : List (Nat × Nat) × Nat × Nat :=
  let k := s.layerK b.slot
  let e := s.layerE b.slot
  ((List.range e).map fun j => (j, (askFor sel j).length - s.rdLE (b.slot + 4) 2),
   (((List.range e).filter fun j => s.dropped (s.place b.slot j)).map fun j => (askFor sel j).length).sum,
   ((List.range b.t).filter fun t => !(List.range k).any fun q => adm.any fun z => z.1 == t * k + q).length)

/-- Whether a DISPATCH counted something. -/
def counted (n : List (Nat × Nat) × Nat × Nat) : Bool := n.1.any (fun y => y.2 != 0) || n.2.1 != 0 || n.2.2 != 0

/-- Write the routing record of a DISPATCH. -/
def State.putRecord (s : State) (b : XBlock) (sel : List Sel) (adm : List (Nat × Nat)) (x : VaRes) : VaRes :=
  { x with s := x.s.drawn }.put b.rec_ (sel.flatMap fun y => natLE 8 (s.recordEntry b adm y))

/-- DISPATCH: admission in each expert's order, the routing record, the loads, and the rows on their way. Assignments to
a dropped device's experts are not admitted and counted as lost (R437). -/
def execDispatch (r : Fin 4) (idx : BitVec 32) (s : State) : Out :=
  match s.xOf r.val idx 1 with
  | none => .next s
  | some b =>
    let la := b.slot
    let k := s.layerK la
    let (x, sel) := s.selections b
    let adm := s.admitted b sel
    let (x, rows) := x.batchRows b k (inOrder (b.t * k) adm)
    if x.fault.isSome then .next (x.s.failBatch b x.code) else
    let x := s.putRecord b sel adm x
    let n := s.tallies b sel adm
    let s1 := n.1.foldl (fun s (j, n) => s.bump (Reg.xchOverflowCnt j) n) x.s
    let s1 := (s1.bump Reg.xchLostAssignCnt n.2.1).bump Reg.xchSkipTokenCnt n.2.2
    let s1 := (List.range (s.layerE la)).foldl (fun s j =>
      s.wrLE (la + 0x680 + 4 * j) 4 (s.rdLE (la + 0x680 + 4 * j) 4 + (askFor sel j).length)) s1
    let s1 := (s1.wrLE (b.addr + 0x24) 2 b.tag).sendBatch b false (b.da.size 1) rows
    .next (s1.endX b ((x.code.max (s1.sentCode b.tag)).max (if counted n then .counts else .ok)))

/-! ### The routing record and the answers of a batch -/

/-- The entries of a routing record: weight, ADM and EXPERT by place. -/
def VaRes.record (x : VaRes) (at_ n : Nat) : VaRes × List (F32 × Bool × Nat) :=
  let (x, l) := x.each (fun x i => x.getLE (at_ + 8 * i) 8) (List.range n)
  (x, l.map fun v => (BitVec.ofNat 32 (v >>> 32), v.testBit 31, v % 256))

/-- The code that a batch's losses and refusals give its blocks (R382). -/
def Batch.lossCode (b : Batch) : Code :=
  let lost := b.assigns.any fun a => a.st == .lost && !b.refused.contains a.dev
  ((if lost then Code.link else .ok).max (if b.refused.isEmpty then .ok else .peer)).max b.code

/-- The admitted ranks of a token, in ascending EXPERT order, lost assignments left out (R375, R382). -/
def ranksOf (b : Batch) (rc : List (F32 × Bool × Nat)) (t : Nat) : List (Nat × F32) :=
  let on := (List.range b.k).filterMap fun q =>
    let n := t * b.k + q
    match rc[n]? with
    | some (w, true, e) => if b.assigns.any (fun a => a.slot == n && a.st == .lost) then none else some (n, w, e)
    | _ => none
  match on with
  | [x, y] => if y.2.2 < x.2.2 then [(y.1, y.2.1), (x.1, x.2.1)] else [(x.1, x.2.1), (y.1, y.2.1)]
  | l => l.map fun x => (x.1, x.2.1)

/-- Combine the answers of a batch into DB: each admitted answer times its weight where `weigh`, converted under a drip
key or RNE; the chain, and the elements that saturated. -/
def State.combineRun (s : State) (b : XBlock) (bt : Batch) (weigh : Bool) (key : Option DripKey) : VaRes × Nat :=
  let blk : XBlock := { b with bytes := bt.bytes }
  let f := answerFmt (s.layerRfmt bt.place) bt.h
  let (x, rc) := (chain s).record blk.rec_ (b.t * bt.k)
  let (x, rows) := x.each (fun x t =>
    x.each (fun x (n, w) => let (x, bs) := x.get (blk.ret + n * f.len) f.len; (x, (w, bs))) (ranksOf bt rc t)) (List.range b.t)
  let ys := (rows.zipIdx).flatMap fun (l, t) => (List.range bt.h).map fun j =>
    ([t, j], l.foldl (fun y (w, bs) =>
      let v := f.val bs j
      if weigh then F32.add y ((F32.val w).mul v).f32 else ((F32.val y).add v).f32) (0 : F32))
  if x.fault.isSome then (x, 0) else x.convert ⟨b.db, key, s.dstT b.db⟩ ys

/-- Run and end the block that closes a batch: the batch's tag is free (R379). -/
def State.combine (s : State) (b : XBlock) (bt : Batch) (weigh : Bool) (key : Option DripKey) : State :=
  let x := s.combineRun b bt weigh key
  let c := x.1.code
  let c := if x.1.fault.isSome then c else (c.max bt.lossCode).max (if x.2 = 0 then .ok else .counts)
  let t := x.1.s.endX b c
  if bt.live then t.dropTag bt.tag else t

/-- COMBINE, once every answer of the batch has landed (R375). -/
def execCombine (r : Fin 4) (idx : BitVec 32) (s : State) : Out :=
  match s.xOf r.val idx 2 with
  | none => .next s
  | some b =>
    match s.linkBatch b.link with
    | none => .next (s.endX b .desc)
    | some bt => if bt.pending then .next s else .next (s.combine b bt true none)

/-- The shape T x K x H in which a gradient row's elements are numbered (R376). -/
def gradShape (t k h : Nat) : TD := { td 0 with fmt := some .g4, layout := some .rm, sizes := [t, k, h, 0, 0, 0], bdim := 2 }

/-- What a COMBINE_B reads: the chain, the admitted entries of the record as place, weight and expert, the rows of dY, and
the dot products with the forward answers by token and expert (R376). -/
def State.backRun (s : State) (b : XBlock) : VaRes × List (Nat × F32 × Nat) × List (List FVal) × List (Nat × Nat × F32) :=
  let k := s.layerK b.slot
  let h := b.da.size 1
  let f := answerFmt (s.layerRfmt b.slot) h
  let (x, ret) := (chain s).getLE (b.link % 2 ^ 48 + 0x30) 8
  let (x, rc) := x.record b.rec_ (b.t * k)
  let (x, dys) := x.each (fun x t => x.each (fun x j => x.value b.da [t, j]) (List.range h)) (List.range b.t)
  let adm := (List.range (b.t * k)).filterMap fun n =>
    match rc[n]? with
    | some (w, true, ex) => some (n, w, ex)
    | _ => none
  let (x, dots) := x.each (fun x (n, _, ex) =>
    let (x, bs) := x.get (ret + n * f.len) f.len
    let d := forUpto h (fun j acc =>
      F32.add acc ((((dys.getD (n / k) []).getD j .zero)).mul (f.val bs j)).f32) (0 : F32)
    (x, (n / k, ex, d))) adm
  (x, adm, dys, dots)

/-- One gradient row as it travels: the weight times the row of dY, in G4 under the key of the slot's drip slot; and the
elements that saturated (R376). -/
def gradRow (t k h : Nat) (key : DripKey) (n : Nat) (w : F32) (dy : List FVal) : List Byte × Nat :=
  let shape := gradShape t k h
  let els := (List.range h).map fun j => ([n / k, n % k, j], ((F32.val w).mul (dy.getD j .zero)).f32)
  let o : BlockOut := convOut ⟨shape, some key, 0⟩ (fun _ => FVal.one) els
  let code (j : Nat) := ((o.codes.find? fun (c : List Nat × Nat) => c.1 == [n / k, n % k, j]).map Prod.snd).getD 0
  let scale (i : Nat) := ((o.scales.find? fun (c : Nat × Nat) => c.1 == shape.block [n / k, n % k, 32 * i]).map Prod.snd).getD 0
  let fmt : RowFmt := ⟨.g4, 32, h⟩
  (fmt.pack ((List.range h).map code) ((List.range fmt.nscale).map scale) [], o.clips)

/-- The gradient rows of a COMBINE_B, with the place and the expert of each (R376). -/
def State.gradRows (s : State) (b : XBlock) (adm : List (Nat × F32 × Nat)) (dys : List (List FVal)) :
    List ((Nat × Nat) × (List Byte × Nat)) :=
  let k := s.layerK b.slot
  let key := s.dripKey (s.rdLE (b.slot + 0x18) 2 % 4096) b.step
  adm.map fun (n, w, ex) => ((n, ex), gradRow b.t k (b.da.size 1) key n w (dys.getD (n / k) []))

/-- Write dP: the dot products, and 0 where a token has no admitted selection of an expert (R376). -/
def State.putGrads (s : State) (b : XBlock) (dots : List (Nat × Nat × F32)) (x : VaRes) : VaRes :=
  x.puts (b.dc.writes ((List.range b.t).flatMap fun t => (List.range (s.layerE b.slot)).map fun j =>
    ([t, j], ((dots.find? fun d => d.1 == t && d.2.1 == j).map fun d => d.2.2.toNat).getD 0)))

/-- COMBINE_B: the gradient rows on their way, and dP from the forward answers (R376). -/
def execCombineB (r : Fin 4) (idx : BitVec 32) (s : State) : Out :=
  match s.xOf r.val idx 3 with
  | none => .next s
  | some b =>
    let (x, adm, dys, dots) := s.backRun b
    if x.fault.isSome then .next (x.s.failBatch b x.code) else
    let rows := s.gradRows b adm dys
    let x := s.putGrads b dots x
    let s1 := (x.s.wrLE (b.addr + 0x24) 2 b.tag).sendBatch b true (b.da.size 1) (rows.map fun y => (y.1.1, y.1.2, y.2.1))
    .next (s1.endX b ((x.code.max (s1.sentCode b.tag)).max (if (rows.map fun y => y.2.2).sum = 0 then .ok else .counts)))

/-- GATHER_B: the sum of the returned gradient rows, with SR from DB's drip slot (R376). -/
def execGatherB (r : Fin 4) (idx : BitVec 32) (s : State) : Out :=
  match s.xOf r.val idx 4 with
  | none => .next s
  | some b =>
    match s.linkBatch b.link with
    | none => .next (s.endX b .desc)
    | some bt =>
      if bt.pending then .next s
      else .next (s.combine b bt false (some (s.dripKey b.db.drip b.step)))

/-- The gradients of one row of logits from its probabilities and their gradients (R376). -/
def routeBack (pd : List (F32 × F32)) : List F32 :=
  let sum := pd.foldl (fun a (p, d) => F32.add a (F32.mul p d)) (0 : F32)
  pd.map fun (p, d) => F32.mul p (F32.sub d sum)

/-- The accesses of a ROUTE_B. -/
def State.routeBackRun (s : State) (b : XBlock) : VaRes :=
  let js := List.range (s.layerE b.slot)
  (List.range b.t).foldl (fun x t =>
    let (x, ps) := x.each (fun x j => x.raw b.da [t, j]) js
    let (x, ds) := x.each (fun x j => x.raw b.db [t, j]) js
    let g := routeBack ((ps.zip ds).map fun (p, d) => (BitVec.ofNat 32 p, BitVec.ofNat 32 d))
    x.puts (b.dc.writes ((g.zipIdx).map fun (v, j) => ([t, j], v.toNat)))) (chain s)

/-- ROUTE_B (R376). -/
def execRouteB (r : Fin 4) (idx : BitVec 32) (s : State) : Out :=
  match s.xOf r.val idx 5 with
  | none => .next s
  | some b => .next ((s.routeBackRun b).s.endX b (s.routeBackRun b).code)

/-! ### At a destination (R373, R374) -/

/-- Whether a cairn's pause holds exchange rows that arrive (R446). -/
def State.holdsRows (s : State) : Bool := s.paused && s.epFld 1066 Reg.rslCairnCfg 0 0 == 1

/-- Take the exchange packets of a device and tag that make up a message: `n` of them in order, whose payloads satisfy a
test (R412, R425). -/
def State.takeXch (s : State) (l src tag n : Nat) (ok : List (List Byte) → Bool) : Option State :=
  let q := (s.link l).inbox
  let ps := (q.filter fun p => p.kind == 5 && p.src == src && p.tag == tag).take n
  if ps.length = n ∧ ok (ps.map (·.body)) then some (s.onLink l fun k => { k with inbox := ps.foldl List.erase q }) else none

/-- The payloads of the packets of some messages as they arrive. -/
def arrived (msgs : List (List Byte)) : List (List Byte) := (msgs.flatMap allPayloads).map pad4

/-- Refuse a peer's batch or contribution (R426, R435). -/
def State.refusePeer (s : State) (src : Nat) (kind : String) (body : List Nat) : State :=
  (s.notify src kind body).reportLost src

/-- XCH_HEADER_RECEIVE: a header and its rows from another device, whose packets have arrived; one of a wrong step is
refused (R373, R426). -/
def execXchHeaderReceive (l : Fin 12) (hd : XHead) (s : State) : Out :=
  if s.linkState l.val != 3 || s.holdsRows || hd.src.toNat == s.devId then .next s else
  let ms := arrived (XHead.msgs hd (s.expertsOf (s.layerAt hd.layer.val) s.devId).length)
  match s.takeXch l.val hd.src.toNat hd.tag.toNat ms.length (· == ms) with
  | none => .next s
  | some s =>
    let (s, ok) := s.takeHead hd
    .next (if ok then s else s.refusePeer hd.src.toNat "refuse" [hd.tag.toNat])

def insRow (r : XRow) : List XRow → List XRow
  | [] => [r]
  | x :: l => if r.slot ≤ x.slot then r :: x :: l else x :: insRow r l

/-- The rows of a batch in the order of RX: local expert, source, place (R373). -/
def Inbound.order (g : Inbound) : List (InHead × XRow) :=
  let n := (g.heads.flatMap (·.rows)).foldl (fun m r => max m (r.expert + 1)) 0
  (List.range n).flatMap fun e => g.heads.flatMap fun h =>
    ((h.rows.filter fun r => r.expert == e).foldl (fun l r => insRow r l) []).map fun r => (h, r)

/-- Whether every live member's header has arrived. -/
def State.headsIn (s : State) (g : Inbound) : Bool :=
  s.live.all fun d => g.heads.any fun h => h.src == d

/-- The pool entries of a batch (R373): the tag is the sources' tag, a free one where theirs differ (log entry 54). -/
def State.entriesOf (s : State) (g : Inbound) : List (List Byte) :=
  let a := g.place
  let chunk := s.rdLE (a + 6) 2
  let tag := match g.heads with
    | [] => 0
    | h :: t => if t.all fun x => x.tag == h.tag then h.tag else s.free.toNat % 65536
  let rows := g.order
  let mine := s.expertsOf g.place s.devId
  (List.range mine.length).flatMap fun l =>
    let n := (rows.filter fun x => x.2.expert == l).length
    let first := (rows.filter fun x => decide (x.2.expert < l)).length
    (List.range ((n + chunk - 1) / chunk)).map fun c =>
      natLE 8 (s.rdLE (a + 0x15) 1 <<< 60 + s.rdLE (a + 0x16) 2 <<< 51 + tag <<< 16 + mine.getD l 0) ++
      natLE 4 (first + c * chunk) ++ natLE 4 (min chunk (n - c * chunk)) ++
      natLE 1 l ++ natLE 1 g.layer ++ natLE 1 g.dir ++ natLE 1 g.half ++ natLE 4 0 ++
      s.rdBytes (a + 0x20 + 8 * g.half) 8 ++ s.rdBytes (a + 0x30 + 8 * g.half) 8 ++ s.rdBytes (a + 0x40 + 8 * g.half) 8 ++
      List.replicate 80 0

/-- The value of a counter at a job virtual address, free where it cannot be read here. -/
def State.ctrValue (s : State) (va : Nat) : BitVec 32 :=
  match s.counterHome s.xchRoot (va % 2 ^ 48) 3 false with
  | .local_ h => s.counterAt h
  | _ => s.free.setWidth 32

/-- The oldest batch of a layer's half, where it is not yet placed (`false`) or placed (`true`). -/
def State.oldest (s : State) (layer half : Nat) (placed : Bool) : Option Inbound :=
  match s.xch.inbound.find? fun g => g.layer == layer && g.half == half with
  | some g => if g.placed = placed then some g else none
  | none => none

/-- Change the oldest batch of a layer's half. -/
def onOldest (layer half : Nat) (f : Inbound → Option Inbound) : List Inbound → List Inbound
  | [] => []
  | g :: l => if g.layer = layer ∧ g.half = half then (match f g with | some x => x :: l | none => l)
              else g :: onOldest layer half f l

/-- Put pool entries while the pool is open and has room (log entry 55). -/
def State.putEntries (s : State) (layer half p : Nat) : List (List Byte) → State
  | [] => s
  | e :: es =>
    if (s.pool p).isOpen && decide ((s.pool p).entries.length < ringSize (s.reg (Reg.ctlPoolCfg p))) then
      let s := s.setPool p { s.pool p with entries := (s.pool p).entries ++ [e] }
      let s := { s with xch := { s.xch with inbound := onOldest layer half (fun g => some { g with left := es }) s.xch.inbound } }
      (s.poolService p).putEntries layer half p es
    else s

/-- XCH_EXPERT_POST: once every live member's header has arrived the rows go to RX in their fixed order and the entries
into the pool, as far as it has room (R373). -/
def execXchExpertPost (layer : Fin 64) (half : Bool) (s : State) : Out :=
  let l := layer.val
  let hf := half.toNat
  match s.oldest l hf false with
  | some g =>
    let p := s.rdLE (g.place + 3) 1 % 16
    if !s.headsIn g || s.paused || !s.layerOk g.place then .next s else
    let rx := s.rdLE (g.place + 0x20 + 8 * hf) 8
    let rows := g.order
    let pitch := ((rows.head?).map fun x => x.2.data.length).getD 0
    let es := s.entriesOf g
    let target := s.ctrValue (s.rdLE (g.place + 0x40 + 8 * hf) 8) + BitVec.ofNat 32 es.length
    let x := (rows.zipIdx).foldl (fun x (r, i) => x.put (rx % 2 ^ 48 + i * pitch) r.2.data) (chain s.drawn)
    let gs := onOldest l hf (fun g => some { g with placed := true, left := es, target := target }) x.s.xch.inbound
    let s := { x.s with xch := { x.s.xch with inbound := gs } }
    .next (s.putEntries l hf p es)
  | none =>
    match s.oldest l hf true with
    | some g => .next (s.putEntries l hf (s.rdLE (g.place + 3) 1 % 16) g.left)
    | none => .next s

/-- Process an answer row at its source: a retired tag's row is discarded and counted, any other lands (R374, R381). -/
def State.answerRow (s : State) (tag slot : Nat) (bs : List Byte) : State :=
  match s.batch tag with
  | none => s
  | some b =>
    if !b.live then s.bump Reg.xchStaleReturnCnt 1
    else if b.assigns.any fun a => a.slot == slot && a.st == .pending then
      let x := (chain s).put (blockField b.bytes 0x30 8 % 2 ^ 48 + slot * b.rowLen) bs
      x.s.onBatch tag fun b => { b with
        code := b.code.max x.code
        assigns := b.assigns.map fun a => if a.slot = slot ∧ a.st = .pending then { a with st := .landed } else a }
    else s

/-- XCH_ANSWERS_SEND: the counter has reached its value, so every answer row goes to its source, and the batch's regions
are free (R374, R378, R380). -/
def execXchAnswersSend (layer : Fin 64) (half : Bool) (s : State) : Out :=
  let l := layer.val
  let hf := half.toNat
  match s.oldest l hf true with
  | none => .next s
  | some g =>
    let ctr := s.rdLE (g.place + 0x40 + 8 * hf) 8
    if !g.left.isEmpty || !ahead (s.ctrValue ctr) g.target then .next s else
    let tx := s.rdLE (g.place + 0x30 + 8 * hf) 8 % 2 ^ 48
    let s := { s.drawn with xch := { s.xch with inbound := onOldest l hf (fun _ => none) s.xch.inbound } }
    .next ((g.order.zipIdx).foldl (fun s ((h, r), i) =>
      let n := (answerFmt (s.layerRfmt g.place) h.h).len
      if h.mute then s else
      let (x, bs) := (chain s).get (tx + i * n) n
      -- bytes that cannot be read are free (log entry 53)
      let bs := bs ++ (List.range (n - bs.length)).map fun j => Config.undefByte s.freeCtr (2 ^ 51 + i * n + j)
      if h.src = s.devId then x.s.answerRow h.tag r.slot bs
      else (x.s.sendXch h.tag h.src [routeRecord r.slot r.expert g.step ++ bs]).1) s)

/-- Take the packets of an answer row: of the 16 bytes of its route record the place of the row bears on the answer. -/
def State.takeAnswer (s : State) (l tag slot : Nat) (bs : List Byte) : Option State :=
  let plain (ps : List (List Byte)) : List (List Byte) := match ps with
    | p :: ps => (p.take 4 ++ p.drop 16) :: ps
    | [] => []
  let ms := arrived [routeRecord slot 0 0 ++ bs]
  let first := (s.link l).inbox.find? fun p => p.kind == 5 && p.tag == tag
  first.bind fun p => s.takeXch l p.src tag ms.length (fun ps => plain ps == plain ms)

/-- XCH_ANSWER_RECEIVE: an answer row from another device, whose packets have arrived under the tag, or a device's refusal
of the batch (R374, R381, R382). -/
def execXchAnswerReceive (l : Fin 12) (tag : BitVec 16) (a : XAns) (s : State) : Out :=
  if s.linkState l.val != 3 || s.holdsRows then .next s else
  match a with
  | .row slot bs =>
    (match s.takeAnswer l.val tag.toNat slot bs with
     | some s => .next (s.answerRow tag.toNat slot bs)
     | none => .next s)
  | .refused d =>
    match s.takeNote d.toNat "refuse" [tag.toNat] with
    | none => .next s
    | some s =>
      match s.batch tag.toNat with
      | some b =>
        if b.live then
          .next ((s.onBatch tag.toNat fun b => { b with refused := d.toNat :: b.refused }).loseBatchTo tag.toNat d.toNat)
        else .next s
      | none => .next s

/-! ### The bias loop (R377) -/

/-- The new bias of an expert from its load over the group. -/
def biasStep (bias gamma bmax target : F32) (load : Nat) : F32 :=
  let d := F32.sub target (F32.ofNat load)
  let sg : F32 := if (FVal.zero).lt (F32.val d) then F32.one else if (F32.val d).lt .zero then 0xBF80_0000 else 0
  F32.minOf (F32.maxOf (F32.add bias (F32.mul gamma sg)) (bmax ^^^ 0x8000_0000)) bmax

/-- Update the biases of one slot and clear its loads; `others` gives the other members' loads. -/
def State.biasSlot (s : State) (l : Nat) (others : Nat → Nat) : State :=
  let a := s.layerAt l
  let n (o : Nat) : F32 := BitVec.ofNat 32 (s.rdLE (a + o) 4)
  if (s.accessFail a).isSome then s else
  (List.range (min 256 (s.layerE a))).foldl (fun s e =>
    let v := biasStep (BitVec.ofNat 32 (s.rdLE (a + 0x280 + 4 * e) 4)) (n 8) (n 0xC) (n 0x10)
      (s.rdLE (a + 0x680 + 4 * e) 4 + others e)
    (s.wrLE (a + 0x280 + 4 * e) 4 v.toNat).wrLE (a + 0x680 + 4 * e) 4 0) s

/-- The loads of this device that are not 0, as slot, expert and load. -/
def State.loads (s : State) : List Nat :=
  (List.range 64).flatMap fun l => (List.range (min 256 (s.layerE (s.layerAt l)))).flatMap fun e =>
    let v := s.rdLE (s.layerAt l + 0x680 + 4 * e) 4
    if v = 0 then [] else [l, e, v]

/-- XCH_BIAS_UPDATE: every block of the step has ended, none of it waits at the head of a ring to be taken (log entry
54), and a block of a later step waits to be taken, so the loads are summed over the live members and the biases move.
`others` holds the other members' loads, by slot and expert. -/
def execXchBiasUpdate (others : List (Fin 64 × Fin 256 × BitVec 32)) (s : State) : Out :=
  match s.xch.step with
  | none => .next s
  | some n =>
    let heads := (List.range 4).filterMap fun r => (s.ringNext r).map fun x => blockField (s.rdBytes x.2 256) 8 8
    match heads.find? fun st => decide (n < st) with
    | none => .next s
    | some st =>
      if s.xch.blocks.any (fun b => decide (b.ring < 4)) || heads.any (fun st => decide (st ≤ n)) then .next s else
      let alone := (s.live.filter fun d => d != s.devId).isEmpty
      let get (l e : Nat) : Nat := if alone then 0 else
        (others.filterMap fun (i, j, v) => if i.val = l ∧ j.val = e then some v.toNat else none).sum
      let s := s.notifyAll "loads" (n :: s.loads)
      let s := (List.range 64).foldl (fun s l => s.biasSlot l (get l)) s
      .next { s with xch := { s.xch with step := some st } }

/-! ### Retirement (R380) -/

/-- The undefined output rows of a cancelled block. -/
def State.spoilX (s : State) (b : XBlock) : State :=
  match b.op with
  | 2 => s.scramble b.db
  | 3 => s.scramble b.dc
  | 4 => s.scramble b.db
  | _ => s

/-- A destination sends no answer for a tag any more; a batch not yet placed loses its rows (R380). -/
def State.retireIn (s : State) (src tag : Nat) : State :=
  let mute (g : Inbound) : Inbound := { g with heads := g.heads.map fun h =>
    if h.src = src ∧ h.tag = tag then { h with mute := true, rows := if g.placed then h.rows else [] } else h }
  { s with xch := { s.xch with inbound := (s.xch.inbound.map mute).filter fun g => g.placed || g.heads.any (!·.mute) } }

/-- TAG_RETIRE: a tag that a cancellation retires is no longer live; its blocks end with 0x11, and every destination is
told (R380). -/
def execTagRetire (tag : BitVec 16) (s : State) : Out :=
  match s.batch tag.toNat with
  | none => .next s
  | some b =>
    if !b.live || !b.due then .next s else
    let peers := b.dests.filter fun d => d != s.devId && !s.dropped d
    let mine := s.xch.blocks.filter fun x => decide (x.ring < 4) &&
      ((x.addr == b.addr && x.ring == b.ring) ||
       (decide (2 ≤ x.op) && decide (x.op ≤ 4) && (s.linkBatch x.link).any fun y => y.tag == b.tag))
    let s := s.onBatch b.tag fun b => { b with live := false, due := false, acks := peers }
    let s := mine.foldl (fun s x => (s.spoilX x).endX x .cancelled) s
    let s := s.retireIn s.devId b.tag
    .next (peers.foldl (fun s d => s.notify d "retire" [b.tag]) s)

/-- RETIRE_NOTICE: a destination receives the notice, and acknowledges it (R380). -/
def execRetireNotice (src : BitVec 12) (tag : BitVec 16) (s : State) : Out :=
  if !s.domUp 4 then .next s else
  match s.takeNote src.toNat "retire" [tag.toNat] with
  | some s => .next ((s.retireIn src.toNat tag.toNat).notify src.toNat "retired" [tag.toNat])
  | none => .next s

/-- RETIRE_ACK: a destination has acknowledged; once all have, the tag may be assigned again (R379, R380). -/
def execRetireAck (dev : BitVec 12) (tag : BitVec 16) (s : State) : Out :=
  match s.takeNote dev.toNat "retired" [tag.toNat] with
  | some s => .next (s.onBatch tag.toNat fun b => { b with acks := b.acks.filter (· != dev.toNat) })
  | none => .next s

/-! ### Ring registers (R384, R427) -/

/-- A write of a ring's configuration; writing EN as 1 sets NEXT to 0. -/
def State.ringCfg (s : State) (r : Nat) (v : Word) : Out :=
  if !s.domUp 4 then .next s else
  writeReg (ringRegs r).1 v s fun v s =>
  let s := s.storeReg (ringRegs r).1 v allOnes
  .next (if bits 63 63 v = 1 then s.setFld (ringRegs r).2 63 32 0 else s)

/-- WRING_CFG_WRITE. -/
def execWringCfgWrite (r : Fin 4) (v : Word) (s : State) : Out := s.ringCfg r.val v

/-- CRING_CFG_WRITE. -/
def execCringCfgWrite (r : Fin 4) (v : Word) (s : State) : Out := s.ringCfg (4 + r.val) v

end Sys2Proof.Machine
end

