-- ==== Sys2Proof/Machine/Collectives.lean ====
section
/-! DEFINITION. Collectives (R427 to R432, R437): their blocks, the contributions each member sends and stages, the
reduction in ascending rank, the shards that move unchanged, touched lists and cancellation. -/

namespace Sys2Proof.Machine
open Sys2Proof

/-! ### Blocks (R427, R428) -/

namespace XBlock

def nmem (b : XBlock) : Nat := b.fld 4 2
def coll (b : XBlock) : Nat := b.fld 0x24 4
def memb (b : XBlock) : Nat := b.fld 0x28 8 % 2 ^ 48
def tlist (b : XBlock) : Nat := b.fld 0x30 8 % 2 ^ 48
def avg (b : XBlock) : Bool := b.fld 1 1 % 2 == 1
def touchOn (b : XBlock) : Bool := b.fld 1 1 / 2 % 2 == 1

end XBlock

/-- The member ids of a block, in the order of MEMB: position is the rank. -/
def VaRes.members (x : VaRes) (b : XBlock) : VaRes × List Nat :=
  x.each (fun x i => x.getLE (b.memb + 2 * i) 2) (List.range b.nmem)

def ascending : List Nat → Bool
  | [] => true
  | [_] => true
  | x :: y :: l => decide (x < y) && ascending (y :: l)

/-- A collective's operand: layout RM, blocks along dimension 1 or none. -/
def collTensor (t : TD) : Bool := t.ok && t.lay == .rm && (t.bdim == 1 || t.bdim == 7)

/-- Whether the sizes and formats of a block match its operation. -/
def collShapes (op n : Nat) (a d : TD) : Bool :=
  a.ndims == d.ndims && a.sizes.drop 1 == d.sizes.drop 1 &&
  (match op with
   | 0 => a.size 0 == d.size 0 && a.size 0 % n == 0
   | 1 => a.size 0 == n * d.size 0
   | 2 => d.size 0 == n * a.size 0 && a.fm == d.fm && a.bdim == d.bdim
   | 3 => a.size 0 == d.size 0 && a.size 0 % n == 0 && a.fm == d.fm && a.bdim == d.bdim
   | _ => false)

/-- The checks of R428. -/
def State.checkColl (s : State) (b : XBlock) (ms : List Nat) : Bool :=
  b.fld 1 1 / 4 == 0 && b.fld 3 1 == 0 && b.fld 0x38 8 == 0 && decide (2 ≤ b.nmem) && decide (b.nmem ≤ 4096) &&
  ms.contains s.devId && ascending ms && collTensor b.da && collTensor b.db && collShapes b.op b.nmem b.da b.db

/-- Take a block of a collective ring: its collective has not ended. -/
def State.takeColl (s : State) (r i a : Nat) : State × XBlock :=
  let (s, b) := s.takeX r i a
  ({ s with xch := { s.xch with ended := s.xch.ended.filter fun e => e != (b.coll, b.step) } }, b)

/-- COLL_BLOCK_TAKE (R427); a block that a member has cancelled or refused before ends at once (R426, R432). -/
def execCollBlockTake (r : Fin 4) (s : State) : Out :=
  match s.ringNext (4 + r.val) with
  | none => .next s
  | some (i, a) =>
    let bad := s.rdBad a 256
    let (s, b) := s.takeColl (4 + r.val) i a
    if bad then .next (s.endX b .ecc) else
    match s.xch.doomed.find? fun d => d.1 == b.coll && d.2.1 == b.step with
    | some d => .next ({ s with xch := { s.xch with doomed := s.xch.doomed.erase d } }.endX b d.2.2)
    | none =>
      let (x, ms) := (chain s).members b
      if x.fault.isSome then .next (x.s.endX b x.code)
      else if x.s.checkColl b ms then .next x.s else .next (x.s.endX b .desc)

/-! ### Rows of shards -/

/-- The coordinates above dimension 1, in ascending order. -/
def TD.upper (t : TD) : List (List Nat) :=
  let sh := t.shape.drop 2
  (List.range (sh.foldl (· * ·) 1)).map (TD.coordsOf sh)

/-- The rows of dimension 0 from `lo` on, `n` of them, as the coordinates above and below dimension 1. -/
def TD.shardRows (t : TD) (lo n : Nat) : List (Nat × List Nat) :=
  t.upper.flatMap fun o => (List.range n).map fun i => (lo + i, o)

/-- Read the rows of a shard as they travel. -/
def VaRes.shard (x : VaRes) (t : TD) (lo n : Nat) : VaRes × List (List Byte) :=
  x.each (fun x (m, o) => x.row t (t.size 1) fun j => m :: j :: o) (t.shardRows lo n)

/-- Write travelled rows into a shard, unchanged: those whose index `keep` names. -/
def VaRes.putShard (x : VaRes) (t : TD) (lo n : Nat) (keep : Nat → Bool) (rows : List (List Byte)) : VaRes :=
  x.puts (((t.shardRows lo n).zip rows).flatMap fun ((m, o), bs) =>
    if keep m then t.rowWrites (t.size 1) (fun j => m :: j :: o) bs else [])

/-! ### Touched lists (R431) -/

/-- The units that a touched list has set. -/
def VaRes.touchedUnits (x : VaRes) (va : Nat) : VaRes × List Nat :=
  let (x, n) := x.getLE va 4
  let (x, ws) := x.each (fun x i => x.getLE (va + 0x40 + 8 * i) 8) (List.range ((n + 63) / 64))
  (x, (List.range n).filter fun i => (ws.getD (i / 64) 0).testBit (i % 64))

/-- The rows that one unit of a touched list covers (R355). -/
def VaRes.gran (x : VaRes) (va : Nat) : VaRes × Nat :=
  let (x, v) := x.getLE (va + 7) 1
  (x, if v.testBit 7 then 128 else 1)

/-- Set units in a touched list. -/
def VaRes.touchUnits (x : VaRes) (va : Nat) (us : List Nat) : VaRes :=
  let (x, n) := x.getLE va 4
  us.foldl (fun x i =>
    if n ≤ i then x else
    let a := va + 0x40 + 8 * (i / 64)
    let (x, w) := x.getLE a 8
    x.put a (natLE 8 (Nat.lor w (2 ^ (i % 64))))) x

/-! ### Contributions (R426, R428, R429) -/

/-- A contribution as packet bytes: identifier, step, phase, tensor scale, units touched, rows (log entry 53). -/
def partWire (p : CollPart) : List Byte :=
  natLE 4 p.coll.toNat ++ natLE 8 p.step.toNat ++ natLE 4 p.second.toNat ++ natLE 4 p.tscale.toNat ++
  natLE 4 p.touch.length ++ p.touch.flatMap (natLE 4) ++ p.rows.flatten

/-- Stage a contribution, once per source and phase. -/
def State.stagePart (s : State) (p : CollPart) : State :=
  if s.xch.parts.any fun x => x.src == p.src && x.coll == p.coll && x.step == p.step && x.second == p.second then s
  else { s with xch := { s.xch with parts := s.xch.parts ++ [p] } }

/-- The staged contribution of a member. -/
def State.partOf (s : State) (b : XBlock) (second : Bool) (d : Nat) : Option CollPart :=
  s.xch.parts.find? fun p => p.src.toNat == d && p.coll.toNat == b.coll && p.step.toNat == b.step && p.second == second

/-- A contribution of this device. -/
def State.myPart (s : State) (b : XBlock) (second : Bool) (rows : List (List Byte)) (tscale : F32) (touch : List Nat) :
    CollPart where
  src := BitVec.ofNat 12 s.devId
  coll := BitVec.ofNat 32 b.coll
  step := BitVec.ofNat 64 b.step
  second := second
  rows := rows
  tscale := tscale
  touch := touch

/-- Send a contribution to a member, or stage this device's own, which it refuses itself where the step does not agree
(R426); a member that cannot be reached gives the block 0x40, unless it is dropped. -/
def State.giveTo (s : State) (b : XBlock) (d : Nat) (p : CollPart) : State :=
  if d = s.devId then
    if s.stepAgrees b.step then s.stagePart p
    else (s.bump Reg.cslStepRefuseCnt 1).onX b fun b => { b with code := b.code.max .peer }
  else if s.dropped d then s
  else
    let (s, ok) := s.sendXch (b.coll % 65536) d [partWire p]
    if ok then s else s.onX b fun b => { b with code := b.code.max .link }

/-- The rows of DA that a member takes: its shard, or the whole of DA in ALL_GATHER. -/
def sharePart (b : XBlock) (j : Nat) : Nat × Nat :=
  let z := b.da.size 0
  if b.op = 2 then (0, z) else (j * (z / b.nmem), z / b.nmem)

/-- The first phase: every member is sent its rows. -/
def State.sendShares (s : State) (b : XBlock) (ms : List Nat) : State :=
  let (x, ts) := if b.da.tsc then (chain s).getLE b.da.sptr 4 else (chain s, F32.one.toNat)
  let (x, us) := if b.touchOn then x.touchedUnits b.tlist else (x, [])
  let x := (ms.zipIdx).foldl (fun x (d, j) =>
    let (lo, n) := sharePart b j
    let (x, rows) := x.shard b.da lo n
    if x.fault.isSome then x else { x with s := x.s.giveTo b d (x.s.myPart b false rows (BitVec.ofNat 32 ts) us) }) x
  x.s.onX b fun b => { b with sent := 1, code := b.code.max x.code }

/-- Whether no contribution of a phase is awaited: a dropped member's is not (R437). -/
def State.allIn (s : State) (b : XBlock) (second : Bool) (ms : List Nat) : Bool :=
  ms.all fun d => s.dropped d || (s.partOf b second d).isSome

/-! ### Results -/

/-- One element of a reduced shard: the contributions that count in ascending rank (R429). -/
def reduceElem (b : XBlock) (ps : List CollPart) (row j : Nat) : F32 :=
  let y := ps.foldl (fun y p =>
    let v := ((b.da.rowFmt (b.da.size 1)).val (p.rows.getD row []) j).mul (F32.val p.tscale)
    ((F32.val y).add v).f32) (0 : F32)
  if b.avg then F32.div y (F32.ofNat ps.length) else y

/-- The units that some contribution's touched list sets. -/
def touchedBy (ps : List CollPart) : List Nat := (ps.flatMap (·.touch)).eraseDups

/-- Reduce the shard of this device, row `first` of the tensor and the next ones, into the rows of DB from `lo` on: the
chain, and whether an element saturated. With TOUCH a row that no counting member has touched is a masked row: it is not
reduced, and its row of DB stays (R123, R431; log entry 115). -/
def VaRes.reduce (x : VaRes) (b : XBlock) (ps : List CollPart) (first lo : Nat) : VaRes × Bool :=
  let n := b.da.size 0 / b.nmem
  let (x, g) := if b.touchOn then x.gran b.tlist else (x, 1)
  let us := touchedBy ps
  let ys := ((b.db.shardRows lo n).zipIdx).flatMap fun ((m, o), i) =>
    if b.touchOn && !us.contains ((first + (m - lo)) / g) then []
    else (List.range (b.db.size 1)).map fun j => (m :: j :: o, reduceElem b ps i j)
  let key := if b.db.fm = .fp32 then none else some (x.s.dripKey b.db.drip b.step)
  let (x, clips) := x.convert ⟨b.db, key, x.s.dstT b.db⟩ ys
  (x, clips != 0)

/-- The result of a collective that ends: its chain, the members that counted, and whether an element saturated or a member
is missing. -/
structure CollEnd where
  x : VaRes
  live : Nat
  noted : Bool

/-- The touched units of the counting members go to the list with TOUCH (R431). -/
def CollEnd.touch (e : CollEnd) (b : XBlock) (ps : List CollPart) : CollEnd :=
  if b.touchOn then { e with x := e.x.touchUnits b.tlist (ps.flatMap (·.touch)) } else e

/-- The code of a collective: 0x01 where an element saturated or a member is missing. -/
def CollEnd.code (e : CollEnd) (b : XBlock) : Code :=
  (b.code.max e.x.code).max (if e.noted || decide (e.live < b.nmem) then .counts else .ok)

/-- End a collective. -/
def State.endColl (e : CollEnd) (b : XBlock) (ps : List CollPart) : State :=
  let e := e.touch b ps
  e.x.s.endX { b with live := e.live } (e.code b)

/-- Run a collective: its contributions leave once, and `finish` follows when every one that counts has arrived. -/
def onColl (r : Fin 4) (idx : BitVec 32) (op : Nat) (s : State)
    (finish : XBlock → List Nat → List CollPart → State → State) : Out :=
  match s.xOf (4 + r.val) idx op with
  | none => .next s
  | some b =>
    let (x, ms) := (chain s).members b
    if x.fault.isSome then .next (x.s.endX b x.code) else
    let s := if b.sent = 0 then x.s.sendShares b ms else x.s
    match s.xOf (4 + r.val) idx op with
    | none => .next s
    | some b =>
      if b.code = .peer then .next (s.endX b .peer)
      else if s.allIn b false ms then .next (finish b ms (ms.filterMap (s.partOf b false)) s) else .next s

/-- Place the travelled shards of the members into DB, of a reduced one the rows that were reduced: the chain, and how many
there were. -/
def VaRes.gather (x : VaRes) (b : XBlock) (second : Bool) (ms : List Nat) : VaRes × Nat :=
  let n := b.db.size 0 / b.nmem
  let (x, g) := if b.touchOn && second then x.gran b.tlist else (x, 1)
  (ms.zipIdx).foldl (fun (xn : VaRes × Nat) (d, j) =>
    match xn.1.s.partOf b second d with
    | some p =>
      let keep (m : Nat) : Bool := !(b.touchOn && second) || p.touch.contains (m / g)
      (xn.1.putShard b.db (j * n) n keep p.rows, xn.2 + 1)
    | none => xn) (x, 0)

/-- The last phase of a collective: REDUCE_SCATTER reduces the shard of the own rank; ALL_GATHER places shard j of rank j's
DA, ALL_TO_ALL what rank j sent; ALL_REDUCE places the shards that its members have reduced (R428). -/
def State.collRun (s : State) (b : XBlock) (ms : List Nat) (ps : List CollPart) : CollEnd :=
  if b.op = 0 then
    let x := (chain s).gather b true ms
    ⟨x.1, b.live, decide (x.2 < b.nmem)⟩
  else if b.op = 1 then
    let x := (chain s).reduce b ps (ms.idxOf s.devId * (b.da.size 0 / b.nmem)) 0
    ⟨x.1, ps.length, x.2⟩
  else
    let x := (chain s).gather b false ms
    ⟨x.1, x.2, false⟩

/-- REDUCE_SCATTER (R428, R429). -/
def execReduceScatter (r : Fin 4) (idx : BitVec 32) (s : State) : Out :=
  onColl r idx 1 s fun b ms ps s => State.endColl (s.collRun b ms ps) b ps

/-- ALL_GATHER (R428). -/
def execAllGather (r : Fin 4) (idx : BitVec 32) (s : State) : Out :=
  onColl r idx 2 s fun b ms ps s => State.endColl (s.collRun b ms ps) b ps

/-- ALL_TO_ALL (R428). -/
def execAllToAll (r : Fin 4) (idx : BitVec 32) (s : State) : Out :=
  onColl r idx 3 s fun b ms ps s => State.endColl (s.collRun b ms ps) b ps

/-- The first phase of an ALL_REDUCE: a REDUCE_SCATTER into the own shard of DB, which then goes to every member (R428). -/
def State.reduceOwn (s : State) (b : XBlock) (ms : List Nat) (ps : List CollPart) : State :=
  let n := b.db.size 0 / b.nmem
  let me := ms.idxOf s.devId
  let (x, c) := (chain s).reduce b ps (me * n) (me * n)
  let (x, rows) := x.shard b.db (me * n) n
  let s := x.s.onX b fun b =>
    { b with sent := 2, code := (b.code.max x.code).max (if c then .counts else .ok), live := ps.length }
  let p := s.myPart b true rows F32.one (touchedBy ps)
  ms.foldl (fun s d => s.giveTo b d p) s

/-- ALL_REDUCE: a REDUCE_SCATTER into the own shard of DB, then an ALL_GATHER of the reduced shards (R428). -/
def execAllReduce (r : Fin 4) (idx : BitVec 32) (s : State) : Out :=
  onColl r idx 0 s fun b ms ps s =>
    let s := if b.sent = 1 then s.reduceOwn b ms ps else s
    match s.xOf (4 + r.val) idx 0 with
    | none => s
    | some b => if s.allIn b true ms then State.endColl (s.collRun b ms ps) b ps else s

/-- Whether a notice about a collective comes too late: its block here has ended, or its step lies before those that a
device takes up (R426, R432). -/
def State.collPast (s : State) (coll step : Nat) : Bool :=
  s.xch.ended.contains (coll, step) || decide (step + 2 ≤ (s.reg Reg.cslGstep).toNat)

/-- End the block of a collective with a code, now or when it is taken. -/
def State.doom (s : State) (coll step : Nat) (c : Code) (fin : XBlock → State) : State :=
  match s.xch.blocks.find? fun b => decide (4 ≤ b.ring) && b.coll == coll && b.step == step with
  | some b => fin b
  | none => if s.collPast coll step then s
    else { s with xch := { s.xch with doomed := s.xch.doomed ++ [(coll, step, c)] } }

/-- COLL_CONTRIBUTION: a member's contribution whose packets have arrived. One of a wrong step is refused, one of a dropped
member is discarded; a refusal of this device's own ends its block with 0x41 (R426, R429, R435, R437). -/
def execCollContribution (l : Fin 12) (m : CollMsg) (s : State) : Out :=
  if s.linkState l.val != 3 || s.holdsRows then .next s else
  match m with
  | .part p =>
    let ms := arrived [partWire p]
    (match s.takeXch l.val p.src.toNat (p.coll.toNat % 65536) ms.length (· == ms) with
     | none => .next s
     | some s =>
       if p.src.toNat = s.devId ∨ s.dropped p.src.toNat then .next s
       else if !s.stepAgrees p.step.toNat then
         .next ((s.bump Reg.cslStepRefuseCnt 1).refusePeer p.src.toNat "collRefuse" [p.coll.toNat, p.step.toNat])
       else .next (s.stagePart p))
  | .refused coll step =>
    match s.takeAny fun p => p.kind == 6 && p.body == pad4 (noteBytes "collRefuse" [coll.toNat, step.toNat]) with
    | none => .next s
    | some s => .next (s.doom coll.toNat step.toNat .peer fun b => s.endX b .peer)

/-! ### Cancellation (R432) -/

/-- End a collective block with 0x11: its destination is undefined. -/
def State.cancelColl (s : State) (b : XBlock) : State := (s.scramble b.db).endX b .cancelled

/-- The other members of a block's collective. -/
def State.otherMembers (s : State) (b : XBlock) : List Nat :=
  ((chain s).members b).2.filter fun d => d != s.devId

/-- Cancel every block of a collective ring, those that its counter has passed among them, and tell the other members. -/
def State.cancelRing (s : State) (r : Nat) : State :=
  let s := forUpto 4096 (fun _ s => match s.ringNext (4 + r) with
    | some (i, a) => (s.takeX (4 + r) i a).1
    | none => s) s
  (s.xch.blocks.filter fun b => b.ring == 4 + r).foldl (fun s b =>
    (s.otherMembers b).foldl (fun s d => s.notify d "collCancel" [b.coll, b.step]) (s.cancelColl b)) s

/-- COLL_CANCEL_NOTICE: the block for that collective ends with 0x11, now or when it is taken (R432). -/
def execCollCancelNotice (coll : BitVec 32) (step : BitVec 64) (s : State) : Out :=
  if !s.domUp 4 then .next s else
  match s.takeAny fun p => p.kind == 6 && p.body == pad4 (noteBytes "collCancel" [coll.toNat, step.toNat]) with
  | none => .next s
  | some s => .next (s.doom coll.toNat step.toNat .cancelled s.cancelColl)

end Sys2Proof.Machine
end

