-- ==== Sys2Proof/Machine/Memory.lean ====
section
/-! DEFINITION. The GDDR7 controllers and the CXL ports (spec/16_memory_tiers.md): codeword accesses with their decoding,
burst retries, retraining, scrub, clears and die marks; HDM decoders, configuration requests, CXL accesses and links. -/

namespace Sys2Proof.Machine
open Sys2Proof

/-! ### Codewords (R390 to R395) -/

/-- What decoding a codeword gives (R391). -/
inductive Decoded where
  | clean
  | symbols
  | marked
  | die (d : Nat)
  | bad
  deriving DecidableEq, Repr

/-- Symbol errors outside a die. -/
def CodeErr.outside (e : CodeErr) (d : Nat) : Nat := ((e.dies.filter fun x => x.1.val != d).map fun x => x.2.val).sum

/-- All symbol errors. -/
def CodeErr.total (e : CodeErr) : Nat := (e.dies.map fun x => x.2.val).sum

/-- decode of R391, under the mark of the stack. -/
def decodeWord (mark : Option Nat) (e : CodeErr) : Decoded :=
  match mark with
  | some d => if CodeErr.outside e d ≤ 3 then .marked else .bad
  | none =>
    if CodeErr.total e = 0 then .clean
    else if CodeErr.total e ≤ 8 then .symbols
    else match e.consistent with
      | [d] => .die d.val
      | _ => .bad

/-- The marked die of a controller's stack. -/
def State.mark (s : State) (m : Nat) : Option Nat :=
  let o := Reg.memDieMark (m / 2)
  if s.bit o 63 then some (s.fld o 51 48) else none

/-- Count a die correction; a count that reaches THRESH marks the die (R392). -/
def State.countDie (s : State) (m d : Nat) : State :=
  let k := m / 2
  let o := Reg.memDieMark k
  let n := SMap.get 0 s.dieCnt (16 * k + d) + 1
  let s := { s with dieCnt := SMap.put 0 s.dieCnt (16 * k + d) n }
  let s := s.setFld o 15 0 (max (s.fld o 15 0) (min n 0xFFFF))
  if s.fld o 31 16 ≠ 0 ∧ s.fld o 31 16 ≤ n then (s.setFld o 63 63 1).setFld o 51 48 d else s

/-- Make a codeword uncorrectable. -/
def State.spoil (s : State) (u : Nat) : State :=
  if s.poison.contains u then s else { s with poison := insertKey s.poison u }

/-- A read and decode of the codeword at `u` by controller `m`: corrections are counted, and an uncorrectable
codeword is counted and recorded, by scrub with SCRUB set (R391 to R393, R397). -/
def State.decodeAt (s : State) (m u : Nat) (e : CodeErr) (scrub : Bool) : State :=
  let bad (s : State) : State :=
    let s := s.spoil u
    if scrub then
      ((s.bump (Reg.memEccUncorrCnt m) 1).recordFirst (Reg.memEccAddr m) (BitVec.ofNat 64 (2 ^ 61 + u % 2 ^ 40))).event 4
    else (s.noteUncorr u).drawn
  if s.poison.contains u then bad s else
  match decodeWord (s.mark m) e with
  | .clean => s
  | .symbols => s.bump (Reg.memEccCorrCnt m) 1
  | .marked => s.bump (Reg.memEccDieCnt m) 1
  | .die d => (s.bump (Reg.memEccDieCnt m) 1).countDie m d
  | .bad => bad s

/-- Contents of some channel pairs become undefined: fresh free bytes. -/
def State.loseMem (s : State) (which : Nat → Bool) : State :=
  let lost (a : Nat) : Bool := decide (a < 0x100_0000_0000) && which (8 * gddrCtl a + gddrPair a)
  { s.drawn with
    mem := s.mem.keep fun a => !lost a
    poison := s.poison.filter fun a => !lost a
    memGen := forUpto 128 (fun i g => if which i then SMap.put 0 g i (s.freeCtr + 1) else g) s.memGen }

/-- Disable a channel pair (R395, R402): its contents are lost, and management holds the disabled state (R516). -/
def State.dropPair (s : State) (m k : Nat) : State :=
  let s := { s with offline := insertKey s.offline (1024 * 6 + 8 * m + k) }
  (s.setFld (Reg.memStat m) (40 + k) (40 + k) 1).loseMem fun i => i == 8 * m + k

/-- GDDR7_ACCESS: one access to the codeword that holds local address `a`, a read or a write of a piece of it, with
what its check lanes show and `crc` bursts failing their CRC (R391 to R395). Up to 4 repeats are counted; the fifth
failure retrains the pair and repeats once more, and a further one disables the pair. -/
def execGddr7Access (a : BitVec 40) (wr : Option Piece) (e : CodeErr) (crc : Fin 7) (s : State) : Out :=
  let u := a.toNat / 128 * 128
  match s.target u with
  | .gddr m _ =>
    let k := gddrPair u
    let st := Reg.memStat m
    if !s.domUp 3 || !s.bit st 0 || s.bit st (40 + k) || s.bit st (32 + k) then .next s else
    let s := s.bump (Reg.memCrcRetryCnt m) (min crc.val 5)
    let s := if 5 ≤ crc.val then s.bump (Reg.memRetrainCnt m) 1 else s
    if crc.val = 6 then .next (s.dropPair m k) else
    (match wr with
     | none => .next (s.decodeAt m u e false)
     | some p =>
       if 128 < p.off + p.bytes.length ∨ p.bytes = [] then .next s
       else if p.bytes.length = 128 then .next (s.wr u p.bytes)
       else if s.poison.contains u then .next (s.wr (u + p.off) p.bytes)
       else
         let s := s.decodeAt m u e false
         if s.poison.contains u then .next (s.putBytes (u + p.off) p.bytes)
         else .next (s.wr (u + p.off) p.bytes))
  | _ => .next s

/-! ### Retraining, scrub, clears and marks (R392, R396, R397, R401) -/

/-- RETRAIN_SLICE: the next pair of a controller starts its slice (R396). -/
def execRetrainSlice (m : Fin 16) (s : State) : Out :=
  let st := Reg.memStat m.val
  if s.epFld (1016 + m.val) (Reg.memRetrainCfg m.val) 16 16 = 0 || !s.domUp 3 || !s.bit st 0 || s.fld st 39 32 != 0
  then .next s
  else
    let k := SMap.get 0 s.sliceAt m.val
    let s := { s with sliceAt := SMap.put 0 s.sliceAt m.val ((k + 1) % 8) }
    if s.bit st (40 + k) then .next s
    else .next ((s.setFld st (32 + k) (32 + k) 1).bump (Reg.memRetrainCnt m.val) 1)

/-- Start a slice of a pair outside its turn (R395, R396). -/
def State.slice (s : State) (m k : Nat) : State :=
  (s.setFld (Reg.memStat m) (32 + k) (32 + k) 1).bump (Reg.memRetrainCnt m) 1

/-- RETRAIN_SLICE_END: the slice of a controller ends, and its pair serves accesses again; a retrain that management has
requested ends with its slice, or begins one behind another pair's (R396, R512). -/
def execRetrainSliceEnd (m : Fin 16) (s : State) : Out :=
  let st := Reg.memStat m.val
  if s.fld st 39 32 = 0 then .next s else
  let s := s.setFld st 39 32 0
  match s.mgt.func with
  | some f =>
    if f.action = 4 ∧ f.kind = 6 ∧ f.index / 8 = m.val then
      (if f.going then .next (s.endFunc 0 0)
       else .next ((s.slice m.val (f.index % 8)).onMgt fun g => { g with func := some { f with going := true } }))
    else .next s
  | none => .next s

/-- The local address of the `i`-th codeword of controller `m` in ascending controller address (R388). -/
def scrubAddr (m i : Nat) : Nat :=
  let c := 128 * i
  let hi := c / 4096
  let n (j : Nat) := hi >>> (4 * j) % 16
  let lo := Nat.xor m (Nat.xor (n 0) (Nat.xor (n 1) (Nat.xor (n 2) (Nat.xor (n 3) (Nat.xor (n 4) (n 5))))))
  hi * 65536 + lo * 4096 + c % 4096

/-- SCRUB_READ: patrol scrub reads and decodes the controller's next codeword; a completed pass is counted (R397). -/
def execScrubRead (m : Fin 16) (e : CodeErr) (s : State) : Out :=
  let st := Reg.memStat m.val
  let i := SMap.get 0 s.scrubAt m.val
  let u := scrubAddr m.val i
  let k := gddrPair u
  if s.epFld (1016 + m.val) (Reg.memScrubCfg m.val) 16 16 = 0 || !s.domUp 3 || !s.bit st 0 || s.bit st (32 + k) then .next s
  else
    let last := (if s.fuses.h5 then 2 ^ 28 else 2 ^ 29) ≤ i + 1
    let s := { s with scrubAt := SMap.put 0 s.scrubAt m.val (if last then 0 else i + 1) }
    let s := if s.bit st (40 + k) then s else s.decodeAt m.val u e true
    .next (if last then s.bump (Reg.memScrubPassCnt m.val) 1 else s)

/-- MEM_CLEAR: a write of GO starts a clear; during one it is ignored (R401). -/
def execMemClear (m : Fin 16) (v : Word) (s : State) : Out :=
  if !s.domUp 3 then .next s else
  writeReg (Reg.memClear m.val) v s fun v s =>
  if bits 0 0 v = 0 || s.bit (Reg.memStat m.val) 2 then .next s
  else .next (s.setFld (Reg.memStat m.val) 2 2 1)

/-- MEM_CLEAR_DONE: every codeword of the controller is zero and correctable (R401). -/
def execMemClearDone (m : Fin 16) (s : State) : Out :=
  if !s.bit (Reg.memStat m.val) 2 then .next s
  else
    let mine (a : Nat) : Bool := decide (a < 0x100_0000_0000) && gddrCtl a == m.val
    .next ({ s with
      mem := s.mem.keep fun a => !mine a
      poison := s.poison.filter fun a => !mine a
      memGen := s.memGen.keep fun i => i / 8 != m.val }.setFld (Reg.memStat m.val) 2 2 0)

/-- DIE_MARK_WRITE: a change of mark holds for later decodes; clearing MARKED restarts the counts (R392). -/
def execDieMarkWrite (k : Fin 8) (v : Word) (s : State) : Out :=
  if !s.domUp 3 then .next s else
  let o := Reg.memDieMark k.val
  writeReg o v s fun v s =>
  let was := s.bit o 63
  let s := s.storeReg o v allOnes
  if was && !s.bit o 63 then
    .next ({ s with dieCnt := s.dieCnt.keep fun i => i / 16 != k.val }.setFld o 15 0 0)
  else .next s

/-! ### The CXL tier (R403 to R409) -/

/-- Whether a decoder may be committed (R405). -/
def State.hdmOk (s : State) (p n : Nat) : Bool :=
  let ctl := Reg.cxmHdmCtl p n
  let b (i : Nat) := s.fld (Reg.cxmHdmBase p i) 41 28
  let z (i : Nat) := s.fld (Reg.cxmHdmSize p i) 42 28
  let up (l : Nat) := s.bit (Reg.cxmPortStat p) (1 + l)
  let overlap := (List.range 8).any fun i =>
    i != n && s.bit (Reg.cxmHdmCtl p i) 63 && decide (b i < b n + z n) && decide (b n < b i + z i)
  !overlap && decide (b n + z n ≤ 2 ^ 14) && decide (s.fld ctl 5 4 ≤ 1) && decide (s.fld ctl 3 1 ≤ 6) &&
  up (s.fld ctl 6 6) && (s.fld ctl 5 4 == 0 || up (s.fld ctl 7 7)) && s.bit (Reg.cxmPortStat p) 0

/-- HDM_COMMIT: a write of HDM_CTL; COMMIT 1 commits the decoder or is refused with ERR, COMMIT 0 uncommits it while
the port is idle (R405). -/
def execHdmCommit (p : Fin 4) (n : Fin 8) (v : Word) (s : State) : Out :=
  if !s.domUp 4 then .next s else
  let o := Reg.cxmHdmCtl p.val n.val
  writeReg o v s fun v s =>
  let s := s.storeReg o v allOnes
  if s.bit o 0 then
    let s := s.setFld o 63 63 0
    if s.hdmOk p.val n.val then .next ((s.setFld o 63 63 1).setFld o 62 62 0) else .next (s.setFld o 62 62 1)
  else if s.bit (Reg.cxmPortStat p.val) 0 then .next (s.setFld o 63 63 0)
  else .next s

/-- CXL_CFG_REQUEST: a write of CFG_ADDR starts one configuration request; while one is in progress it is ignored
(R406). -/
def execCxlCfgRequest (p : Fin 4) (v : Word) (s : State) : Out :=
  let o := Reg.cxmCfgAddr p.val
  if !s.domUp 4 || s.bit o 63 then .next s
  else writeReg o v s fun v s =>
    let s := (s.storeReg o v allOnes).setFld o 63 63 1
    .next (s.send (.cxlCfg p.val (s.fld o 61 0) (if s.bit o 61 then s.fld (Reg.cxmCfgData p.val) 31 0 else 0)))

/-- CXL_CFG_COMPLETE: the request ends, with the data of a read, or none where it failed or timed out (R406). -/
def execCxlCfgComplete (p : Fin 4) (r : Option (BitVec 32)) (s : State) : Out :=
  let o := Reg.cxmCfgAddr p.val
  if !s.bit o 63 then .next s
  else
    let s := s.setFld o 63 63 0
    match r with
    | none => .next (s.setFld o 62 62 1)
    | some d =>
      let s := s.setFld o 62 62 0
      .next (if s.bit o 61 then s else s.setFld (Reg.cxmCfgData p.val) 31 0 d.toNat)

/-- CXL_ACCESS: one access inside one aligned 64-byte line of the CXL window, a read or the write of a piece; `bad`
says that the device returns the line as poisoned (R404, R405, R408). -/
def execCxlAccess (a : BitVec 48) (wr : Option Piece) (bad : Bool) (s : State) : Out :=
  let u := a.toNat / 64 * 64
  match s.target u with
  | .cxl _ _ =>
    if !s.domUp 4 then .next s
    else if (s.accessFail u).isSome then .next (s.noteAccessFail u)
    else match wr with
      | some p => if 64 < p.off + p.bytes.length ∨ p.bytes = [] then .next s else .next (s.wr (u + p.off) p.bytes)
      | none => .next ((if bad then s.spoil u else s).noteRead u 64)
  | _ => .next s

/-- CXL_LINK_DOWN: link a or b of a port goes down (R408). -/
def execCxlLinkDown (p : Fin 4) (l : Bool) (s : State) : Out :=
  let o := Reg.cxmPortStat p.val
  let i := l.toNat
  if !s.bit o (1 + i) then .next s
  else .next (((s.setFld o (1 + i) (1 + i) 0).setFld o (31 + 8 * i) (24 + 8 * i) 0).bump (Reg.cxmLinkDownCnt p.val) 1)

/-- CXL_LINK_UP: a link of an enabled port finishes its training: one of 16 lanes, or two of 8 where the port is bifurcated,
at MAXRATE or below (R403, R408). -/
def execCxlLinkUp (p : Fin 4) (l : Bool) (width : BitVec 8) (rate : BitVec 4) (s : State) : Out :=
  let o := Reg.cxmPortStat p.val
  let i := l.toNat
  let cfg := Reg.cxmPortCfg p.val
  if !s.domUp 4 || !s.bit cfg 63 || s.isOff 5 p.val || s.bit o (1 + i) || (l && s.fld cfg 3 2 != 1) ||
    width.toNat != (if s.fld cfg 3 2 = 1 then 8 else 16) || decide (rate.toNat < s.fld cfg 1 0) || decide (3 < rate.toNat) then .next s
  else .next (((s.setFld o (1 + i) (1 + i) 1).setFld o (31 + 8 * i) (24 + 8 * i) width.toNat).setFld o
    (19 + 4 * i) (16 + 4 * i) rate.toNat)

/-- CXL_PORT_CFG_WRITE: EN makes the port train; clearing it takes its links down (R403). -/
def execCxlPortCfgWrite (p : Fin 4) (v : Word) (s : State) : Out :=
  if !s.domUp 4 then .next s else
  writeReg (Reg.cxmPortCfg p.val) v s fun v s =>
  let s := s.storeReg (Reg.cxmPortCfg p.val) v allOnes
  if s.bit (Reg.cxmPortCfg p.val) 63 then .next s
  else .next ((s.setFld (Reg.cxmPortStat p.val) 2 1 0).setFld (Reg.cxmPortStat p.val) 39 24 0)

end Sys2Proof.Machine
end

