-- ==== Sys2Proof/Machine/Resilience.lean ====
section
/-! DEFINITION. Surviving failures (spec/18_resilience_cairns.md): holds, restores and rejoins (R441 to R444), cairns, their
images, restores from them and drains (R445 to R449). -/

namespace Sys2Proof.Machine
open Sys2Proof

/-! ### Holds (R441) -/

def State.onRsl (s : State) (f : Rsl → Rsl) : State := { s with rsl := f s.rsl }

/-- The largest step of a command stream that runs and has not left its step loop. -/
def State.loopStep (s : State) : Nat :=
  (List.range 4).foldl (fun m n =>
    let q := SMap.get {} s.seqs (0x3FC + n)
    if q.run != .idle && !q.loopOver then max m q.step.toNat else m) 0

/-- End the hold at the master with a code: every live member is told. -/
def State.endHold (s : State) (c : Code) : State :=
  let s := ((s.setFld Reg.rslHold 62 62 0).setFld Reg.rslHold 55 48 c.toNat).setFld Reg.rslStat 2 2 0
  (s.notifyAll "release" []).onRsl fun r => { r with hold := none, told := false, reports := [] }

/-- HOLD_START: the master's host software writes a step; ACTIVE stands, and every live member is told. A member whose
step already exceeds it refuses. -/
def execHoldStart (v : Word) (s : State) : Out :=
  if !s.domUp 4 || bits 63 63 v = 1 then .next s else
  writeReg Reg.rslHold v s fun v s =>
  let s := s.storeReg Reg.rslHold v allOnes
  if !s.isMaster then .next s else
  let h := s.fld Reg.rslHold 47 0
  let s := ((s.setFld Reg.rslHold 62 62 1).setFld Reg.rslHold 55 48 0).setFld Reg.rslStat 2 2 0
  let s := (s.notifyAll "hold" [h]).onRsl fun r => { r with hold := some h, told := false, reports := [] }
  .next (if h < s.loopStep then s.endHold .peer else s)

/-- HOLD_RELEASE: a write of RELEASE ends the hold. -/
def execHoldRelease (s : State) : Out :=
  if !s.domUp 4 || !s.isMaster then .next s else .next (s.endHold .ok)

/-- HOLD_NOTICE: a member receives HOLD(h), which it refuses where its step exceeds h, or the release (none). -/
def execHoldNotice (h : Option (BitVec 48)) (s : State) : Out :=
  if !s.domUp 4 || s.isMaster then .next s else
  match h with
  | none =>
    match s.takeNote 0 "release" [] with
    | some s => .next (s.onRsl fun r => { r with hold := none, told := false })
    | none => .next s
  | some h =>
    match s.takeNote 0 "hold" [h.toNat] with
    | some s =>
      if h.toNat < s.loopStep then .next (s.notify 0 "holdReport" [0])
      else .next (s.onRsl fun r => { r with hold := some h.toNat, told := false })
    | none => .next s

/-- HOLD_REPORT: the master hears that a member waits, or that it refuses. -/
def execHoldReport (d : BitVec 12) (ok : Bool) (s : State) : Out :=
  if !s.domUp 4 || !s.isMaster || !s.bit Reg.rslHold 62 then .next s else
  match s.takeNote d.toNat "holdReport" [ok.toNat] with
  | none => .next s
  | some s =>
    if !ok then .next (s.endHold .peer)
    else .next (s.onRsl fun r => { r with reports := insertKey r.reports d.toNat }).checkHeld

/-- Whether a hold makes a LOOP.STEP that would raise the step to `n` wait (R441). -/
def State.holdsStep (s : State) (n : Nat) : Bool :=
  match s.rsl.hold with
  | some h => decide (h < n)
  | none => false

/-- A LOOP.STEP that would raise the step to `n` begins its wait at the hold: it reports once. -/
def State.reportWait (s : State) (n : Nat) : State :=
  if !s.holdsStep n || s.rsl.told then s
  else if s.isMaster then
    (s.onRsl fun r => { r with told := true, reports := insertKey r.reports s.devId }).checkHeld
  else (s.onRsl fun r => { r with told := true }).notify 0 "holdReport" [1]

/-! ### Internal faults (R517) -/

/-- Record an internal fault of a unit. -/
def State.internal (s : State) (reason unit : Nat) : State :=
  (s.recordFirst Reg.mgtInternal (BitVec.ofNat 64 (reason <<< 48 + unit <<< 32))).event 3

/-! ### Restores (R442 to R444) -/

namespace Restore

def fld (x : Restore) (o n : Nat) : Nat := blockField x.block o n
def nseg (x : Restore) : Nat := x.fld 0 4
def state (x : Restore) : Bool := x.fld 4 2 % 2 == 1
def step (x : Restore) : Nat := x.fld 8 8
def seg_ (x : Restore) (i o n : Nat) : Nat := blockField x.segs (32 * i + o) n
def dst (x : Restore) (i : Nat) : Nat := x.seg_ i 0 8
def len (x : Restore) (i : Nat) : Nat := x.seg_ i 0x10 8
/-- A and B of the next piece; the state records are verified against the B of segment 0. -/
def devA (x : Restore) : Nat := if x.seg < x.nseg then x.seg_ x.seg 0x18 2 else x.fld 6 2
def devB (x : Restore) : Nat := if x.seg < x.nseg then x.seg_ x.seg 0x1A 2 else x.seg_ 0 0x1A 2
/-- Bytes of the next piece: up to 1 GiB of a segment, or the state records. -/
def pieceLen (x : Restore) : Nat :=
  if x.seg < x.nseg then min (2 ^ 30) (x.len x.seg - x.off) else 0x1_0000 + 0x2_0000 + 0x4_0000 + 512
/-- Whether pieces remain. -/
def more (x : Restore) : Bool := decide (x.seg < x.nseg) || (x.seg == x.nseg && x.state)
/-- The place after a piece, segments without bytes passed over. -/
def advance (x : Restore) : Restore :=
  let skip (i : Nat) : Nat := (List.range (x.nseg - i)).foldl (fun k _ => if k < x.nseg ∧ x.len k = 0 then k + 1 else k) i
  if x.seg < x.nseg ∧ x.off + x.pieceLen < x.len x.seg then { x with off := x.off + x.pieceLen }
  else { x with seg := skip (x.seg + 1), off := 0 }

end Restore

/-- The local places of the four state records: drip table, amax table, layer table, DROPPED of the roster (R443). -/
def State.recordPlaces (s : State) : List (Nat × Nat) :=
  [(dripBase, 0x1_0000), (amaxBase, 0x2_0000), (s.layerAt 0, 0x4_0000), (s.fld Reg.rslRoster 47 0 + 512, 512)]

/-- Write bytes over places in turn. -/
def State.wrPlaces (s : State) : List (Nat × Nat) → List Byte → State
  | [], _ => s
  | (a, n) :: ps, bs => (s.wr a (bs.take n)).wrPlaces ps (bs.drop n)

/-- Where the next piece goes. -/
def State.piecePlaces (s : State) (x : Restore) : List (Nat × Nat) :=
  if x.seg < x.nseg then [(x.dst x.seg + x.off, x.pieceLen)] else s.recordPlaces

/-- End the restore with a code; one without failure is announced to the master (R444). -/
def State.endRestore (s : State) (x : Restore) (c : Code) : State :=
  let s := ((s.setFld Reg.rslRestoreStat 63 63 0).setFld Reg.rslRestoreStat 39 32 c.toNat).setFld Reg.rslStat 3 3 0
  let s := s.onRsl fun r => { r with restore := none }
  if c = .ok ∨ c = .counts then s.notify 0 "rejoin" [x.step] else s

/-- Whether a restore block and its segments are well formed. -/
def Restore.ok (s : State) (x : Restore) : Bool :=
  decide (1 ≤ x.nseg) && decide (x.nseg ≤ 1024) && x.fld 4 2 / 2 == 0 &&
  (List.range x.nseg).all fun i =>
    x.dst i % 4096 == 0 && x.len i % 4096 == 0 && (x.len i == 0 ||
      ((match s.target (x.dst i) with | .gddr .. => true | _ => false) &&
       (match s.target (x.dst i + x.len i - 1) with | .gddr .. => true | _ => false)))

/-- Whether the links to a device are all ACTIVE (R442). -/
def State.linksUp (s : State) (d : Nat) : Bool :=
  !(s.routeLinks d).isEmpty && (s.routeLinks d).all fun l => s.linkState l == 3

/-- The devices that a restore reads from. -/
def Restore.sources (x : Restore) : List Nat :=
  (List.range x.nseg).flatMap (fun i => [x.seg_ i 0x18 2, x.seg_ i 0x1A 2].filter (· != 0xFFFF)) ++
  (if x.state then [x.fld 6 2] else [])

/-- RESTORE_START: a write of the word index of a restore block; `confirmed` says that the master's hold at STEP
stands. While a restore runs the write is ignored; a block that is not well formed ends with 0x22, and one with a source
whose links are not ACTIVE with 0x40 (log entry 56). The begin of a restore ends a wait for isolation (R440). -/
def execRestoreStart (w : BitVec 32) (confirmed : Bool) (s : State) : Out :=
  if !s.domUp 4 || s.bit Reg.rslRestoreStat 63 then .next s else
  let inside (i n : Nat) : Bool := decide (i + n ≤ storeWords (.cp 0))
  let s := s.setReg Reg.rslRestoreStat 0
  let block := s.rdBytes (sramBase + 4 * w.toNat) 64
  let n := blockField block 0 4
  let i := blockField block 0x10 4
  let x : Restore := ⟨block, if inside i (8 * n) ∧ n ≤ 1024 then s.rdBytes (sramBase + 4 * i) (32 * n) else [], 0, 0, false⟩
  let fail (c : Code) : Out := .next (s.setFld Reg.rslRestoreStat 39 32 c.toNat)
  if !inside w.toNat 16 || !inside i (8 * n) || !x.ok s then fail .desc
  else if !confirmed then fail .peer
  else if !x.sources.all s.linksUp then fail .link
  else
    let x := if x.len 0 = 0 then x.advance else x
    let s := (s.setFld Reg.rslRestoreStat 63 63 1).setFld Reg.rslStat 3 3 1
    let s := s.onRsl fun r => { r with restore := some x, cut := false }
    .next (if x.more then s else s.endRestore x .ok)

/-- RESTORE_PIECE: the next piece of the restore. `a` and `b` are its bytes as A and B send them and `dB` the digest that B
computed over its own, each none where its device cannot be reached, as over links that are not ACTIVE: that ends the
restore with 0x40. -/
def execRestorePiece (a dB b : Option (List (BitVec 8))) (s : State) : Out :=
  match s.rsl.restore with
  | none => .next s
  | some x =>
    let a := if s.linksUp x.devA then a else none
    let dB := if s.linksUp x.devB then dB else none
    let b := if s.linksUp x.devB then b else none
    let places := s.piecePlaces x
    let count (s : State) (x : Restore) : State :=
      let s := (s.bump Reg.rslRestorePieceCnt 1).setFld Reg.rslRestoreStat 31 0 (s.fld Reg.rslRestoreStat 31 0 + 1)
      let y := x.advance
      let s := s.onRsl fun r => { r with restore := some y }
      if y.more then s else s.endRestore y (if y.noted then .counts else .ok)
    match a with
    | none => .next (s.endRestore x .link)
    | some bs =>
      if bs.length ≠ x.pieceLen then .next s else
      let s1 := s.wrPlaces places bs
      if x.devB = 0xFFFF then .next (count (s1.bump Reg.rslUnverifiedCnt 1) { x with noted := true }) else
      match dB with
      | none => .next (s1.endRestore x .link)
      | some d =>
        if shake256 bs 64 = d then .next (count s1 x) else
        let s1 := (s1.recordFirst Reg.rslSuspect (BitVec.ofNat 64 (x.devA % 4096))).bump Reg.rslRefetchCnt 1
        match b with
        | none => .next (s1.endRestore x .link)
        | some cs =>
          if cs.length ≠ x.pieceLen then .next s else
          let s2 := s1.wrPlaces places cs
          if shake256 cs 64 = d then .next (count s2 { x with noted := true })
          else .next ((s2.endRestore x .internal).internal 1 1066)

/-- RESTORE_DIGEST_REQUEST: this device, as a verifying B, digests its own bytes: a piece at an address, or the state
records (none). -/
def execRestoreDigestRequest (src : BitVec 12) (a : Option (BitVec 48)) (len : BitVec 31) (s : State) : Out :=
  if !s.domUp 4 then .next s else
  match s.takeNote src.toNat "digestAsk" [(a.map (·.toNat)).getD 0, a.isSome.toNat, len.toNat] with
  | none => .next s
  | some s =>
  let bs := match a with
    | some a => s.rdBytes a.toNat (min len.toNat (2 ^ 30))
    | none => s.recordPlaces.flatMap fun (a, n) => s.rdBytes a n
  .next (s.notify src.toNat "digest" ((shake256 bs 64).map BitVec.toNat))

/-- Clear a device's DROPPED bit, and log the notice (R444). -/
def State.applyRejoin (s : State) (f st : Nat) : State :=
  let s := (s.setDropped f false).recordFirst Reg.rslDropLog (BitVec.ofNat 64 (2 ^ 61 + (f % 4096) <<< 48 + st % 2 ^ 48))
  { s with dropStep := s.dropStep.keep fun d => d != f }

/-- REJOIN: the master takes a device back and tells every live member (R444). -/
def execRejoin (f : BitVec 12) (h : Word) (s : State) : Out :=
  if !s.domUp 4 || !s.isMaster then .next s else
  match s.takeNote f.toNat "rejoin" [h.toNat] with
  | none => .next s
  | some s =>
    let s := s.applyRejoin f.toNat (h.toNat + 1)
    .next (s.notifyAll "rejoin" [f.toNat, h.toNat + 1])

/-- REJOIN_NOTICE: a member clears the DROPPED bit of the device (R444). -/
def execRejoinNotice (f : BitVec 12) (st : Word) (s : State) : Out :=
  if !s.domUp 4 then .next s else
  match s.takeNote 0 "rejoin" [f.toNat, st.toNat] with
  | some s => .next (s.applyRejoin f.toNat st.toNat)
  | none => .next s

/-! ### Cairn blocks (R445) -/

/-- A cairn block with its segment list behind it. -/
structure Cairn where
  b : List Byte

namespace Cairn

def fld (c : Cairn) (o n : Nat) : Nat := blockField c.b o n
def id (c : Cairn) : Nat := c.fld 0 4
def restore (c : Cairn) : Bool := c.fld 4 4 % 2 == 1
def drain (c : Cairn) : Bool := c.fld 4 4 / 2 % 2 == 1
def snap (c : Cairn) : Nat := c.fld 8 8
def snapLen (c : Cairn) : Nat := c.fld 0x10 8
def nseg (c : Cairn) : Nat := c.fld 0x1C 4
/-- Address and length of each segment. -/
def segs (c : Cairn) : List (Nat × Nat) :=
  (List.range c.nseg).map fun i => (c.fld (128 + 16 * i) 8, c.fld (128 + 16 * i + 8) 8)

end Cairn

/-- Whether a range lies in local GDDR7. -/
def State.inGddr (s : State) (a n : Nat) : Bool :=
  let g (x : Nat) : Bool := match s.target x with | .gddr .. => true | _ => false
  g a && g (a + n - 1) && decide (a + n ≤ 0x100_0000_0000)

/-- Bytes of the pool entries, rounded up to 4 KiB. -/
def State.poolBytes (s : State) : Nat :=
  (((List.range 16).map fun p => (s.pool p).entries.length).sum * 128 + 4095) / 4096 * 4096

/-- The image bytes (R447). -/
def State.imageLen (s : State) (c : Cairn) : Nat := 0x7_5000 + s.poolBytes + (c.segs.map (·.2)).sum

/-- The checks of R445: the block, its segments, and the room for the image. A restore needs the image to lie in the
region, so its length is held against the header's by `restoreOk`. -/
def State.cairnOk (s : State) (c : Cairn) : Bool :=
  c.fld 4 4 / 4 == 0 && (c.b.drop 0x30 |>.take 80).all (· == 0) && decide (1 ≤ c.nseg) && decide (c.nseg ≤ 224) &&
  c.snap % 4096 == 0 && s.inGddr c.snap c.snapLen &&
  (c.segs.all fun (a, n) => a % 4096 == 0 && n % 4096 == 0 && (n == 0 || s.inGddr a n) &&
    (decide (a + n ≤ c.snap) || decide (c.snap + c.snapLen ≤ a))) &&
  (c.restore || decide (s.imageLen c ≤ c.snapLen))

/-- Read a cairn block and its segment list at the word index in an a-register; a range past the store refuses it. -/
def withCairn (u : SeqId) (a1 : AReg) (k : Work) (s : State) : Work × State :=
  let (k, s) := withBlock u ((s.seq u).getA a1).toNat 32 32 k s
  if k.status ≠ .queued then (k, s) else
  let n := blockField k.block 0x1C 4
  let i := blockField k.block 0x18 4
  if n < 1 ∨ 224 < n ∨ storeWords u < i + 4 * n then (k.refused, s) else
  let a := sramBase + 4 * i
  if s.rdBad a (16 * n) then ({ k with status := .ended .ecc }, s.noteRead a (16 * n)) else
  let k := { k with block := k.block ++ s.rdBytes a (16 * n) }
  (if s.cairnOk ⟨k.block⟩ then k else k.refused, s)

/-! ### Images (R447) -/

/-- CTL.POOL_STAT of a pool: whether it is open, the takers and putters that wait, its entries (R344). -/
def State.poolStat (s : State) (p : Nat) : Word :=
  BitVec.ofNat 64 ((s.pool p).isOpen.toNat <<< 63 + (s.poolWaits p).length <<< 32 + (s.pool p).entries.length)

/-- The registers a restore compares: XCH.LAYER_BASE, RSL.CUR_BASE, CTL.SCHED_BASE, CTL.SCHED_ROWS. -/
def State.placeRegs (s : State) : List Byte :=
  natLE 8 (s.epReg xchUnit Reg.xchLayerBase).toNat ++ natLE 8 (s.reg Reg.rslCurBase).toNat ++
  natLE 8 (s.epReg 1067 Reg.ctlSchedBase).toNat ++ natLE 8 (s.epReg 1067 Reg.ctlSchedRows).toNat

/-- The 4 KiB image header. -/
def State.imageHeader (s : State) (c : Cairn) (step : Word) : List Byte :=
  let h := natLE 4 0x52594331 ++ natLE 2 1 ++ natLE 2 s.devId ++ natLE 4 c.id ++
    natLE 4 (SMap.get 0 s.unitEpoch 1067).toNat ++ natLE 8 step.toNat ++ natLE 8 (s.imageLen c) ++
    natLE 64 s.digestOf.toNat ++ s.placeRegs ++
    (List.range 16).flatMap (fun p => natLE 8 (s.reg (Reg.ctlPoolCfg p)).toNat ++ natLE 8 (s.poolStat p).toNat) ++
    natLE 8 c.nseg ++ c.segs.flatMap fun (a, n) => natLE 8 a ++ natLE 8 n
  h ++ List.replicate (4096 - h.length) 0

/-- Copy bytes between local addresses, 4 KiB at a time. -/
def State.copyLocal (s : State) (src dst n : Nat) : State :=
  forUpto ((n + 4095) / 4096) (fun i s =>
    let k := min 4096 (n - 4096 * i)
    (s.noteRead (src + 4096 * i) k).wr (dst + 4096 * i) (s.rdBytes (src + 4096 * i) k)) s

/-- The local address and length of the records of an image, in its order: drip, amax, cursor and layer tables. -/
def State.imageRecords (s : State) : List (Nat × Nat) :=
  [(dripBase, 0x1_0000), (amaxBase, 0x2_0000), (s.fld Reg.rslCurBase 47 0, 0x4000), (s.layerAt 0, 0x4_0000)]

/-- Place ranges one after another: each local range with its address in the image. -/
def packAt (a : Nat) : List (Nat × Nat) → List (Nat × Nat × Nat)
  | [] => []
  | (x, n) :: l => (a, x, n) :: packAt (a + n) l

/-- Write the image of a cairn into its region. -/
def State.writeImage (s : State) (c : Cairn) (step : Word) : State :=
  let pools := (List.range 16).flatMap fun p => (s.pool p).entries.flatten
  let pad := s.poolBytes - pools.length
  let s1 := s.wr c.snap (s.imageHeader c step)
  let s1 := (packAt (c.snap + 0x1000) s.imageRecords).foldl (fun t (d, a, n) => t.copyLocal a d n) s1
  let s1 := s1.wr (c.snap + 0x7_5000) (pools ++ List.replicate pad 0)
  (packAt (c.snap + 0x7_5000 + s.poolBytes) c.segs).foldl (fun t (d, a, n) => t.copyLocal a d n) s1

/-! ### Restores from an image (R449) -/

/-- Whether the image at SNAP may be restored. -/
def State.restoreOk (s : State) (c : Cairn) : Bool :=
  let h := s.rdBytes c.snap 0x80
  blockField h 0 4 == 0x52594331 && blockField h 4 2 == 1 && blockField h 6 2 == s.devId &&
  blockField h 0x20 64 == s.digestOf.toNat && (h.drop 0x60).take 32 == s.placeRegs &&
  decide (blockField h 0x18 8 ≤ c.snapLen)

/-- Cut bytes into pool entries. -/
def entriesFrom (s : State) (a n : Nat) : List (List Byte) := (List.range n).map fun i => s.rdBytes (a + 128 * i) 128

/-- Write the image back: tables, pools, segments (by the image's own list), the step of the issuing stream, its cursors
and schedule row. The exchange unit forgets the collectives of the run that it leaves, and gathers the loads of the step
before the image's, whose bias update its next block brings (R377; log entry 57). -/
def State.readImage (s : State) (c : Cairn) (u : SeqId) : State :=
  let step : Word := BitVec.ofNat 64 (s.rdLE (c.snap + 0x10) 8)
  let stat (p : Nat) : Word := BitVec.ofNat 64 (s.rdLE (c.snap + 0x80 + 16 * p + 8) 8)
  let count (p : Nat) : Nat := bits 16 0 (stat p)
  let total := ((List.range 16).map count).sum * 128
  let segs := (List.range (min 224 (s.rdLE (c.snap + 0x180) 4))).map fun i =>
    (s.rdLE (c.snap + 0x188 + 16 * i) 8, s.rdLE (c.snap + 0x190 + 16 * i) 8)
  let s1 := (packAt (c.snap + 0x1000) s.imageRecords).foldl (fun t (d, a, n) => t.copyLocal d a n) s
  let s1 := (packAt (c.snap + 0x7_5000 + (total + 4095) / 4096 * 4096) segs).foldl (fun t (d, a, n) => t.copyLocal d a n) s1
  let s1 := forUpto 16 (fun p t =>
    let first := ((List.range p).map count).sum
    t.setPool p ⟨bits 63 63 (stat p) == 1, entriesFrom s (c.snap + 0x7_5000 + 128 * first) (count p)⟩) s1
  let s1 := { s1 with xch := { s1.xch with
      parts := [], doomed := [], ended := [], step := if step.toNat = 0 then none else some (step.toNat - 1) } }
  ((s1.onSeq u fun q => { q with step := step, loopOver := false }).cursors step.toNat).loadRow step

/-! ### Pauses (R446) -/

/-- Whether a drain still reads a region that overlaps this one. -/
def State.drainHolds (s : State) (c : Cairn) : Bool :=
  s.rsl.drains.any fun d => decide (d.snap < c.snap + c.snapLen) && decide (c.snap < d.snap + d.snapLen)

/-- Change one work of a unit. -/
def State.onWork (s : State) (u : SeqId) (seq : Nat) (f : Work → Work) : State :=
  s.onSeq u fun q => { q with works := q.works.map fun w => if w.seq = seq then f w else w }

/-- Start a cairn: a restore whose image does not fit is refused; otherwise the device pauses. -/
def State.startCairn (s : State) (u : SeqId) (w : Work) : State :=
  let c : Cairn := ⟨w.block⟩
  if c.restore && !s.restoreOk c then s.endWork u w.seq .desc else
  let s := (s.setFld Reg.rslCairnStat 63 62 1).setFld Reg.rslCairnStat 31 0 c.id
  let s := s.onRsl fun r => { r with cairn := some (u.num, w.seq) }
  -- RSL.CAIRN_CFG switches at the start of the next cairn (R341)
  let s := { s with unitEpoch := SMap.put 0 s.unitEpoch 1066 s.epoch }
  s.onWork u w.seq fun w => { w with status := .running }

/-- Start the next cairn that may start, if any. -/
def State.startCairns (s : State) : State :=
  if s.isOff 7 50 then s else
  (List.range 4).foldl (fun s n =>
    let u := SeqId.ofNum (0x3FC + n)
    match (s.seq u).works.find? fun w =>
        w.status == .queued && (match w.instr with | .cairn .. => true | .cairnRestore .. => true | _ => false) with
    | some w => if s.mayStart (s.seq u) w && !s.drainHolds ⟨w.block⟩ then s.startCairn u w else s
    | none => s) s

/-- Issue a cairn instruction in one of its two rows: the row that the block's RESTORE bit does not name does not occur. -/
def cairnIssue (w : Issue) (fd : SReg) (a1 : AReg) (i : Instr) (restore : Bool) (s : State) : Out :=
  let q := s.seq w.u
  let (k, _) := withCairn w.u a1 (newWork q 0 i) s
  let runs := decide (w.fetch ≠ .uncorrectable) && decide (q.pc < pcLimit w.u) && xor (q.getP w.ps) w.neg
  if w.u.isCp && runs && k.status == .queued && (Cairn.restore ⟨k.block⟩ != restore) then .next s
  else onIssue w.u s (issueTensor w fd i (if w.u.isCp then none else some 0x81) s (withCairn w.u a1)) State.startCairns

/-- CAIRN (R315, R445, R446). -/
def execCairn (w : Issue) (fd : SReg) (a1 : AReg) (s : State) : Out := cairnIssue w fd a1 (.cairn w fd a1) false s

/-- CAIRN with RESTORE (R449). -/
def execCairnRestore (w : Issue) (fd : SReg) (a1 : AReg) (s : State) : Out :=
  cairnIssue w fd a1 (.cairnRestore w fd a1) true s

/-- Whether everything started has completed: RUNs wait for programs that the pause itself holds, and are not counted
(log entry 57). -/
def State.quiet (s : State) : Bool :=
  (s.seqs.all fun (_, q) => q.works.all fun w =>
    w.status != .running || (match w.instr with | .run .. => true | .cairn .. => true | .cairnRestore .. => true | _ => false)) &&
  (s.siphons.all fun (_, q) => q.transfers.isEmpty) && (s.passes.all fun p => !p.launched) &&
  (s.xch.blocks.all fun b => !b.started) && s.upds.all fun (_, u) => u.inv.isNone

/-- The phase once no cairn pauses the device. -/
def State.idlePhase (s : State) : State := s.setFld Reg.rslCairnStat 63 62 (if s.rsl.drains.isEmpty then 0 else 2)

/-- What may go on after work has completed or a pause has ended: held RUNs, pools, cairns. -/
def State.goOn (s : State) : State :=
  (((List.range 4).foldl (fun s n => s.startRuns (SeqId.ofNum (0x3FC + n))) s).poolsService).startCairns

/-- What memory lists in a range of GDDR7. -/
def State.within (s : State) (a n : Nat) : List (Nat × Byte) := s.mem.filter fun e => decide (a ≤ e.1) && decide (e.1 < a + n)

/-- CAIRN_RESUME: once everything started has completed, the image is written or restored, and work resumes. -/
def execCairnResume (s : State) : Out :=
  match s.rsl.cairn with
  | none => .next s
  | some (un, seq) =>
    let u := SeqId.ofNum un
    match (s.seq u).works.find? fun w => w.seq == seq with
    | none => .next s
    | some w =>
      if !s.quiet then .next s else
      let c : Cairn := ⟨w.block⟩
      let done (s : State) (code : Code) : State :=
        ((s.onRsl fun r => { r with cairn := none }).idlePhase.endWork u seq code).goOn
      if c.restore then .next (done (s.readImage c u) .ok)
      else if c.snapLen < s.imageLen c then .next (done s .desc)
      else
        let total := s.imageLen c
        let s := (s.writeImage c (s.seq u).step).bump Reg.rslCairnCnt 1
        let s := if c.drain then s.onRsl fun r =>
            { r with drains := r.drains ++ [⟨c.id, c.snap, c.snapLen, total, c.fld 0x20 8 % 2 ^ 48, c.fld 0x28 8 % 2 ^ 48,
              s.within c.snap c.snapLen⟩] }
          else s
        .next (done s .ok)

/-- The copy of a drain: whole, or a free number of leading bytes where a link or port is lost; free bytes where the
region has changed since the drain began (R448, log entry 92). -/
def State.drainRun (s : State) (d : Drain) (lost : Bool) : VaRes :=
  let root := s.epReg 1066 Reg.sipPtRoot
  let n := if lost then s.free.toNat % (d.total + 1) else d.total
  let spoiled := s.within d.snap d.snapLen != d.held
  forUpto ((n + 4095) / 4096) (fun i (x : VaRes) =>
    if x.fault.isSome then x else
    let k := min 4096 (n - 4096 * i)
    let y := (x.s.noteRead (d.snap + 4096 * i) k).vaWrite root 3 .any (d.dst + 4096 * i)
      (if spoiled then s.freeBytes (d.snap + 4096 * i) k else x.s.rdBytes (d.snap + 4096 * i) k)
    { y with bad := x.bad || y.bad || x.s.rdBad (d.snap + 4096 * i) k }) (chain s.drawn)

/-- CAIRN_DRAIN_END: the oldest drain ends; CAIRN_STAT is written and the unit arrives at DONE (R448). The
weights of CXM.ARB_CFG only share time (R409, log entry 121). -/
def execCairnDrainEnd (lost : Bool) (s : State) : Out :=
  match s.rsl.drains with
  | [] => .next s
  | d :: ds =>
    let root := s.epReg 1066 Reg.sipPtRoot
    let x := s.drainRun d lost
    let s := x.s.onRsl fun r => { r with drains := ds }
    let s := s.setFld Reg.rslCairnStat 39 32 (x.code.max (if lost then .link else .ok)).toNat
    let s := if s.paused then s else s.idlePhase
    .next ((s.arriveVa root 3 d.done 1).1.startCairns)

end Sys2Proof.Machine
end

