-- ==== Sys2Proof/Machine/Control.lean ====
section
/-! DEFINITION. Control of the step loop, of handles, of cancellations and of epochs (R276, R318, R328, R341): rows that
meet the work of several units. -/

namespace Sys2Proof.Machine
open Sys2Proof

/-! ### LOOP.STEP (R318) -/

/-- Whether a LOOP.STEP that would raise the step to `n` waits for a hold, or since the member was cut off from the master
and no restore has begun (R440, R441). -/
def State.loopHeld (s : State) (n : Nat) : Bool := s.holdsStep n || (s.rsl.cut && s.bit Reg.rslPolicy 1)

/-- The master's new group step, sent to every member (R426). -/
def State.sendStep (s : State) (n : Word) : State :=
  if s.isMaster then (s.setReg Reg.cslGstep n).notifyAll "gstep" [n.toNat] else s

/-- The number of roster devices that are dropped (R438). -/
def State.droppedMembers (s : State) : Nat :=
  ((List.range 4096).filter fun d => s.rosterBit 0 d && s.dropped d).length

/-- LOOP.STEP: it waits for every handle of its control processor, for a hold and for isolation; then amax slots roll,
cursors and step advance, the control cluster switches its epoch, the next schedule row is loaded, and it branches
while steps remain (R72, R318, R341, R352, R426, R438, R440, R441, R451). -/
def execLoopStep (w : Issue) (rd ra : SReg) (imm : Imm) (s : State) : Out :=
  let q := s.seq w.u
  let n := q.step + 1
  issueWhen w (fun s => !w.u.isCp || (!(s.seq w.u).anyBusy && !s.loopHeld n.toNat))
    (fun s => if (s.seq w.u).anyBusy then s else (s.setFld Reg.rslStat 1 1 1).reportWait n.toNat) s fun s =>
    if !w.u.isCp then s.seqFault w.u .desc 0x81 0 else
    let taken := decide (0 < (q.getS ra - n).toInt)
    let t : Int := (q.pc : Int) + (if taken then imm.toInt else 1)
    if taken && !(decide (0 ≤ t) && decide (t < pcLimit w.u)) then s.seqFault w.u .desc 0x82 0 else
    let s := (s.setFld Reg.rslStat 1 1 0).amaxRollAll q.step.toNat
    let s := s.cursors n.toNat
    let s := { s with unitEpoch := SMap.put 0 s.unitEpoch 1067 s.epoch }
    let s := s.loadRow n
    let s := (s.sendStep n).bump Reg.rslDroppedMbCnt s.droppedMembers
    s.onSeq w.u fun q => { q.setS rd n with step := n, inLoop := taken, loopOver := !taken, pc := t.toNat }

/-! ### HANDLE_DONE (R276) -/

/-- HANDLE_DONE: the work that holds a handle has ended, so the handle is DONE with its code, which enters the program's
result; instructions held behind it may start (R276, R287, R308). -/
def execHandleDone (u : SeqId) (h : BitVec 5) (s : State) : Out :=
  match (s.seq u).works.find? fun w => w.handle == h.toNat with
  | none => .next s
  | some w =>
    match w.status with
    | .ended c =>
      let c := c.max w.acc
      let s := s.onSeq u fun q =>
        { q.setH h.toNat (.done c) with
          works := q.works.filter fun x => x.seq != w.seq, result := q.result.max c
          unseen := (q.unseen.filter fun x => x.handle != h.toNat) ++ [w] }
      .next ((s.checkEnd u).goOn)
    | _ => .next s

/-! ### CANCEL (R328) -/

/-- Whether a command index lies in FIRST to FIRST + COUNT - 1 modulo 2^24. -/
def inCancel (first count idx : Nat) : Bool := decide ((idx + 2 ^ 24 - first % 2 ^ 24) % 2 ^ 24 < count)

/-- Stop a program: it issues nothing more, and ends with 0x11 once its BUSY instructions have drained. -/
def State.cancelSeq (s : State) (u : SeqId) : State :=
  match (s.seq u).run with
  | .idle => s
  | _ => s.beginEnd u (some .cancelled)

/-- Take the waiting launches of a launcher away: their cores count as ended with 0x11. -/
def State.cancelLaunches (s : State) (f : Launcher → Bool) : State :=
  let gone := s.launches.filter fun l => f l.by_
  let s := { s with launches := s.launches.filter fun l => !f l.by_ }
  gone.foldl (fun s l =>
    match l.by_ with
    | .run n seq => s.onWork (.cp n) seq fun w =>
        let w := { w with left := w.left.erase l.core, acc := w.acc.max .cancelled }
        if w.left.isEmpty then { w with status := .ended w.acc } else w
    | .cmd q idx => s.onCmd q idx fun c => { c with left := c.left.erase l.core, code := c.code.max .cancelled }
    | .none => s) s

/-- Cancel one running command; whether its kind retires the queue's tags. -/
def State.cancelRunning (s : State) (c : Cmd) : State :=
  let s := s.onCmd c.q c.idx fun c => { c with cancelled := true }
  match c.fld 0 1 with
  | 1 =>
    if !c.begun then s.finishCmd c.q c.idx id else
    let n : Fin 4 := ⟨c.q / 16 % 4, Nat.mod_lt _ (by decide)⟩
    let mine (l : Launcher) : Bool := match l with | .run k _ => k == n | _ => false
    let s := s.cancelLaunches mine
    let cores := (List.range 800).filter fun k => mine (s.seq (SeqId.ofNum k)).launcher
    (cores.foldl (fun s k => s.cancelSeq (SeqId.ofNum k)) s).cancelSeq (.cp n)
  | 2 =>
    let mine (l : Launcher) : Bool := l == .cmd c.q c.idx
    let s := s.cancelLaunches mine
    let cores := (List.range 800).filter fun k => mine (s.seq (SeqId.ofNum k)).launcher
    let s := cores.foldl (fun s k => s.cancelSeq (SeqId.ofNum k)) s
    if s.cmds.any (fun x => x.q == c.q && x.idx == c.idx && !x.finished && x.left.isEmpty)
    then s.finishCmd c.q c.idx id else s
  | _ => s.finishCmd c.q c.idx id

/-- What a cancellation in a queue brings to the exchange unit: where it cancels a PROG or CORES the tags of the queue are
due for retirement, and its collectives end (R380, R432). -/
def State.cancelXch (s : State) (q : Nat) (tags : Bool) : State :=
  let s := if tags then s.retireDue q else s
  ((List.range 4).filter fun r => s.fld (Reg.xchCringCfg r) 57 52 == q).foldl State.cancelRing s

/-- CANCEL: commands not started end with 0x11, running PROG, CORES and COPY stop; INFO is their number (R328). -/
def execCancel (q : Fin 64) (idx : BitVec 32) (s : State) : Out :=
  match s.cmdOf q idx 5 with
  | none => .next s
  | some c =>
    let tq := c.fld 8 1
    let hit (i : Nat) : Bool := inCancel (c.fld 0xC 4) (c.fld 0x10 4) i
    let mine := s.cmds.filter fun x => x.q == tq && hit x.idx && !x.finished
    let idle := mine.filter fun x => !x.running
    let run := mine.filter fun x => x.running && (x.fld 0 1 == 1 || x.fld 0 1 == 2 || x.fld 0 1 == 3)
    let d := (dist32 (s.sqTail tq) (s.sqHead tq)).toNat
    let ahead := ((List.range (min d 65536)).map fun i => (s.sqHead tq + i) % 2 ^ 32).filter fun i =>
      hit i && !s.cancels.contains (tq, i)
    let s := idle.foldl (fun s x => s.cancelUnstarted x.q x.idx) s
    let s := run.foldl State.cancelRunning s
    let s := { s with cancels := s.cancels ++ ahead.map fun i => (tq, i) }
    let n := idle.length + run.length + ahead.length
    let s := if n = 0 then s else s.cancelXch tq ((idle ++ run).any Cmd.launches)
    .next (s.endCmd c .ok n)

/-! ### EPOCH_SWITCH (R106, R193, R239, R341, R342) -/

/-- Whether the epoch after `e` gives COR.DENSE_CFG of a core another value. -/
def State.cfgChanges (s : State) (c : Nat) (e : BitVec 32) : Bool :=
  let v (e : BitVec 32) : Word := SMap.get (regReset (Reg.corDenseCfg c)) (SMap.get [] s.snaps e.toNat) (Reg.corDenseCfg c)
  v e != v (e + 1)

/-- Whether a unit that runs under epoch `e` stands at its safe boundary. A core has no instruction in flight that it issued
under the epoch, and where COR.DENSE_CFG changes it has started a dense instruction since, or has none in flight (R106,
R193). The exchange unit, the update engines and the resilience unit switch in the step that starts their next batch or
collective, invocation or cairn (R341, R363, R367); while such a unit is idle it may switch before, so that work can
follow a FENCE.CFG (R317, R342; log entry 91). -/
def State.atBoundary (s : State) (u : Nat) (e : BitVec 32) : Bool :=
  if u < 800 then
    let works := (s.seq (SeqId.ofNum u)).works
    (works.all fun w => decide (0 < (w.epoch - e).toInt)) &&
    (!s.cfgChanges u e || works.isEmpty || decide (0 < ((s.core u).cfgEpoch - e).toInt))
  else if u < 1016 then
    (s.siph (u - 800)).transfers.isEmpty && s.passes.all fun p => p.siphon != some (u - 800)
  else if u < 1036 then true
  else if u < 1048 then (s.link (u - 1036)).retry.isEmpty
  else if u < 1050 then (s.xch.blocks.all fun b => !b.started) && s.xch.batches.all fun b => !b.live
  else if u < 1066 then (s.upd (u - 1050)).inv.isNone
  else if u = 1066 then s.rsl.cairn.isNone
  else (List.range 4).all fun n => !(SMap.get {} s.seqs (0x3FC + n)).inLoop

/-- A link that takes up a new epoch: a narrower MAXW retrains it, otherwise it repeats its hello (R417, R433). -/
def State.linkSwitched (s : State) (l : Nat) : State :=
  let st := s.linkState l
  if st ≠ 2 ∧ st ≠ 3 then s
  else if lanes (s.maxw l) < s.fld (Reg.cslLinkStat l) 52 48 then s.beginRetrain l false
  else s.sendHello l

/-- EPOCH_SWITCH: a unit at its safe boundary switches to the next epoch (R341); a disabled one waits for its enable
(R342). -/
def execEpochSwitch (u : Fin 1068) (s : State) : Out :=
  let e := SMap.get 0 s.unitEpoch u.val
  if e = s.epoch || s.unitOff u.val || !s.atBoundary u.val e then .next s else
  let s := { s with unitEpoch := SMap.put 0 s.unitEpoch u.val (e + 1) }
  let s := if 800 ≤ u.val ∧ u.val < 1016 then s.onSiph (u.val - 800) fun q => { q with tlb := [] } else s
  .next (if 1036 ≤ u.val ∧ u.val < 1048 then s.linkSwitched (u.val - 1036) else s)

end Sys2Proof.Machine
end

