-- ==== Sys2Proof/Machine/Engines.lean ====
section
/-! DEFINITION. The start of dense and sparse work and the events of a running dense instruction (R78, R79, R85, R98,
R100, R120, R129, R178). An event whose condition does not hold changes nothing (log entry 1). -/

namespace Sys2Proof.Machine
open Sys2Proof

/-- Whether an instruction takes its place in the dense order (R79, R299, R300, R178). -/
def isDense (i : Instr) : Bool :=
  match i with
  | .lds .. | .mma .. | .mmat .. | .wgr .. | .cvt .. | .sclRead .. | .sclWrite .. | .bat .. => true
  | _ => false

/-- Whether an instruction takes its place in the sparse order (R129). -/
def isSparse (i : Instr) : Bool :=
  match i with
  | .gth .. | .sct .. | .sca .. | .mrgMerge .. | .mrgBitmap .. | .topk .. | .seg .. | .cmp .. | .prn .. | .bat .. => true
  | _ => false

def Work.isQueued (w : Work) : Bool := w.status == .queued

/-- The sub-array of a G11 instruction, none for an instruction that uses the whole engine. -/
def g11Of (w : Work) : Option Nat :=
  match planOf w with
  | some p => if p.mode = 3 then some p.sa else none
  | none => none

/-- The next instruction of the dense order for sub-array `sa`: the first queued one; where that is a G11 instruction of
another sub-array, the first one of `sa` among the G11 instructions that lead the queue (R79). -/
def nextDense (ws : List Work) (sa : Nat) : Option Work :=
  let q := ws.filter fun w => isDense w.instr && w.isQueued
  let first : Option Work := match q.head? with
    | none => none
    | some w => if (g11Of w).isNone then some w
        else (q.takeWhile fun x => (g11Of x).isSome).find? fun x => g11Of x == some sa
  match first with
  | none => none
  | some w => if isSparse w.instr && (ws.find? fun x => isSparse x.instr && x.isQueued).map (·.seq) != some w.seq
      then none else some w

/-- The started dense instructions of a core with their plans. -/
def State.startedRuns (s : State) (c : Nat) : List (Plan × Dense) :=
  (s.core c).runs.flatMap fun x => x.2.filterMap fun r =>
    (((s.seq (coreSeq c)).works.find? fun w => w.seq == r.work).bind planOf).map fun p => (p, r)

/-- Whether a started instruction has rows that have not yet entered the array. -/
def Plan.streaming (p : Plan) (r : Dense) : Bool := !r.load && decide (r.computed < p.accTiles)

/-- Whether a gathered feed holds the move unit: from its instruction's start until its last row has entered (R127). -/
def State.moveHeld (s : State) (c : Nat) : Bool :=
  (s.startedRuns c).any fun x => x.1.gather && (x.2.load || x.1.streaming x.2)

/-- Whether a destination of a plan is compressed. -/
def Plan.compressed (p : Plan) : Bool := p.outp == 0 && !p.lds && (p.dst.isStream || p.secondary.any TD.isStream)

/-- Whether an instruction with a compressed destination holds the output compressor: the oldest started one, until its
end (R127). -/
def State.compressorOf (s : State) (c : Nat) : Option Nat :=
  (((s.startedRuns c).filter fun x => x.1.compressed).map (·.2.work)).min?

/-- Start an LDS, MMA, MMAT or WGR: a wholly masked WGR is skipped; any other waits until the instruction before it on
its array has streamed its last row, for every array where it changes the mode, and for the move unit (R78, R85, R87,
R120, R127). `waited` counts the beats that its feed waits for rows (R137). -/
def startDense (s : State) (c waited : Nat) (w : Work) (p : Plan) : State :=
  let k := s.core c
  let nc := p.dst.size 1
  let masked := if p.wgr && p.maskOk c then p.maskedCols (s.viewOf c w).2 nc else []
  let skip := p.wgr && masked.length == nc && nc != 0
  let loaded := if p.mode = k.mode then k.tile p.array else none
  if skip then
    -- the operands of a skipped WGR are checked, but for the loaded tile that it does not use (log entry 45)
    if (if p.hs then p.ok s c none else p.useOk s c nc)
    then ((if p.mode = k.mode then p.chain s c nc masked else s).bump (Reg.corWgrSkipCnt c) 1).endCoreWork c w.seq .ok
    else s.endCoreWork c w.seq .desc
  else if (if p.mode = k.mode then (s.startedRuns c).any fun x => x.1.array == p.array && (x.2.load || x.1.streaming x.2)
      else !k.idle) then s
  else if !p.ok s c loaded then s.endCoreWork c w.seq .desc
  else if p.gather && s.moveHeld c then s
  else
    let (a, n) := p.maskRange nc
    let ecc := p.maskAt.isSome && s.rdBad a n
    let s := if ecc then s.noteRead a n else s
    let s := s.onSeq (coreSeq c) fun q => { q with works := q.works.map fun x =>
      if x.seq = w.seq then { x with status := .running } else x }
    let s := if p.mode = k.mode then s else s.onCore c fun k => { k with mode := p.mode, tiles := [], cells := [], chains := [] }
    let run : Dense :=
      { work := w.seq, load := p.hs, stat := none, tile := 0, computed := 0, tiles := [], tries := 0, recs := 0,
        redo := false, masked := masked, maxRetry := min 2 (s.denseCfg c 1 0), recomp := s.denseCfg c 2 2 == 1,
        held := [], how := [], code := if ecc then .ecc else .ok }
    let s := s.onRuns c p.array (· ++ [run])
    match p.hs, loaded with
    | false, some t => p.stream s c waited w t run
    | _, _ => s

/-- DENSE_START: the next instruction of the dense order starts where its mode and sub-arrays allow. CVT, SCL and BAT do
their work at their start; BAT waits for every sub-array and for the units it uses (R127, R178). What starts takes up
COR.DENSE_CFG of the last COMMIT (R106). -/
def execDenseStart (c : Fin 800) (sa : Fin 4) (feedWait : BitVec 32) (s : State) : Out :=
  let q := s.seq (coreSeq c.val)
  match nextDense q.works sa.val with
  | none => .next s
  | some w =>
    if !s.mayStart q w then .next s else
    let fin (f : State → State → State × Code) : Out :=
      let (s, v) := s.viewOf c.val w
      let r := f s v
      .next ((r.1.endCoreWork c.val w.seq r.2).onCore c.val fun k => { k with cfgEpoch := s.epoch })
    match w.instr with
    | .cvt _ _ _ _ opt => fin fun s v => s.doCvt v c.val (w.td 0) (w.td 1) (obit opt 7) (obit opt 6)
    | .sclRead _ _ _ _ f => fin fun s _ => s.doSclRead c.val (w.td 0) f (w.vals.getD 0 0).toNat
    | .sclWrite _ _ _ _ f => fin fun s _ => s.doSclWrite (w.td 0) f (w.vals.getD 0 0)
    | .bat _ _ _ _ _ _ opt => if (s.core c.val).idle then fin fun s v => s.doBat v c.val opt w.descs else .next s
    | _ => match planOf w with
      | some p =>
        let s' := startDense s c.val feedWait.toNat w p
        .next (if nextDense (s'.seq (coreSeq c.val)).works sa.val = some w then s'
          else s'.onCore c.val fun k => { k with cfgEpoch := s.epoch })
      | none => .next s

/-- Run `f` on the first instruction of an array that `pick` names, with its work and plan. -/
def onRun (s : State) (c sa : Nat) (pick : Dense → Bool) (f : Work → Plan → Dense → State) : Out :=
  let k := s.core c
  let a := if k.mode = 3 then sa else 0
  match (k.runsOf a).find? pick with
  | none => .next s
  | some r =>
    match (s.seq (coreSeq c)).works.find? fun w => w.seq == r.work with
    | some w => .next (match planOf w with | some p => f w p r | none => s)
    | none => .next s

/-- STATIONARY_LOAD (R84 to R87); `feedWait` counts the beats that the stream behind it waits for rows (R137). -/
def execStationaryLoad (c : Fin 800) (sa : Fin 4) (feedWait : BitVec 32) (s : State) : Out :=
  onRun s c.val sa.val (·.load) fun w p r => p.load s c.val feedWait.toNat w r

/-- TILE_CONVERT: the converter takes the oldest tile that the array holds, unless its recompute is due, or another
instruction holds the output compressor that its destination needs (R98, R127). `convWait` counts the beats that the
array waited for a free entry, or the converter for the sparse port (R91, R164): it counts where a feed row stood
waiting or the destination is compressed. -/
def execTileConvert (c : Fin 800) (sa : Fin 4) (convWait : BitVec 32) (s : State) : Out :=
  onRun s c.val sa.val (fun r => !r.tiles.isEmpty) fun _ p r =>
    match r.stat with
    | some t =>
      if r.redo || (p.compressed && s.compressorOf c.val != some r.work) then s else
      let waits := p.compressed || (s.startedRuns c.val).any fun x => x.1.array == p.array && x.1.streaming x.2
      p.convert (if waits then s.bump (Reg.corConvWaitCnt c.val) convWait.toNat else s) c.val t r
    | none => s

/-- TILE_RECOMPUTE (R66, R100). -/
def execTileRecompute (c : Fin 800) (sa : Fin 4) (s : State) : Out :=
  onRun s c.val sa.val (·.redo) fun w p r =>
    match r.stat with
    | some t => p.recompute s c.val w t r
    | none => s

/-- Whether the unit that a sparse instruction needs is busy with a dense instruction (R127, R129). -/
def State.unitHeld (s : State) (c : Nat) (i : Instr) : Bool :=
  match i with
  | .gth .. | .sct .. => s.moveHeld c
  | .cmp .. | .prn .. => (s.compressorOf c).isSome
  | _ => false

/-- SPARSE_START: the first instruction of the sparse order starts and does its work; it waits for its unit, and later
ones behind it (R129). A BAT at its front waits for DENSE_START. -/
def execSparseStart (c : Fin 800) (s : State) : Out :=
  let q := s.seq (coreSeq c.val)
  match q.works.find? fun w => isSparse w.instr && w.isQueued with
  | none => .next s
  | some w =>
    if !s.mayStart q w || s.unitHeld c.val w.instr then .next s else
    let d := w.td
    let x := w.vals.getD 0 0
    let fin (f : State → State → State × Code) : Out :=
      let (s, v) := s.viewOf c.val w
      let r := f s v
      .next (r.1.endCoreWork c.val w.seq r.2)
    match w.instr with
    | .gth .. => fin (fun s v => s.doGth v c.val (d 0) (d 1) (d 2))
    | .sct .. => fin (fun s v => s.doSct v c.val (d 0) (d 1) (d 2))
    | .sca _ _ _ _ _ opt => fin (fun s v => s.doSca v c.val (d 0) (d 1) (d 2) (obit opt 7))
    | .mrgMerge .. => fin (fun s v => s.doMrgMerge v c.val (d 0) (d 1) (d 2) x.toNat)
    | .mrgBitmap .. => fin (fun s v => s.doMrgBitmap v c.val (d 0) (d 1) (d 2) x.toNat)
    | .topk _ _ _ _ _ _ opt =>
      fin (fun s v => s.doTopk v c.val (d 0) (d 1) (d 2) (if obit opt 7 then some (d 3) else none) (ob opt 6 0))
    | .seg _ _ _ _ _ opt => fin (fun s v => s.doSeg v c.val (d 0) (d 1) (d 2) (ob opt 1 0))
    | .cmp _ _ _ _ opt => fin (fun s v => s.doCmp v c.val (d 0) (d 1) (ob opt 0 0))
    | .prn _ _ _ _ _ opt => fin (fun s v => s.doPrn v c.val (d 0) (d 1) x (obit opt 1) (ob opt 0 0 + 1))
    | _ => .next s

end Sys2Proof.Machine
end

