-- ==== Sys2Proof/Machine/Security.lean ====
section
/-! DEFINITION. Security and identity (spec/20_security_identity.md): boot from the flash images, the anti-rollback counter,
attestation reports and certificates, debug unlock. -/

namespace Sys2Proof.Machine
open Sys2Proof

def State.onSec (s : State) (f : Sec → Sec) : State := { s with sec := f s.sec }

/-! ### Flash (R471, R472) -/

/-- A byte of the SPI flash. -/
def State.flash (s : State) (a : Nat) : Byte := SMap.get (Config.flashByte a) s.sec.flash a

/-- Bytes of the flash. -/
def State.flashBytes (s : State) (a n : Nat) : List Byte := (List.range n).map fun i => s.flash (a + i)

/-- Write bytes of the flash. -/
def State.putFlash (s : State) (a : Nat) : List Byte → State
  | [] => s
  | b :: bs => (s.onSec fun k => { k with flash := SMap.put (Config.flashByte a) k.flash a b }).putFlash (a + 1) bs

/-- Bytes of an image slot. -/
def slotSize : Nat := 0x80_0000

/-- First byte of the identity region; everything from there on counts as the region (log entry 58). -/
def identityBase : Nat := 0x100_0000

/-- A little-endian field of an image's header. -/
def State.imageFld (s : State) (slot o n : Nat) : Nat := leNat (s.flashBytes (slotSize * slot + o) n)

/-! ### Boot (R473 to R475) -/

/-- The signed bytes of an image: its header and payload. -/
def State.imageSigned (s : State) (slot : Nat) : List Byte := s.flashBytes (slotSize * slot) (0x100 + s.imageFld slot 0x10 8)

/-- The failure code of the first check that an image fails, 0 where it passes them all (R473). `read` says that the
flash read completes. -/
def State.imageFail (s : State) (slot : Nat) (read : Bool) : Nat :=
  let len := s.imageFld slot 0x10 8
  let key := s.imageFld slot 0xC 4
  let pub := s.flashBytes (slotSize * slot + 0x20) 64
  if !read || s.imageFld slot 0 4 != 0x57465731 || s.imageFld slot 0x18 8 != 0 || s.imageFld slot 0x60 160 != 0 ||
      len % 256 != 0 || decide (len < 256) || decide (0x7F_8000 < len) || decide (3 < key) then 1
  else if shake256 pub 64 != s.fuses.keyHash.getD key [] || s.fuses.keyRev.testBit key then 2
  else if s.imageFld slot 8 4 < s.fuses.rollback then 3
  else if !Config.slhVerify pub (s.imageSigned slot) (s.flashBytes (slotSize * slot + 0x100 + len) 29792) then 4
  else 0

/-- The slot that the ROM tries first: the higher SVN, then the higher VERSION, slot 0 on a tie (R474). -/
def State.firstSlot (s : State) : Nat :=
  let v (k : Nat) := s.imageFld k 8 4
  let w (k : Nat) := s.imageFld k 4 4
  if v 0 < v 1 ∨ (v 0 = v 1 ∧ w 0 < w 1) then 1 else 0

/-- Store a digest in registers of 8 bytes. -/
def State.setDigest (s : State) (reg : Nat → Nat) (d : List Byte) : State :=
  forUpto (d.length / 8) (fun k s => s.setReg (reg k) (BitVec.ofNat 64 (blockField d (8 * k) 8))) s

/-- The identity public key (R477). -/
def State.identity (s : State) : List Byte := Config.slhPublic s.fuses.idSeed

/-- IDHASH: the first 32 bytes of the digest of the identity (R477). -/
def State.idHash (s : State) : List Byte := (shake256 s.identity 64).take 32

/-- SEC.BOOT_STAT. -/
def bootStat (state copy fail0 fail1 fallback version : Nat) : Word :=
  BitVec.ofNat 64 (state <<< 60 + copy <<< 56 + fail0 <<< 48 + fail1 <<< 40 + fallback <<< 32 + version)

/-- Start the image of a slot: measurements latched, the security core ready (R474, R479). -/
def State.bootSlot (s : State) (slot fail0 fail1 fallback : Nat) : State :=
  let s := s.setReg Reg.secBootStat (bootStat 1 slot fail0 fail1 fallback (s.imageFld slot 4 4))
  let s := ((s.setDigest Reg.secMeasM0 (shake256 Config.romImage 64)).setDigest Reg.secMeasM1
    (shake256 (s.imageSigned slot) 64)).setDigest Reg.secIdhash s.idHash
  (s.onSec fun k => { k with svn := s.imageFld slot 8 4 }).setFld Reg.rstReady 1 1 1

/-- FIRMWARE_BOOT: the ROM checks the first slot, then the other, and starts the accepted image or enters recovery
(R473 to R475). `read0` and `read1` say whether the flash reads of the slots complete. -/
def execFirmwareBoot (read0 read1 : Bool) (s : State) : Out :=
  if !s.domUp 0 || s.fld Reg.secBootStat 63 60 != 0 then .next s else
  let f (k : Nat) : Nat := s.imageFail k (if k = 0 then read0 else read1)
  let a := s.firstSlot
  let b := 1 - a
  if f a = 0 then .next (s.bootSlot a 0 0 0)
  else if f b = 0 then .next (s.bootSlot b (if a = 0 then f 0 else 0) (if a = 1 then f 1 else 0) 1)
  else .next (s.setReg Reg.secBootStat (bootStat 2 0xF (f 0) (f 1) 1 0))

/-- Whether an image runs. -/
def State.booted (s : State) : Bool := s.fld Reg.secBootStat 63 60 == 1

/-- Whether the device is in recovery. -/
def State.recovery (s : State) : Bool := s.fld Reg.secBootStat 63 60 == 2

/-! ### Anti-rollback (R476) -/

/-- ROLLBACK_ADV: bits are blown until the counter equals the value written; a value above the running SVN, or not above
the counter, is ignored. -/
def execRollbackAdv (v : BitVec 64) (s : State) : Out :=
  if !s.domUp 0 then .next s else
  writeReg Reg.secRollbackAdv v s fun v s =>
  let n := bits 6 0 v
  if !s.booted || decide (s.sec.svn < n) || decide (n ≤ s.fuses.rollback) then .next s
  else .next { s with fuses := { s.fuses with rollback := n } }

/-! ### Attestation (R477 to R480) -/

/-- The part of a report that its signature covers, taken in one snapshot (R479). -/
def State.reportBody (s : State) (nonce : List Byte) : List Byte :=
  let meas (reg : Nat → Nat) : List Byte := (List.range 8).flatMap fun k => natLE 8 (s.reg (reg k)).toNat
  let flags := s.fld Reg.secDebugStat 63 63 + 2 * s.fld Reg.secBootStat 32 32 + 4 * (s.fld Reg.secBootStat 59 56 % 2)
  natLE 4 0x57465231 ++ natLE 2 1 ++ natLE 2 s.devId ++ (nonce.take 32) ++ s.identity ++
  natLE 4 (s.fld Reg.secBootStat 31 0) ++ natLE 4 s.sec.svn ++ natLE 8 s.fuses.rollback ++
  natLE 4 (SMap.get 0 s.unitEpoch 1067).toNat ++ natLE 4 flags ++ meas Reg.secMeasM0 ++ meas Reg.secMeasM1 ++
  natLE 64 s.digestOf.toNat ++ List.replicate 64 0

/-- Begin to sign the report at the front of the queue: its snapshot is taken. -/
def State.startReport (s : State) : State :=
  match s.sec.reports with
  | [] => s
  | r :: rs => if r.body.isSome then s else
    s.onSec fun k => { k with reports := { r with body := some (s.reportBody r.nonce) } :: rs }

/-- Queue a request; one that finds the queue of 16 full receives an error response, whose code is free (R480). -/
def State.askAttest (s : State) (to_ : ReplyTo) (nonce : List Byte) : State :=
  if 16 ≤ s.sec.reports.length then
    (s.bump Reg.secAttestBusyCnt 1).drawn.respond to_ (s.free.toNat % 256) []
  else
    let s := match to_ with
      | .mailbox => s.onMgt fun g => { g with serving := some to_ }
      | .mctp => s.onMgt fun g => { g with serving := some to_ }
      | _ => s
    (s.onSec fun k => { k with reports := k.reports ++ [⟨to_, nonce, none⟩] }).startReport

/-- ATTEST_SIGNED: the report at the front is signed under the identity key and returned (R479, R480). -/
def execAttestSigned (s : State) : Out :=
  match s.sec.reports with
  | [] => .next s
  | r :: rs =>
    match r.body with
    | none => .next s.startReport
    | some b =>
      let s := s.onSec fun k => { k with reports := rs }
      .next ((s.respond r.reply 0 (b ++ Config.slhSign s.fuses.idSeed b)).startReport)

/-- The device certificate and the intermediate's, at the start of the identity region (R478, log entry 58). -/
def State.certs (s : State) : List Byte := s.flashBytes identityBase (2 * (256 + 29792))

/-- Whether the DOE mailbox serves an object (R466). -/
def State.doeBusy (s : State) : Bool := s.sec.reports.any fun r => r.reply == .doe

/-- Whether the DOE mailbox can be used: an image runs, the host interface is released, and its link is up. -/
def State.doeUp (s : State) : Bool := s.booted && s.domUp 2 && s.bit Reg.hifLinkStat 0

/-- DOE_DISCOVERY: the discovery object names a protocol by its index, and the next index: discovery itself, reports and
certificates; an index past them answers vendor 0xFFFF (R466, log entry 59). -/
def execDoeDiscovery (index : BitVec 8) (s : State) : Out :=
  if !s.doeUp || s.doeBusy then .next s else
  let v := s.fuses.vendor % 2 ^ 16
  let r := match index.toNat with
    | 0 => 0x0001 + 1 <<< 24
    | 1 => v + 1 <<< 16 + 2 <<< 24
    | 2 => v + 2 <<< 16
    | _ => 0xFFFF
  .next (s.respond .doe 0 (natLE 4 r))

/-- DOE_ABORT: the object in progress is discarded (R466). -/
def execDoeAbort (s : State) : Out :=
  .next (s.onSec fun k => { k with reports := k.reports.filter fun r => r.reply != .doe }).startReport

/-! ### Debug unlock (R482, R483) -/

/-- DEBUG_NEWNONCE: a fresh nonce, whose bytes are free. -/
def execDebugNewnonce (s : State) : Out :=
  if !s.domUp 0 then .next s else
  let t := forUpto 4 (fun k (t : State) => t.drawn.setReg (Reg.secDebugNonce k) t.free) s
  .next (t.onSec fun k => { k with nonceLive := true })

/-- DEBUG_LOCK: the unlock ends; DEBUG stays. -/
def execDebugLock (s : State) : Out := if !s.domUp 0 then .next s else .next (s.setFld Reg.secDebugStat 2 0 0)

/-- Whether a token is accepted: its header, IDHASH, the live nonce, a key whose digest is a used DBGHASH slot, and the
signature. -/
def State.tokenOk (s : State) (t : List Byte) : Bool :=
  let slot := blockField t 4 4
  let h := s.fuses.dbgHash.getD slot []
  let pub := (t.drop 0x50).take 64
  t.length == 144 + 29792 && blockField t 0 4 == 0x57464431 && decide (slot ≤ 1) && (t.drop 8).take 32 == s.idHash &&
  s.sec.nonceLive && (t.drop 0x28).take 32 == (List.range 4).flatMap (fun k => natLE 8 (s.reg (Reg.secDebugNonce k)).toNat) &&
  h.any (· != 0) && shake256 pub 64 == h && Config.slhVerify pub (t.take 144) (t.drop 144)

/-- Verify a token, which consumes the nonce, and set its PERM bits where it is accepted. -/
def State.token (s : State) (t : List Byte) : State × Bool :=
  let ok := s.tokenOk t
  let s := s.onSec fun k => { k with nonceLive := false }
  if ok then
    ((s.setFld Reg.secDebugStat 2 0 (Nat.lor (s.fld Reg.secDebugStat 2 0) (blockField t 0x48 8 % 8))).setFld
      Reg.secDebugStat 63 63 1, true)
  else (s, false)

end Sys2Proof.Machine
end

