-- ==== Sys2Proof/Machine/Power.lean ====
section
/-! DEFINITION. Power, reset and pins (spec/21_power_reset_pins.md, and R30, R34): the governor and its gate, conversion
dies, the thermal trip, the eight reset sources with the domains that they clear, the release of the domains, and what
the sideband pins do. -/

namespace Sys2Proof.Machine
open Sys2Proof

/-! ### The governor (R487 to R489) -/

/-- PWR.VLIMIT's VMAX, and VMIN, which above VMAX acts as VMAX; both clamped to 580 to 880 mV (R504). -/
def State.vmax (s : State) : Nat := max 580 (min 880 (s.fld Reg.pwrVlimit 31 16))
def State.vmin (s : State) : Nat := min s.vmax (max 580 (min 880 (s.fld Reg.pwrVlimit 15 0)))

/-- Working conversion dies. -/
def State.diesOk (s : State) : Nat := ((List.range 12).filter fun i => s.bit Reg.pwrStat (40 + i)).length

/-- The effective envelope in W: PWR.ENVELOPE, clamped, and 300 W for each working die but one (R487). -/
def State.envelope (s : State) : Nat :=
  min (max 0x320 (min 0xC80 (s.fld Reg.pwrEnvelope 11 0))) (300 * (s.diesOk - 1))

/-- The hottest of the sampled temperatures, in 1/16 degree. -/
def Sensors.hottest (x : Sensors) : Int := x.temps.foldl (fun m t => max m t.toInt) (x.temps.headD 0).toInt

/-- The sensors that read the hottest temperature. -/
def Sensors.hotAt (x : Sensors) : List Nat :=
  (List.range x.temps.length).filter fun i => (x.temps.getD i 0).toInt == Sensors.hottest x

/-- Record the samples: PWR.STAT.POWER, PWR.TEMP and the management registers (R488, R509). Which index stands for several
sensors that are equally hot is free. -/
def State.sample (s : State) (x : Sensors) : State :=
  let l := Sensors.hotAt x
  let i := if l.length = 1 then l.headD 0 else l.getD (s.free.toNat % max 1 l.length) 0
  let s := if l.length = 1 then s else s.drawn
  let s := (s.setFld Reg.pwrStat 31 16 x.power.toNat).setReg Reg.pwrTemp
    (BitVec.ofNat 64 (i <<< 16 + (BitVec.ofInt 16 (Sensors.hottest x)).toNat))
  if !s.domUp 1 then s else
  let s := forUpto 64 (fun n s => s.setReg (Reg.mgtTemp n) (BitVec.ofNat 64 (x.temps.getD n 0).toNat)) s
  let s := forUpto 5 (fun r s =>
    let (v, w) := x.rails.getD r (0, 0)
    s.setReg (Reg.mgtRail r) (BitVec.ofNat 64 (v.toNat <<< 32 + w.toNat))) s
  s.setReg Reg.mgtInput (BitVec.ofNat 64 (x.input.1.toNat <<< 32 + x.input.2.toNat))

/-- What the governor does to VCORE in an interval: a step of -1, 0 or 1, and the counter of its reason (R488). -/
def governor (hot : Int) (power env : Nat) : Int × Option Nat :=
  if 95 * 16 < hot then (-1, some Reg.pwrThermStepCnt)
  else if env < power then (-1, some Reg.pwrEnvStepCnt)
  else if 100 * power < 98 * env ∧ hot < 94 * 16 then (1, none)
  else (0, none)

/-- VCORE after a step of 5 mV, within the limits. -/
def State.stepped (s : State) (v : Nat) (d : Int) : Nat :=
  max s.vmin (min s.vmax (((v : Int) + 5 * d).toNat))

/-- The gate after an interval: its share rises by one tenth while the condition lasts and falls by one tenth after it;
in turn, each interval holds the grottoes behind those of the last one (R489, log entry 60). -/
def Gate.next (g : Gate) (on : Bool) : Gate :=
  ⟨if on then min 10 (g.share + 1) else g.share - 1, (g.first + 10 * g.share) % 100⟩

/-- GOVERNOR_INTERVAL: the samples are taken up, VCORE moves by one step or stays, and the share of gated grottoes rises
or falls (R28, R488, R489). -/
def execGovernorInterval (x : Sensors) (s : State) : Out :=
  if !s.domUp 0 || x.temps.length != 64 then .next s else
  let s := s.sample x
  let hot := Sensors.hottest x
  let power := x.power.toNat
  let v := s.fld Reg.pwrStat 15 0
  let env := s.envelope
  let (d, c) := governor hot power env
  let floor := v == s.vmin
  let s := if v = 0 then s else
    let s := match c with
      | some c => s.bump c 1
      | none => s
    s.setFld Reg.pwrStat 15 0 (s.stepped v d)
  let s := s.setFld Reg.pwrStat 37 37 (b2n (s.fld Reg.pwrStat 15 0 == s.vmin))
  let was := s.bit Reg.pwrStat 38
  let s := s.setFld Reg.pwrStat 38 38 (b2n (decide (95 * 16 < hot)))
  let s := if decide (95 * 16 < hot) && !was then s.event 1 else s
  let g := s.gate.next ((floor && decide (env < power)) || decide (105 * 16 < hot))
  let s : State := { s with gate := g }
  let s := s.setFld Reg.pwrStat 39 39 (b2n (decide (0 < s.gate.share)))
  .next (if 0 < s.gate.share then s.bump Reg.pwrGateCnt 1 else s)

/-- CONVERSION_DIE_FAULT: the die shuts itself off (R487). -/
def execConversionDieFault (d : Fin 12) (s : State) : Out :=
  if !s.domUp 0 then .next s else .next (s.setFld Reg.pwrStat (40 + d.val) (40 + d.val) 0)

/-- RATE_SAMPLE: a window of rate monitor `g` ends (R30). -/
def execRateSample (g : Fin 100) (rate : BitVec 16) (s : State) : Out :=
  let o := Reg.mgtRateG g.val
  if !s.domUp 1 || !s.domUp (5 + g.val) || s.isOff 1 g.val then .next s
  else .next (((s.setFld o 47 32 (s.fld o 47 32 + 1)).setFld o 31 31 1).setFld o 15 0 rate.toNat)

/-- The rate register of a grotto that is in reset, powered down or disabled (R30). -/
def State.noRate (s : State) (g : Nat) : State := (s.setFld (Reg.mgtRateG g) 31 31 0).setFld (Reg.mgtRateG g) 15 0 0

/-! ### Resets (R491 to R496) -/

/-- The domains that a source clears (R495). -/
def clears (src : Nat) : List Nat :=
  if src ≤ 4 then List.range 105
  else if src = 6 then (List.range 105).drop 2
  else (List.range 105).drop 3

/-- Whether a source leaves the GDDR7 contents undefined (R399, R495). -/
def losesMem (src : Nat) : Bool := src ≤ 2 || src == 6

/-- Whether a reset by a source restores a register to its reset value. -/
def Dom.cleared (d : Dom) (src : Nat) : Bool :=
  match d with
  | .grt => true
  | .fab => true
  | .mem => true
  | .hif => (clears src).contains 2
  | .mgt => (clears src).contains 1
  | .aon => (clears src).contains 0
  | .keep => losesMem src
  | .retained => src ≤ 2
  | .por => src == 0
  | .unlock => src ≤ 1

/-- Whether the register at an offset keeps its value across a reset by a source. -/
def keepsReg (src off : Nat) : Bool :=
  match findReg off with
  | some (r, _) => !Dom.cleared r.dom src
  | none => true

/-- End all work of the memory, fabric and core domains: nothing of it is recorded or counted (R496). Links keep their
session numbers unless power was lost (log entry 61). -/
def State.endAll (s : State) (src : Nat) : State :=
  { s with
    seqs := [], launches := [], siphons := [], passes := [], mesh := [], meshTurn := [], watches := [], cmds := [], turn := [], sinceMsg := [],
    pools := [], epoch := 0, snaps := [], unitEpoch := [], cores := [], reqs := [], cancels := [], upds := [],
    links := if src ≤ 1 then [] else (s.links.map fun (l, k) => (l, k.fresh)).filter fun x => x.2 != {},
    dropStep := [], xch := {}, rsl := {}, scrubAt := [], sliceAt := [],
    regs := s.regs.keep (keepsReg src), cnt := s.cnt.keep (keepsReg src) }

/-- What the management, host and always-on domains lose to a source that clears them, and what they note of one that does
not (R498, R513, R516). -/
def State.endIslands (s : State) (src : Nat) : State :=
  let cl (d : Nat) : Bool := (clears src).contains d
  let s := if cl 2 then
      { s with
        msixWait := [], fnMask := false, bar4 := 30
        sec := { s.sec with reports := s.sec.reports.filter fun r => r.reply != .doe && r.reply != .mailbox }
        mgt := { s.mgt with
          req := [], rsp := [], asked := false
          serving := s.mgt.serving.filter fun r => r != .mailbox
          func := s.mgt.func.map fun f => { f with reply := f.reply.filter fun r => r != .mailbox } } }
    else s
  let s := if cl 0 then { s with sec := { flash := s.sec.flash }, gate := {} }
    else
      let s := ((s.setFld Reg.rstReady 63 16 0).setFld Reg.rstReady 6 4 0).setFld Reg.rstFail 63 4 0
      let s := if cl 2 then (s.setFld Reg.rstReady 3 3 0).setFld Reg.rstFail 3 3 0 else s
      forUpto 13 (fun k s => s.setReg (Reg.rstReadyCore k) 0) s
  if cl 1 then { s with mgt := {}, offline := [], refusing := [], testing := [] }
  else
    let s := forUpto 100 (fun g (s : State) => s.noRate g) s
    { s with refusing := [], testing := [] }.endFunc 4 0

/-- What is restored with the retained settings: PWR.ENVELOPE from its fuses (R495, R504). -/
def State.retain (s : State) (src : Nat) : State :=
  if src ≤ 2 ∧ s.fuses.envelope ≠ 0 then s.setReg Reg.pwrEnvelope (BitVec.ofNat 64 (max 0x320 (min 0xC80 s.fuses.envelope)))
  else s

/-- Sorted union of lists of domains. -/
def union (a b : List Nat) : List Nat := b.foldl insertKey a

/-- Clear what a source clears: the stacks lose their contents or enter self-refresh (R399, R400). -/
def State.clearFor (s : State) (src : Nat) : State :=
  let s := ((s.endAll src).endIslands src).retain src
  let s := if losesMem src then { s.loseMem (fun _ => true) with dieCnt := [] }
    else forUpto 16 (fun m s => s.setFld (Reg.memStat m) 1 1 1) s
  { s with held := union s.held (clears src) }

/-- A source begins: it starts a reset, or joins the one in its hold (R493). -/
def State.begin_ (s : State) (src : Nat) : State :=
  if !s.rst.powered then s else
  let s := s.clearFor src
  { s with rst := { s.rst with joined := insertKey s.rst.joined src, holding := union s.rst.holding (clears src) } }

/-- Note an input of a source as active. -/
def State.activate (s : State) (src input : Nat) : State :=
  if !s.rst.powered ∨ s.rst.active.contains (src, input) then s
  else { s with rst := { s.rst with active := s.rst.active ++ [(src, input)] } }

/-- POWER_ON_RESET: VAUX rises; nothing of the state before it survives but the fuses, the flash, what lies outside the
device and the latch of a trip (R491, R494). While the trip is latched the rails stay off (R490). -/
def execPowerOnReset (s : State) : Out :=
  if s.rst.tripped then .next s
  else .next ({ s with rst := { s.rst with powered := true, joined := [], holding := [] } }.begin_ 0)

/-- BROWN_OUT: `ov` says that the over-voltage cut-off is its cause. -/
def execBrownOut (ov : Bool) (s : State) : Out :=
  if !s.rst.powered then .next s
  else .next (({ s with rst := { s.rst with ov := ov } }.activate 1 0).begin_ 1)

/-- PIN_RESET: PERST_N, or RESET_N, which is ignored while the Wehal drives it (R492). -/
def execPinReset (perst : Bool) (s : State) : Out :=
  if !perst && !s.rst.joined.isEmpty then .next s else .next ((s.activate 2 perst.toNat).begin_ 2)

/-- WATCHDOG_RESET: the second stage expires (R511). -/
def execWatchdogReset (s : State) : Out :=
  if s.domUp 1 && s.bit Reg.mgtWdog 63 && s.bit Reg.mgtWdog 62 then .next (s.begin_ 3) else .next s

/-- SOFTWARE_RESET: a write of RST.SW_RESET, which needs GO and the key, or a hot reset or link disable from the upstream
port (none) (R454, R491, R504). -/
def execSoftwareReset (v : Option (BitVec 64)) (s : State) : Out :=
  match v with
  | some v =>
    if !s.domUp 0 then .next s else
    writeReg Reg.rstSwReset v s fun v s =>
    if bits 63 32 v = 0x52535457 ∧ bits 0 0 v = 1 then .next (s.begin_ 4) else .next s
  | none => if s.domUp 2 then .next (s.begin_ 4) else .next s

/-- DEBUG_RESET: ignored without its PERM bit (R482, R491). -/
def execDebugReset (s : State) : Out :=
  if s.domUp 0 && s.bit Reg.secDebugStat 2 then .next (s.begin_ 5) else .next s

/-- CLOCK_FAILURE: a reference is lost: 0 PCIe, 1 the links', 2 the memory's (R34, R491). -/
def execClockFailure (ref : Fin 3) (s : State) : Out := .next ((s.activate 6 ref.val).begin_ 6)

/-- LOCKUP_RESET: the unit whose handshake is stuck is recorded (R491, R504). A unit that waits at BAR.WAIT is not stuck
(R260). -/
def execLockupReset (u : SeqId) (s : State) : Out :=
  let n := match u with | .core c => c.val | .cp k => 0x7FC + k.val
  if !s.rst.powered || !s.domUp (match u with | .core c => 5 + grottoOf c.val | .cp _ => 4) || (s.seq u).barWait.isSome then .next s
  else .next ((s.recordFirst Reg.rstLockup (BitVec.ofNat 64 n)).begin_ 7)

/-- RESET_SOURCE_END: an input of a source is no longer active. -/
def execResetSourceEnd (src : Fin 8) (input : Fin 3) (s : State) : Out :=
  .next { s with rst := { s.rst with active := s.rst.active.filter fun x => x != (src.val, input.val) } }

/-- RST.CAUSE after the hold of a reset by sources with these bits (R494). -/
def State.cause (s : State) : Word :=
  let l := s.rst.joined
  let last := (l.map fun b => 2 ^ b).sum
  let o := Reg.rstCause
  let v := s.reg o
  let ov (v : Word) : Word := if l.contains 1 then setBits 9 9 v s.rst.ov.toNat else v
  if l.contains 0 then ov (BitVec.ofNat 64 (last <<< 16 + s.rst.tripNote.toNat <<< 8 + last))
  else ov (setBits 47 32 (setBits 23 16 (setBits 7 0 v last) (Nat.lor (bits 23 16 v) last)) (min 0xFFFF (bits 47 32 v + 1)))

/-- RST.STRAP as the straps and the fuses give it (R501). -/
def State.straps (s : State) (x : Straps) : Word :=
  let fit (i : Nat) : Bool := x.fitted.getLsbD i
  let dev := (List.range 12).foldl (fun v i =>
    v + if (if fit i then x.level.getLsbD i else s.fuses.devid.testBit i) then 2 ^ i else 0) 0
  let fused := (List.range 12).foldl (fun v i => v + if fit i then 0 else 2 ^ i) 0
  let m := if fit 12 then x.level.getLsbD 12 else s.fuses.master
  BitVec.ofNat 64 (fused <<< 17 + (b2n (!fit 12)) <<< 16 + (b2n m) <<< 12 + dev)

/-- RESET_HOLD_END: once no source is active, the hold ends: the cause is recorded, and the straps are sampled where a
source cleared the retained settings (R492, R494, R501). -/
def execResetHoldEnd (x : Straps) (s : State) : Out :=
  if s.rst.joined.isEmpty || !s.rst.active.isEmpty then .next s else
  let s' := s.setReg Reg.rstCause s.cause
  let s' := if s.rst.joined.any fun b => b ≤ 2 then s'.setReg Reg.rstStrap (s.straps x) else s'
  let note := s.rst.tripNote && !s.rst.joined.contains 0
  .next { s' with rst := { s'.rst with joined := [], holding := [], tripNote := note } }

/-! ### Thermal trip (R490) -/

/-- THERMTRIP: a sensor has reached 115 degrees; every rail collapses. -/
def execThermtrip (_sensor : Fin 64) (s : State) : Out :=
  if !s.rst.powered then .next s
  else .next { s.clearFor 0 with rst := { tripped := true, powered := false, active := s.rst.active } }

/-- THERMTRIP_RELEASE: the latch is released, by a low input, or by RESET_N while the input is present, which the
power-on reset that follows notes as TRIP. -/
def execThermtripRelease (byReset : Bool) (s : State) : Out :=
  if !s.rst.tripped then .next s else .next { s with rst := { s.rst with tripped := false, tripNote := byReset } }

/-! ### Release (R497, R498) -/

/-- A function reports ready, or that it failed its release, in bit `b` of RST.READY and RST.FAIL. -/
def State.report (s : State) (b : Nat) (fail : Bool) : State :=
  if fail then (s.setFld Reg.rstFail b b 1).event 6 else s.setFld Reg.rstReady b b 1

/-- Clear a core's chamber and accumulators (R199, R200). -/
def State.clearStores (s : State) (c : Nat) : State :=
  let mine (a : Nat) : Bool := decide (chamberBase c ≤ a) && decide (a < chamberBase c + 0x20_0000)
  { s with
    mem := s.mem.keep fun a => !mine a
    poison := s.poison.filter fun a => !mine a
    fresh := s.fresh.filter fun a => !mine a
    chGen := s.chGen.keep fun k => k != c
    cores := s.cores.keep fun k => k != c }

/-- Clear those and the instruction store, as at a release (R200). -/
def State.clearCore (s : State) (c : Nat) : State :=
  let s := s.clearStores c
  { s with seqs := s.seqs.keep fun k => k != c }

/-- The cores of a grotto (R9). -/
def coresOf (g : Nat) : List Nat := (List.range 800).filter fun c => grottoOf c == g

/-- A core's release or enable ends: ready, or disabled where its test failed (R498, R514). -/
def State.readyCore (s : State) (c : Nat) (pass : Bool) : State :=
  if pass then s.setFld (Reg.rstReadyCore (c / 64)) (c % 64) (c % 64) 1
  else { s with offline := insertKey s.offline c }

/-- The release of domain `d`, whose functions that fail are named by KIND and INDEX of R512, with 7 for a memory controller
and 8 for a bit of RST.READY[6:0]. -/
def State.releaseDom (s : State) (d : Nat) (fail : List (Nat × Nat)) : State :=
  match d with
  | 0 => s.report 0 (fail.contains (8, 0))
  | 1 => s.report 2 (fail.contains (8, 2))
  | 2 =>
    -- the other rails have ramped: VCORE stands at a free place within its limits (log entry 60)
    let s := if s.fld Reg.pwrStat 15 0 = 0 then
        s.drawn.setFld Reg.pwrStat 15 0 (s.vmin + s.free.toNat % (s.vmax - s.vmin + 1)) else s
    s.report 3 (fail.contains (8, 3))
  | 3 =>
    let s := forUpto 16 (fun m s =>
      let bad := fail.contains (7, m)
      let s := (s.setFld (Reg.memStat m) 1 1 0).setFld (Reg.memStat m) 0 0 (b2n (!bad))
      s.report (16 + m) bad) s
    forUpto 128 (fun i s => if s.isOff 6 i then s.setFld (Reg.memStat (i / 8)) (40 + i % 8) (40 + i % 8) 1 else s) s
  | 4 =>
    let sram (a : Nat) : Bool := decide (sramBase ≤ a) && decide (a < sramBase + 0x400_0000)
    let s := { s with mem := s.mem.keep fun a => !sram a }
    let s := [4, 5, 6].foldl (fun s b => s.report b (fail.contains (8, b))) s
    let each (s : State) (kind n bit : Nat) : State :=
      forUpto n (fun i s => if s.isOff kind i then s else s.report (bit + i) (fail.contains (kind, i))) s
    each (each (each s 4 12 32) 5 4 44) 3 16 48
  | d =>
    let g := d - 5
    (coresOf g).foldl (fun s c =>
      let s := s.clearCore c
      if s.isOff 0 c || s.isOff 1 g || s.fuses.offCores.contains c then s
      else s.readyCore c (!fail.contains (0, c))) s

/-- DOMAIN_RELEASE: the next cleared domain whose hold is over is released; behind the always-on logic that needs the
firmware, so in recovery nothing else is released (R475, R497). -/
def execDomainRelease (fail : List (Fin 9 × Fin 1024)) (s : State) : Out :=
  match s.held with
  | [] => .next s
  | d :: rest =>
    if !s.rst.powered || s.rst.holding.contains d || (d != 0 && !s.booted) then .next s
    else .next ({ s with held := rest }.releaseDom d (fail.map fun (x : Fin 9 × Fin 1024) => (x.1.val, x.2.val)))

/-! ### Pins (R490, R492, R499, R500, R502) -/

/-- Whether the Wehal drives RESET_N low. -/
def State.drivesReset (s : State) : Bool := s.rst.powered && !s.rst.joined.isEmpty

/-- Whether the Wehal drives THERMTRIP_N low. -/
def State.drivesTrip (s : State) : Bool := s.rst.tripped

/-- Whether the Wehal drives SMB_ALERT_N low: an enabled event stands, or the device is in recovery (R475, R510). -/
def State.drivesAlert (s : State) : Bool :=
  s.rst.powered && (s.recovery ||
    (s.domUp 1 && Nat.land (s.fld Reg.mgtEvent 7 0) (s.fld Reg.mgtEventCfg 15 8) != 0))

/-- The state of a configurable pin. -/
inductive PinState where
  | highZ | pullUp | pullDown | drive0 | drive1 | default_ | firmware
  deriving DecidableEq, Repr

/-- The state that a pin fuse code names during reset (R500). -/
def pinCode (c : Nat) : PinState :=
  match c with | 1 => .pullUp | 2 => .pullDown | 3 => .drive0 | 4 => .drive1 | 5 => .default_ | _ => .highZ

/-- The state of configurable pin `i`: GPIO[i] for 0 to 7, UART_TX, UART_RX. Unpowered it is at high impedance; once the
management domain is released it belongs to firmware. -/
def State.pin (s : State) (i : Nat) : PinState :=
  if !s.rst.powered then .highZ
  else if s.domUp 1 then .firmware
  else pinCode (s.fuses.pins >>> (3 * i) % 8)

end Sys2Proof.Machine
end

