-- ==== Sys2Proof/Machine/Rope.lean ====
section
/-! DEFINITION. Rope passes (R246 to R253, R305): the launch, the takes along the span, and the report. -/

namespace Sys2Proof.Machine
open Sys2Proof

/-- The place on its rope that a pass has reached. -/
def Pass.place (p : Pass) : Int := if p.up then p.start + p.pos else p.start - p.pos

/-- The core at the next span position of a pass. -/
def Pass.nextCore (p : Pass) : Nat :=
  let i := (if p.up then p.place + 1 else p.place - 1).toNat
  if p.col then 40 * i + p.num else 40 * p.num + i

/-- Whether two passes run on one rope in one direction. -/
def Pass.sameWay (p q : Pass) : Bool := p.col == q.col && p.num == q.num && p.up == q.up

/-- Replace a pass. -/
def State.setPass (s : State) (p : Pass) : State :=
  { s with passes := s.passes.map fun x => if x.id = p.id then p else x }

/-- ROPE_LAUNCH: an edge siphon launches a tile that it has staged whole; a core reads its source region and launches
its ROP, which is refused where its specification breaks R247 or R305 (R248, R250). -/
def execRopeLaunch (r : RopeSrc) (s : State) : Out :=
  match r with
  | .staged p =>
    .next { s with passes := (s.passes.filter fun x => x.id != p || x.launched) ++
      (s.passes.filter fun x => x.id == p && !x.launched).map fun x => { x with launched := true } }
  | .core c h =>
    let u := SeqId.core c
    let q := s.seq u
    match q.works.find? fun w => w.handle == h.toNat && w.status == .queued with
    | none => .next s
    | some w =>
      match w.instr with
      | .rop .. =>
        if !s.mayStart q w then .next s else
        (match ropePass s.nextPass c.val w.seq none w.block with
         | none => .next (s.endWork u w.seq .desc)
         | some p =>
           let a := chamberBase c.val + p.src
           let (s, data) := s.readMeet (w.access c.val false) a (128 * p.len)
           let code : Code := if s.rdBad a (128 * p.len) then .ecc else .ok
           let s := (s.noteRead a (128 * p.len)).runWork u w.seq
           .next { s with passes := s.passes ++ [{ p with data := data, code := code, fence := w.fence, launched := true }],
                          nextPass := s.nextPass + 1 })
      | _ => .next s

/-- The tile and the CTR word of one taking core (R249): the core writes the tile at DEST and then increments its word;
a core that only forwards skips both, and is counted where it should have taken (R250, R530). `stall` counts the beats
that the take held the rope for a bank (R251). -/
def State.takeTile (s : State) (p : Pass) (c stall : Nat) : State × Pass :=
  let p' := { p with pos := p.pos + 1 }
  if !p.take.testBit p.pos then (s, p')
  else if s.fwdOnly c then
    ((s.bump (Reg.nocRopeSkipCnt c) 1).addCounts p.unit fun k => { k with drops := k.drops + 1 },
     { p' with skips := p.skips + 1, code := p.code.max .counts })
  else
    let s := s.bump (Reg.nocRopeStallCnt c) stall
    let (s, data) := s.writeMeet ⟨p.unit, some (p.work, p.fence), true⟩ (chamberBase c + p.dest) p.data
    let s := (s.wr (chamberBase c + p.dest) data).bump (Reg.nocRopeTakeCnt c) 1
    match p.ctr with
    | none => (s, p')
    | some w =>
      let r := s.arriveAt (chamberBase c + 4 * w) 1
      (r.1, { p' with code := p.code.max r.2 })

/-- ROPE_TAKE: the last row of a pass passes the next span position. Passes in one direction of one rope keep the
order in which they reached a segment (R252). -/
def execRopeTake (p : Nat) (stall : BitVec 32) (s : State) : Out :=
  match s.passes.find? fun x => x.id == p && x.launched with
  | none => .next s
  | some x =>
    let ahead := s.passes.takeWhile fun y => y.id != p
    if x.span ≤ x.pos then .next s
    else if ahead.any fun y => y.launched && y.sameWay x && y.place == x.place && decide (y.pos < y.span) then .next s
    else
      let r := s.takeTile x x.nextCore stall.toNat
      .next { r.1 with passes := (r.1.passes.filter fun y => y.id != p) ++ [r.2] }

/-- ROPE_PASS_REPORT: the last taker's report reaches the issuer, and the pass completes (R253). -/
def execRopePassReport (p : Nat) (s : State) : Out :=
  match s.passes.find? fun x => x.id == p && x.launched with
  | none => .next s
  | some x =>
    if x.pos < x.span then .next s
    else .next ({ s with passes := s.passes.filter fun y => y.id != p }.endWork (SeqId.ofNum x.unit) x.work x.code)

end Sys2Proof.Machine
end

