-- ==== Sys2Proof/Machine/Functions.lean ====
section
/-! DEFINITION. Requests on functions (spec/22_management_selftest_errors.md, R512 to R516) and internal faults (R517):
disable with its refusal, drain and abort, enable, self-test and retrain. -/

namespace Sys2Proof.Machine
open Sys2Proof

/-! ### Requests (R512) -/

/-- How many functions a KIND has. -/
def funcCount (kind : Nat) : Nat :=
  match kind with | 0 => 800 | 1 => 100 | 2 => 200 | 3 => 16 | 4 => 12 | 5 => 4 | 6 => 128 | _ => 0

/-- Whether an ACTION is allowed on a KIND. -/
def funcAllowed (action kind : Nat) : Bool :=
  match action with
  | 1 => decide (kind ≤ 6)
  | 2 => decide (kind ≤ 6)
  | 3 => decide (kind ≤ 1)
  | 4 => decide (4 ≤ kind) && decide (kind ≤ 6)
  | _ => false

/-- Whether a function is disabled. -/
def State.funcOff (s : State) (kind i : Nat) : Bool := s.isOff kind i || (kind == 0 && s.fuses.offCores.contains i)

/-- The siphon number of a siphon function. -/
def sipOf (kind i : Nat) : Nat := if kind = 3 then 200 + i else i

/-- The READY bit of a function, or those of a grotto's cores that may stand. -/
def State.setReady (s : State) (kind i : Nat) (on : Bool) : State :=
  let v := b2n on
  let core (s : State) (c : Nat) : State := s.setFld (Reg.rstReadyCore (c / 64)) (c % 64) (c % 64) v
  match kind with
  | 0 => core s i
  | 1 => (coresOf i).foldl (fun s c => if on && s.funcOff 0 c then s else core s c) s
  | 3 => s.setFld Reg.rstReady (48 + i) (48 + i) v
  | 4 => s.setFld Reg.rstReady (32 + i) (32 + i) v
  | 5 => s.setFld Reg.rstReady (44 + i) (44 + i) v
  | _ => s

/-- A function powers down (R513). -/
def State.powerDown (s : State) (kind i : Nat) : State :=
  let k := 1024 * kind + i
  let s := { s with
    offline := insertKey s.offline k
    refusing := s.refusing.filter fun x => x != k
    testing := s.testing.filter fun x => x != k }.setReady kind i false
  match kind with
  | 1 => s.noRate i
  | 4 =>
    let o := Reg.cslLinkStat i
    (((((s.setFld o 63 60 0).setFld o 59 56 0).setFld o 52 48 0).onLink i Link.fresh).failReqs .link fun r => r.link == i).afterGone i
  | 5 => (s.setFld (Reg.cxmPortStat i) 2 1 0).setFld (Reg.cxmPortStat i) 39 16 0
  | _ => s

/-! ### Abandoned work (R513) -/

/-- Free contents for a tensor that abandoned work may have written in part. -/
def State.spoilTensor (s : State) (root : Word) (eng : Nat) (t : TD) : State :=
  if t.isStream || !t.ok then s else
  let ws := (((List.range t.count).map t.coords).zipIdx).map fun (m, i) =>
    t.put m ((Config.freeEntry s.freeCtr i).toNat % 2 ^ t.bits)
  (s.drawn.vaPut root eng .any ws).s

/-- Free bytes in a range. -/
def State.spoilBytes (s : State) (a n : Nat) : State :=
  s.drawn.putBytes a ((List.range n).map fun i => Config.undefByte s.freeCtr (2 ^ 51 + i))

/-- The tensors that a running dense instruction writes. -/
def denseDests (w : Work) : List TD :=
  match planOf w with
  | some p => if p.lds then [] else p.dst :: p.sec.toList
  | none => []

/-- Drop a transfer: its destination is undefined, and its waits are removed. -/
def State.dropTransfer (s : State) (n : Nat) (t : Transfer) : State :=
  let mine (w : Waiter) : Bool := match w with | .sip k id => k.val == n && id == t.id | _ => false
  let s := (s.spoilTensor (s.epReg (800 + n) Reg.sipPtRoot) (sipEng n) (td t.dst)).onSiph n fun q =>
    { q with transfers := q.transfers.filter fun x => x.id != t.id }
  { s with
    watches := s.watches.filter fun w => !mine w.who
    reqs := s.reqs.filter fun r => match r.purpose with | .wait who => !mine who | _ => true }

/-- Drop a pass whose last row has not left its source: which of the rows sent are taken is undefined, and no CTR word is
incremented (R250). -/
def State.dropPass (s : State) (p : Pass) : State :=
  let s := { s with passes := s.passes.filter fun x => x.id != p.id }
  if !p.launched then s else
  (forUpto p.span (fun i (x : State × Pass) =>
    let c := x.2.nextCore
    let q := { x.2 with pos := x.2.pos + 1 }
    if p.take.testBit i && decide (p.pos ≤ i) then (x.1.spoilBytes (chamberBase c + p.dest) (128 * p.len), q) else (x.1, q))
    (s, { p with pos := 0 })).1

/-- The abort of a core: each BUSY instruction is abandoned with 0x10, arrivals are not performed, the waits are removed,
and the program ends with 0x10; launches that wait for the core contribute 0x10. The number is that of the handles ended. -/
def State.abortCore (s : State) (c : Nat) : State × Nat :=
  let u := SeqId.ofNum c
  let q := s.seq u
  let open_ := q.works.filter fun w => match w.status with | .ended _ => false | _ => true
  let root := s.epReg c Reg.sipPtRoot
  let s := (open_.filter fun w => w.status == .running).foldl (fun s w =>
    (denseDests w).foldl (fun s t => s.spoilTensor root 0 t) s) s
  let s := forUpto 216 (fun n s =>
    ((s.siph n).transfers.filter fun t => t.unit == c).foldl (fun s t => s.dropTransfer n t) s) s
  let s := (s.passes.filter fun p => p.unit == c && p.pos == 0).foldl State.dropPass s
  let s := s.onCore c fun k => { k with runs := [] }
  let s := { s.dropWaits u with reqs := s.reqs.filter fun r => match r.purpose with
    | .arrive v _ => v != c
    | .wait (.seq v) => v != u
    | _ => true }
  let gone := s.launches.filter fun l => l.core == c
  let s := { s with launches := s.launches.filter fun l => l.core != c }
  let s := gone.foldl (fun s l =>
    match l.by_ with
    | .run n seq => s.onWork (.cp n) seq fun w =>
        let w := { w with left := w.left.erase c, acc := w.acc.max .aborted }
        if w.left.isEmpty then { w with status := .ended w.acc } else w
    | .cmd q idx =>
      let s := s.onCmd q idx fun x => { x with left := x.left.erase c, code := x.code.max .aborted }
      if s.cmds.any (fun x => x.q == q && x.idx == idx && !x.finished && x.left.isEmpty) then s.finishCmd q idx id else s
    | .none => s) s
  (if q.run = .idle then s else s.endProgram u .aborted, open_.length)

/-- The abort of a siphon: its transfers, staged tiles and queued transfers end with 0x10. -/
def State.abortSip (s : State) (n : Nat) : State × Nat :=
  let ts := (s.siph n).transfers
  let s := ts.foldl (fun s t => (s.dropTransfer n t).endWork (SeqId.ofNum t.unit) t.work .aborted) s
  let ps := s.passes.filter fun p => p.siphon == some n
  let s := ps.foldl (fun s p => (s.dropPass p).endWork (SeqId.ofNum p.unit) p.work .aborted) s
  let qs := s.seqs.flatMap fun (u, q) =>
    (q.works.filter fun w => w.status == .queued && xfrSiphon w.instr == some n).map fun w => (u, w.seq)
  (qs.foldl (fun s (u, w) => s.endWork (SeqId.ofNum u) w .aborted) s, ts.length + ps.length + qs.length)

/-- Abort several parts in turn. -/
def State.abortAll (s : State) (l : List (State → State × Nat)) : State × Nat :=
  l.foldl (fun x f => let y := f x.1; (y.1, x.2 + y.2)) (s, 0)

/-- The abort phase of a function. -/
def State.abortFunc (s : State) (kind i : Nat) : State × Nat :=
  match kind with
  | 0 => s.abortCore i
  | 1 => s.abortAll ((coresOf i).map (fun c (s : State) => s.abortCore c) ++
      [fun (s : State) => s.abortSip (2 * i), fun (s : State) => s.abortSip (2 * i + 1)])
  | 2 => s.abortSip i
  | 3 => s.abortSip (200 + i)
  | 4 => ((s.loseLink i), (s.reqs.filter fun r => r.link == i).length)
  | _ => (s, 0)

/-- Whether nothing that a function accepted runs any more (R513). -/
def State.coreIdle (s : State) (c : Nat) : Bool :=
  (s.seq (SeqId.ofNum c)).run == .idle && s.launches.all fun l => l.core != c

def State.sipIdle (s : State) (n : Nat) : Bool :=
  (s.siph n).transfers.isEmpty && (s.passes.all fun p => p.siphon != some n) &&
  s.seqs.all fun (_, q) => q.works.all fun w => w.status != .queued || xfrSiphon w.instr != some n

def State.funcIdle (s : State) (kind i : Nat) : Bool :=
  match kind with
  | 0 => s.coreIdle i
  | 1 => (coresOf i).all s.coreIdle && s.sipIdle (2 * i) && s.sipIdle (2 * i + 1)
  | 2 => s.sipIdle i
  | 3 => s.sipIdle (200 + i)
  | 4 => (s.link i).retry.isEmpty && (s.link i).waiting.isEmpty && s.reqs.all fun r => r.link != i
  | _ => true

/-! ### The start of a request -/

/-- Refuse new work on a function (R513). -/
def State.refuse (s : State) (kind i : Nat) : State :=
  if kind = 6 then s.dropPair (i / 8) (i % 8)
  else { s with refusing := insertKey s.refusing (1024 * kind + i) }.poolsService

/-- Begin a retrain: of a link that carries traffic, of a port whose links stay up, of a pair outside its turn (R414, R396). A
function that has nothing to retrain ends with RESULT 2 (log entry 62). -/
def State.startRetrain (s : State) (kind i : Nat) : State :=
  let going (s : State) : State := s.onMgt fun g => { g with func := g.func.map fun f => { f with going := true } }
  match kind with
  | 4 =>
    if s.isOff 4 i then s.endFunc 2 0
    else if s.linkState i = 2 ∨ s.linkState i = 3 ∨ (s.linkState i = 1 ∧ (s.link i).prior ≠ 0) then going (s.beginRetrain i true)
    else s.endFunc 2 0
  | 5 => s.endFunc (if s.isOff 5 i || !s.domUp 4 then 2 else 0) 0
  | _ =>
    let st := Reg.memStat (i / 8)
    if s.isOff 6 i || !s.domUp 3 || !s.bit st 0 then s.endFunc 2 0
    else if s.fld st 39 32 ≠ 0 then s
    else going (s.slice (i / 8) (i % 8))

/-- Start a request, or end it with RESULT 1 where it is rejected (R512). -/
def State.startFunc (s : State) (v : Word) (reply : Option ReplyTo) : State :=
  let action := bits 31 28 v
  let kind := bits 27 24 v
  let i := bits 15 0 v
  let s := (s.storeReg Reg.mgtFuncReq v allOnes).onMgt fun g => { g with func := some ⟨action, kind, i, false, reply⟩ }
  if !funcAllowed action kind || decide (funcCount kind ≤ i) || (action == 1 && s.funcOff kind i) ||
      (action == 2 && !s.funcOff kind i)
  then s.endFunc 1 0
  else
    let s := s.setReg Reg.mgtFuncStat (BitVec.ofNat 64 (2 ^ 63 + action <<< 28 + kind <<< 24 + i))
    match action with
    | 2 => s.onMgt fun g => { g with func := g.func.map fun f => { f with going := true } }
    | 4 => s.startRetrain kind i
    | _ => s.refuse kind i

/-- A write of MGT.FUNC_REQ: while a request runs it is ignored and counted. -/
def State.funcReq (s : State) (v : Word) : State :=
  if !s.domUp 1 then s
  else if s.bit Reg.mgtFuncStat 63 then s.bump Reg.mgtReqRejectCnt 1
  else s.startFunc v none

/-- A write of MGT.FUNC_REQ with one ACTION. -/
def State.funcWrite (s : State) (action : Nat) (v : Word) : Out :=
  if bits 31 28 v ≠ action then .next s else writeReg Reg.mgtFuncReq v s fun v s => .next (s.funcReq v)

/-- FUNC_DISABLE: a write of MGT.FUNC_REQ with ACTION 1 (R512, R513). -/
def execFuncDisable (v : BitVec 64) (s : State) : Out := s.funcWrite 1 v

/-- FUNC_ENABLE: a write of MGT.FUNC_REQ with ACTION 2 (R512, R514). -/
def execFuncEnable (v : BitVec 64) (s : State) : Out := s.funcWrite 2 v

/-- FUNC_SELF_TEST: a write of MGT.FUNC_REQ with ACTION 3 (R512, R515). -/
def execFuncSelfTest (v : BitVec 64) (s : State) : Out := s.funcWrite 3 v

/-- FUNC_RETRAIN: a write of MGT.FUNC_REQ with ACTION 4 (R512). -/
def execFuncRetrain (v : BitVec 64) (s : State) : Out := s.funcWrite 4 v

/-! ### The course of a request (R513 to R515) -/

/-- FUNC_DRAIN_END: the drain of a disable or a self-test ends once the function is idle: it powers down and the request
ends, or its tests begin. -/
def execFuncDrainEnd (s : State) : Out :=
  match s.mgt.func with
  | none => .next s
  | some f =>
    if f.going || !(f.action == 1 || f.action == 3) || !s.funcIdle f.kind f.index then .next s
    else if f.action = 1 then .next ((s.powerDown f.kind f.index).endFunc 0 0)
    else .next ({ s with testing := insertKey s.testing (1024 * f.kind + f.index) }.onMgt fun g =>
      { g with func := some { f with going := true } })

/-- FUNC_ABORT: the drain has not ended within MGT.DRAIN_TIMEOUT: a disable aborts what remains and powers the function
down; a self-test is abandoned. -/
def execFuncAbort (s : State) : Out :=
  match s.mgt.func with
  | none => .next s
  | some f =>
    if f.going then .next s
    else if f.action = 1 then
      let (s, n) := s.abortFunc f.kind f.index
      .next (((s.bump Reg.mgtAbortCnt n).powerDown f.kind f.index).endFunc 0 n)
    else if f.action = 3 then
      .next ({ s with refusing := s.refusing.filter fun k => k != 1024 * f.kind + f.index }.endFunc 3 0)
    else .next s

/-- The cores of a core or grotto function. -/
def funcCores (kind i : Nat) : List Nat := if kind = 0 then [i] else coresOf i

/-- SELF_TEST_DONE: the tests end. A target that passed returns to service with its chambers and accumulators cleared; one
that failed test DETAIL (0 to 2 here for 1 to 3) is disabled (R200, R515). -/
def execSelfTestDone (fail : Option (Fin 3)) (s : State) : Out :=
  match s.mgt.func with
  | none => .next s
  | some f =>
    if !f.going || f.action != 3 then .next s else
    let k := 1024 * f.kind + f.index
    let s := (funcCores f.kind f.index).foldl State.clearStores
      { s with testing := s.testing.filter fun x => x != k, refusing := s.refusing.filter fun x => x != k }
    match fail with
    | none => .next (s.endFunc 0 0)
    | some d => .next (((s.powerDown f.kind f.index).bump Reg.mgtTestFailCnt 1).endFunc 2 (d.val + 1))

/-- The units of R341 that a function holds. -/
def funcUnits (kind i : Nat) : List Nat :=
  match kind with
  | 0 => [i]
  | 1 => coresOf i ++ [800 + 2 * i, 801 + 2 * i]
  | 2 => [800 + i]
  | 3 => [1000 + i]
  | 4 => [1036 + i]
  | 5 => [1032 + i]
  | _ => []

/-- FUNC_ENABLE_DONE: the release test of a function that was powered up ends; one that passes is ready, and its units run
under the current epoch (R342, R498, R514). -/
def execFuncEnableDone (pass : Bool) (s : State) : Out :=
  match s.mgt.func with
  | none => .next s
  | some f =>
    if !f.going || f.action != 2 then .next s else
    if !pass then
      .next ((match f.kind with
        | 3 => s.report (48 + f.index) true
        | 4 => s.report (32 + f.index) true
        | 5 => s.report (44 + f.index) true
        | _ => s).endFunc 2 0)
    else
      let fuses := if f.kind = 0 then { s.fuses with offCores := s.fuses.offCores.filter fun c => c != f.index } else s.fuses
      let s := { s with offline := s.offline.filter fun k => k != 1024 * f.kind + f.index, fuses := fuses }
      let s := if f.kind ≤ 1 then (funcCores f.kind f.index).foldl State.clearCore s else s
      let s := (funcUnits f.kind f.index).foldl (fun s u => { s with unitEpoch := SMap.put 0 s.unitEpoch u s.epoch }) s
      let s := s.setReady f.kind f.index true
      let s := match f.kind with
        | 4 => if s.bit (Reg.cslLinkCfg f.index) 63 then s.setFld (Reg.cslLinkStat f.index) 63 60 1 else s
        | 6 => s.setFld (Reg.memStat (f.index / 8)) (40 + f.index % 8) (40 + f.index % 8) 0
        | _ => s
      .next (s.endFunc 0 0)

/-! ### Internal faults (R517) -/

/-- Disable the unit in whose control structure a parity failure stood, as R513 states, at once (log entry 63). -/
def State.disableUnit (s : State) (u : Nat) : State :=
  let via (kind i : Nat) : State :=
    let (s, n) := s.abortFunc kind i
    (s.bump Reg.mgtAbortCnt n).powerDown kind i
  if u < 800 then via 0 u
  else if u < 1000 then via 2 (u - 800)
  else if u < 1016 then via 3 (u - 1000)
  else if u < 1032 then (forUpto 8 (fun k s => s.dropPair (u - 1016) k) s).powerDown 7 (u - 1016)
  else if u < 1036 then via 5 (u - 1032)
  else if u < 1048 then via 4 (u - 1036)
  else s.powerDown 7 (u - 1016)

/-- INTERNAL_FAULT: a fault of a unit ends work with 0x7F: the instruction that holds a handle, or the blocks that the
exchange unit runs. `control` says that its reason is a parity failure in a control structure, otherwise it is a firmware
check. -/
def execInternalFault (unit : Fin 1068) (control : Bool) (work : Option (SeqId × BitVec 5)) (s : State) : Out :=
  if !s.domUp 4 then .next s else
  let s := match work with
    | some (u, h) =>
      (match (s.seq u).works.find? fun (w : Work) => w.handle == h.toNat with
       | some w => s.endWork u w.seq .internal
       | none => s)
    | none =>
      if unit.val = 1048 ∨ unit.val = 1049 then
        (s.xch.blocks.filter fun (b : XBlock) => b.started).foldl (fun s b => s.endX b .internal) s
      else s
  let s := s.internal (if control then 2 else 3) unit.val
  .next (if control then s.disableUnit unit.val else s)

end Sys2Proof.Machine
end

