-- ==== Sys2Proof/Machine/Mesh.lean ====
section
/-! DEFINITION. The packet mesh (R240 to R245): its routers' output buffers by virtual channel, the round-robin choice
among the channels of a link, and what an error in a flit does to the work that the packet belongs to. -/

namespace Sys2Proof.Machine
open Sys2Proof

/-- The output link that a packet for `dst` takes at router `c`: along the row first, then along the column; 0 east,
1 west, 2 south, 3 north (R241). -/
def meshOut (c dst : Nat) : Nat :=
  if c % 40 < dst % 40 then 0 else if dst % 40 < c % 40 then 1 else if c / 40 < dst / 40 then 2 else 3

/-- The router at the other end of an output link, where it exists. -/
def meshNext (c dir : Nat) : Option Nat :=
  match dir with
  | 0 => if c % 40 < 39 then some (c + 1) else none
  | 1 => if 0 < c % 40 then some (c - 1) else none
  | 2 => if c / 40 < 19 then some (c + 40) else none
  | _ => if 0 < c / 40 then some (c - 40) else none

/-- The link by which the router beyond a link sends back. -/
def meshBack (dir : Nat) : Nat := match dir with | 0 => 1 | 1 => 0 | 2 => 3 | _ => 2

/-- The buffer of a channel at an output. -/
def State.vcBuf (s : State) (c dir ch : Nat) : List MeshPkt := SMap.get [] s.mesh (16 * c + 4 * dir + ch)

/-- Whether router `c` has room for a packet: it is the packet's destination, or the buffer the packet would wait in is
not full (R242). -/
def State.vcRoom (s : State) (c ch : Nat) (p : MeshPkt) : Bool :=
  p.dst == c || decide ((s.vcBuf c (meshOut c p.dst) ch).length ≤ Config.vcMore)

/-- Whether the first packet of a channel at an output may cross its link. -/
def State.vcReady (s : State) (c dir ch : Nat) : Bool :=
  match (s.vcBuf c dir ch).head?, meshNext c dir with
  | some p, some n => s.vcRoom n ch p
  | _, _ => false

/-- The channel that a link serves next: round-robin among those with a packet ready (R242). -/
def State.vcTurn (s : State) (c dir : Nat) : Option Nat :=
  let last := SMap.get 3 s.meshTurn (4 * c + dir)
  ((List.range 4).map fun i => (last + 1 + i) % 4).find? fun ch => s.vcReady c dir ch

/-- The channels of which a packet waits for buffer space at an output of router `c`, as bits (R263). -/
def State.vcWaits (s : State) (c : Nat) : Nat :=
  (List.range 4).foldl (fun m ch => if (List.range 4).any fun dir =>
    !(s.vcBuf c dir ch).isEmpty && !s.vcReady c dir ch then m + 2 ^ ch else m) 0

/-- A poisoned packet reaches its destination: what it belongs to completes with 0x50, a global load faults with it
(R245). -/
def State.poisonOwner (s : State) (o : PacketOwner) : State :=
  match o with
  | .nothing => s
  | .work u h => s.onSeq u fun q => { q with works := q.works.map fun w =>
      if w.handle = h.toNat then { w with acc := w.acc.max .ecc } else w }
  | .load u => s.onSeq u fun q => { q with poisoned := true }
  | .command q idx => s.onCmd q.val idx.toNat fun c => { c with code := c.code.max .ecc }
  | .block r idx => { s with xch := { s.xch with blocks := s.xch.blocks.map fun b =>
      if b.ring = r.val ∧ b.idx = idx.toNat then { b with code := b.code.max .ecc } else b } }
  | .update m =>
    let u : Upd := SMap.get {} s.upds m.val
    { s with upds := SMap.put {} s.upds m.val { u with inv := u.inv.map fun i => { i with code := i.code.max .ecc } } }

/-- A packet arrives at router `c` with its flits checked: corrected ones are counted, an uncorrectable one poisons the
packet; then it leaves the mesh there, or waits at its next output (R241, R242, R245). -/
def State.meshArrive (s : State) (c ch : Nat) (p : MeshPkt) (e : Ecc) : State :=
  let s := match e with
    | .clean => s
    | .corrected => s.bump (Reg.nocLinkCorrCnt c) 1
    | .uncorrectable => s.bump (Reg.nocLinkUncorrCnt c) 1
  let p := { p with poisoned := p.poisoned || e == .uncorrectable }
  if p.dst = c then (if p.poisoned then s.poisonOwner p.owner else s)
  else
    let k := 16 * c + 4 * meshOut c p.dst + ch
    { s with mesh := SMap.put [] s.mesh k (SMap.get [] s.mesh k ++ [p]) }

/-- MESH_PACKET_RECEIVE: a packet arrives at a router, from the core or edge block there (`from_` = 4) or from the
neighbour to the east, west, south or north (0 to 3), whose link brings it in its channel's turn. -/
def execMeshPacketReceive (c : Fin 800) (from_ : Fin 5) (ch : Fin 4) (dst : Fin 800) (e : Ecc) (owner : PacketOwner)
    (s : State) : Out :=
  if !s.domUp 4 then .next s
  else if from_ = 4 then
    let p : MeshPkt := ⟨dst.val, owner, false⟩
    .next (if s.vcRoom c.val ch.val p then s.meshArrive c.val ch.val p e else s)
  else match meshNext c.val from_.val with
    | none => .next s
    | some n =>
      let dir := meshBack from_.val
      if s.vcTurn n dir ≠ some ch.val then .next s
      else match s.vcBuf n dir ch.val with
        | [] => .next s
        | p :: l =>
          let s := { s with mesh := SMap.put [] s.mesh (16 * n + 4 * dir + ch.val) l,
                            meshTurn := SMap.put 3 s.meshTurn (4 * n + dir) ch.val }
          .next (s.meshArrive c.val ch.val p e)

end Sys2Proof.Machine
end

