-- ==== Sys2Proof/Machine/Registers.lean ====
section
/-! DEFINITION. Accesses to the register space (R10 to R14, R281, R456 to R459): what a read returns, what a write does,
accesses that miss, and the global loads and stores of a sequencer. -/

namespace Sys2Proof.Machine
open Sys2Proof

/-! ### Accesses that miss (R459) -/

/-- Whether the block or core of a register is out of reset and not disabled. -/
def State.regUp (s : State) (r : RegDef) (off : Nat) (ix : List Nat) : Bool :=
  match r.dom with
  | .grt =>
    let o := (off - 0x1000000) % 0x10000
    if (0xA00 ≤ o ∧ o < 0xC00) ∨ (0x2000 ≤ o ∧ o < 0x4000) then
      let g := 10 * ix.getD 0 0 + ix.getD 1 0
      s.domUp (5 + g) && !s.isOff 1 g
    else !s.coreOff (ix.getD 0 0)
  | .fab => s.domUp 4
  | .mem => s.domUp 3
  | .keep => s.domUp 3
  | .hif => s.domUp 2
  | .mgt => s.domUp 1
  | _ => s.domUp 0

/-- Count and record an access that misses. -/
def State.hostMiss (s : State) (bar off : Nat) (wr : Bool) : State :=
  if !s.domUp 2 then s else
  (s.bump Reg.hifBadAccessCnt 1).recordFirst Reg.hifBadAddr
    (BitVec.ofNat 64 (b2n wr <<< 61 + bar <<< 48 + off % 2 ^ 40))

/-! ### Reads -/

/-- COR.DENSE_STAT of a core. -/
def State.denseStat (s : State) (c : Nat) : Word :=
  let k := s.core c
  let rs := s.startedRuns c
  let q := ((s.seq (coreSeq c)).works.filter fun w => isDense w.instr && w.isQueued).length
  let sub := if k.mode = 3 then ((List.range 4).filter fun a => !(k.runsOf a).isEmpty).foldl (fun n a => n + 2 ^ a) 0 else 0
  let conv := b2n (rs.any fun x => !x.2.tiles.isEmpty)
  BitVec.ofNat 64 (q <<< 16 + conv <<< 8 + sub <<< 4 + (b2n (rs.any fun x => x.2.load)) <<< 3 +
    (b2n (rs.any fun x => x.1.streaming x.2)) <<< 2 + k.mode)

/-- COR.SPARSE_STAT of a core: what started dense instructions hold. The merge, top-k, segment and pruning units do their
work within one command (log entry 76). -/
def State.sparseStat (s : State) (c : Nat) : Word :=
  let rs := s.startedRuns c
  let on (f : Plan → Dense → Bool) : Nat := b2n (rs.any fun x => x.1.streaming x.2 && f x.1 x.2)
  BitVec.ofNat 64 (((s.seq (coreSeq c)).works.filter fun w => isSparse w.instr && w.isQueued).length <<< 16 +
    (b2n (s.moveHeld c)) <<< 7 + (on fun _ r => r.stat.any (·.nm)) <<< 3 + (on fun p _ => p.feed.fm == .f4x) <<< 2 +
    (b2n (rs.any fun x => x.1.compressed && !x.2.tiles.isEmpty)) <<< 1)

/-- NOC.ROUTER_STAT of a core: its watches, the channels of which a packet waits for buffer space, whether it only
forwards, the passes that cross it next, and whether one of them is taken here. -/
def State.routerStat (s : State) (c : Nat) : Word :=
  let here (p : Pass) : Bool := p.launched && decide (p.pos < p.span) && p.nextCore == c
  let cross (col : Bool) := b2n (s.passes.any fun p => here p && p.col == col)
  let take := b2n (!s.fwdOnly c && s.passes.any fun p => here p && p.take.testBit p.pos)
  BitVec.ofNat 64 (s.watchesOf c <<< 16 + (s.vcWaits c) <<< 8 + (b2n (s.fwdOnly c)) <<< 3 + cross true <<< 2 +
    cross false <<< 1 + take)

/-- SEQ_STAT of a sequencer. -/
def State.seqStat (s : State) (u : SeqId) : Word :=
  let q := s.seq u
  let st := match q.run with | .idle => 0 | .running => 1 | .ending => 2 | .waiting => 3
  BitVec.ofNat 64 (st <<< 62 + (q.pc % 2 ^ 13) <<< 32 + q.mask Seq.isBusy)

/-- SIP.STAT of a siphon. -/
def State.sipStat (s : State) (n : Nat) : Word :=
  let t := s.siph n
  let staged := ((s.stagedOf n).map fun p => p.data.length).sum / 1024
  let qs := s.seqs.map fun x => x.2
  let queued := (qs.map fun q => (q.works.filter fun w => w.isQueued && xfrSiphon w.instr == some n).length).sum
  let fenced := qs.any fun q => match nextXfr q n with
    | some w => q.works.any fun x => decide (x.seq < w.fence)
    | none => false
  BitVec.ofNat 64 (s.sipActive n <<< 32 + staged <<< 16 + (min 0xFF queued) <<< 8 +
    (b2n (t.transfers.any fun x => x.waiting)) <<< 2 + b2n fenced)

/-- UPD.STAT of an engine. -/
def State.updStat (s : State) (m : Nat) : Word :=
  let u := s.upd m
  let p := match u.inv with | some v => v.phase1 && !v.done | none => false
  BitVec.ofNat 64 (0xFF <<< 8 + (b2n u.row.isSome) <<< 2 + (b2n p) <<< 1 + b2n u.inv.isSome)

/-- XCH.STAT. -/
def State.xchStat (s : State) : Word :=
  let busy := ((List.range 4).map fun r => if s.xch.blocks.any fun b => b.ring == r && b.started then 2 ^ r else 0).sum
  BitVec.ofNat 64 ((s.xch.batches.filter fun b => b.live).length <<< 32 + s.xch.lastTag <<< 16 + busy)

/-- What a read of a register returns (R10): a counter's count, a value derived from the state, or the stored value. -/
def State.regRead (s : State) (r : RegDef) (ix : List Nat) (off : Nat) : Word :=
  let i := ix.getD 0 0
  if r.isCnt then BitVec.ofNat 64 (s.count off) else
  match r.name with
  | "COR.ARRAY_WIDTH" => s.arrayWidth i
  | "COR.DENSE_STAT" => s.denseStat i
  | "COR.SPARSE_STAT" => s.sparseStat i
  | "NOC.ROUTER_STAT" => s.routerStat i
  | "COR.SEQ_STAT" => s.seqStat (SeqId.ofNum i)
  | "CTL.SEQ_STAT" => s.seqStat (SeqId.ofNum (0x3FC + i))
  | "SIP.STAT[0..199]" => s.sipStat (2 * (10 * i + ix.getD 1 0) + ix.getD 2 0)
  | "SIP.STAT[200..215]" => s.sipStat (200 + i)
  | "SIP.PT_STAT" => 0
  | "CTL.EPOCH" => s.epoch.setWidth 64
  | "CTL.POOL_STAT[p]" => s.poolStat i
  | "CTL.EPOCH_ACTIVE[u]" => BitVec.ofNat 64 ((b2n (s.unitOff i)) <<< 63 + (SMap.get 0 s.unitEpoch i).toNat)
  | "UPD.STAT[m]" => s.updStat i
  | "UPD.ROW_STEP[m]" => (s.upd i).rowStep
  | "UPD.SROW[m][k]" =>
    let row := (s.upd i).row.getD []
    let k := ix.getD 1 0
    BitVec.ofNat 64 ((row.getD (2 * k + 1) 0).toNat <<< 32 + (row.getD (2 * k) 0).toNat)
  | "XCH.STAT" => s.xchStat
  | "CSL.DEVID" => BitVec.ofNat 64 ((b2n s.isMaster) <<< 63 + s.devId)
  | "SEC.ROLLBACK" => BitVec.ofNat 64 s.fuses.rollback
  | "HIF.ID" => BitVec.ofNat 64 ((s.fuses.vendor % 2 ^ 16) <<< 32 + (0x800 + b2n s.fuses.h5) <<< 16 + 0xB0)
  | "RST.PINMAP" => BitVec.ofNat 64 s.fuses.pins
  | _ => s.reg off

/-- A read by host software or by a program clears a counter (R11, R14). -/
def State.regClear (s : State) (r : RegDef) (off : Nat) : State :=
  if r.isCnt then { s with cnt := SMap.put 0 s.cnt off 0 } else s

/-- The half of a register that a part names. -/
def Part.take (p : Part) (v : Word) : Word :=
  match p with
  | .whole => v
  | .low => BitVec.ofNat 64 (bits 31 0 v)
  | .high => BitVec.ofNat 64 (bits 63 32 v)

/-- A read access to the register at an offset: its value, all ones where it misses. The doorbells of BAR2 stand at
0x1_0000_0000 (R457). -/
def State.regLoad (s : State) (off : Nat) (p : Part) : State × Word :=
  let bar := if 2 ^ 32 ≤ off then 2 else 0
  let miss : State × Word :=
    (s.hostMiss bar (off % 2 ^ 32 + if p = .high then 4 else 0) false, Part.take p allOnes)
  match findReg off with
  | none => miss
  | some (r, ix) =>
    if !s.regUp r off ix then miss
    else (s.regClear r off, Part.take p (s.regRead r ix off))

/-! ### Writes -/

/-- What a command answers as a state: each of those that a register write calls answers a next state. -/
def outState (s : State) : Out → State
  | .next t => t
  | _ => s

/-- The fields that keep what the half not written holds. -/
def RegDef.kept (r : RegDef) : Word :=
  r.fields.foldl (fun v f => if f.acc == .rw || f.acc == .ep then setBits f.hi f.lo v (2 ^ (f.hi + 1 - f.lo) - 1) else v) 0

/-- Send the pending message of a vector that is not masked any more (R465). -/
def State.sendPending (s : State) (v : Nat) : State :=
  if s.bit (Reg.hifPba (v / 64)) (v % 64) then (s.setFld (Reg.hifPba (v / 64)) (v % 64) (v % 64) 0).msix v else s

/-- Running transfers whose program a write changes have undefined addresses (R215). -/
def State.spoilSlot (s : State) (n k : Nat) : State :=
  s.onSiph n fun q => { q with transfers := q.transfers.map fun t => if t.slot = k then { t with spoiled := true } else t }

/-- A record register whose VALID bit, written as 1, clears the register. -/
def State.clearRecord (s : State) (off : Nat) (v : Word) : State :=
  if bits 63 63 v = 1 then s.setReg off 0 else s.storeReg off v allOnes

/-- A handover of a mailbox request: a GO before the previous request is DONE is ignored and counted (R506). -/
def State.mailbox (s : State) (v mask : Word) : State :=
  if bits 63 63 (v &&& mask) = 1 then
    if s.mgt.asked then s.bump Reg.mgtReqRejectCnt 1
    else (s.storeReg Reg.mgtMboxReq v mask).onMgt fun g => { g with asked := true }
  else s.storeReg Reg.mgtMboxReq v mask

/-- A write of MGT.WDOG_KICK: the key clears STAGE1 (R511). -/
def State.kick (s : State) (v : Word) : State :=
  if s.domUp 1 && bits 63 32 v == 0x4B49434B then s.setFld Reg.mgtWdog 62 62 0 else s

/-- A write of CSL.LINK_CTL: its three actions. -/
def State.linkCtl (s : State) (l : Fin 12) (v : Word) : State :=
  let s := if bits 2 2 v = 1 then outState s (execLinkExclude l s) else s
  let s := if bits 1 1 v = 1 then outState s (execLinkRecheck l s) else s
  if bits 0 0 v = 1 then outState s (execLinkRetrainRequest l s) else s

/-- A write of SEC.DEBUG_CTL. -/
def State.debugCtl (s : State) (v : Word) : State :=
  let s := if bits 0 0 v = 1 then outState s (execDebugNewnonce s) else s
  if bits 1 1 v = 1 then outState s (execDebugLock s) else s

/-- The index of an array register as a bounded number. -/
def fin (n i : Nat) (h : 0 < n) : Fin n := ⟨i % n, Nat.mod_lt i h⟩

/-- The action of a write of the bits `mask` of a register, where `v` holds the bits written and, in the other half, what
fields that keep their value hold (R11). A register that the master alone confirms takes a free choice there. A write of
RSL.HOLD with RELEASE as 1 sets its STEP and ends the hold: it starts none (R452 leaves the two actions of one write open;
DESIGN CHOICE, log entry 102). -/
def State.regAct (s : State) (r : RegDef) (ix : List Nat) (off : Nat) (v w mask : Word) : State :=
  let i := ix.getD 0 0
  let wrote (b : Nat) : Bool := bits b b mask == 1
  let plain := s.storeReg off w mask
  match r.name with
  | "CTL.SQ_CFG[q]" => if wrote 63 then outState s (execSqCfgWrite (fin 64 i (by decide)) v s) else plain
  | "CTL.CQ_CFG[q]" => if wrote 63 then outState s (execCqCfgWrite (fin 64 i (by decide)) v s) else plain
  | "CTL.CQ_HEAD[q]" => if wrote 0 then outState s (execCqHeadWrite (fin 64 i (by decide)) v s) else plain
  | "CTL.SQ_DOORBELL[q]" =>
    if wrote 0 then outState s (execSqDoorbell (fin 64 i (by decide)) (v.setWidth 32) s) else plain
  | "XCH.WRING_CFG[r]" => if wrote 63 then outState s (execWringCfgWrite (fin 4 i (by decide)) v s) else plain
  | "XCH.CRING_CFG[r]" => if wrote 63 then outState s (execCringCfgWrite (fin 4 i (by decide)) v s) else plain
  | "CSL.LINK_CFG[l]" => if wrote 63 then outState s (execLinkCfgWrite (fin 12 i (by decide)) v s) else plain
  | "CSL.LINK_CTL[l]" => s.linkCtl (fin 12 i (by decide)) v
  | "MEM.CLEAR[m]" => outState s (execMemClear (fin 16 i (by decide)) v s)
  | "MEM.DIE_MARK[s]" => outState s (execDieMarkWrite (fin 8 i (by decide)) v s)
  | "CXM.HDM_CTL[p][n]" =>
    if wrote 0 then outState s (execHdmCommit (fin 4 i (by decide)) (fin 8 (ix.getD 1 0) (by decide)) v s) else plain
  | "CXM.CFG_ADDR[p]" => outState s (execCxlCfgRequest (fin 4 i (by decide)) v s)
  | "CXM.PORT_CFG[p]" => if wrote 63 then outState s (execCxlPortCfgWrite (fin 4 i (by decide)) v s) else plain
  | "SIP.TLB_INV" => if bits 0 0 v = 1 then outState s (execTlbInv s) else s
  | "RSL.DROP" => outState s (execRslDrop v s)
  | "RSL.HOLD" => if bits 63 63 v = 1 then outState plain (execHoldRelease plain) else outState s (execHoldStart v s)
  | "RSL.RESTORE" => outState s.drawn (execRestoreStart (v.setWidth 32) (s.free.toNat % 2 == 1) s.drawn)
  | "SEC.ROLLBACK_ADV" => outState s (execRollbackAdv v s)
  | "SEC.DEBUG_CTL" => s.debugCtl v
  | "RST.SW_RESET" => outState s (execSoftwareReset (some v) s)
  | "MGT.WDOG_KICK" => s.kick v
  | "MGT.FUNC_REQ" => if wrote 0 then s.funcReq v else plain
  | "MGT.MBOX_REQ" => s.mailbox w mask
  | "HIF.MSIX_DATA[v]" => if plain.bit off 32 then plain else plain.sendPending i
  | "PWR.ENVELOPE" => plain.setFld off 11 0 (max 0x320 (min 0xC80 (plain.fld off 11 0)))
  | "PWR.VLIMIT" =>
    let t := plain.setFld off 31 16 (max 580 (min 880 (plain.fld off 31 16)))
    t.setFld off 15 0 (max 580 (min 880 (t.fld off 15 0)))
  | "SIP.STORE[0..199]" => plain.spoilSlot (2 * (10 * i + ix.getD 1 0) + ix.getD 2 0) (ix.getD 3 0 / 32)
  | "SIP.STORE[200..215]" => plain.spoilSlot (200 + i) (ix.getD 1 0 / 32)
  | "SIP.FAULT[0..199]" => s.clearRecord off v
  | "SIP.FAULT[200..215]" => s.clearRecord off v
  | "COR.SEQ_FAULT" => s.clearRecord off v
  | "CTL.SEQ_FAULT" => s.clearRecord off v
  | "SPD.ECC_ADDR" => s.clearRecord off v
  | "MEM.ECC_ADDR[m]" => s.clearRecord off v
  | "CSL.QLOG" => s.clearRecord off v
  | "RSL.DROP_LOG" => s.clearRecord off v
  | "HIF.BAD_ADDR" => s.clearRecord off v
  | "MGT.INTERNAL" => s.clearRecord off v
  | _ => plain

/-- A write of a register. Where it writes a field named RSVD with anything but 0 the behaviour of the register is
undefined: a free choice between acting as though that field were 0 and a free stored value (R12, log entry 16). -/
def State.regWrite (s : State) (r : RegDef) (ix : List Nat) (off : Nat) (w mask : Word) : State :=
  let act (s : State) (w : Word) : State :=
    s.regAct r ix off ((w &&& mask) ||| (s.reg off &&& ~~~mask &&& RegDef.kept r)) w mask
  if (w &&& mask &&& ~~~(RegDef.cover r)) = 0 then act s w
  else if s.free.toNat % 2 = 0 then act s.drawn (w &&& RegDef.cover r)
  else s.drawn.storeReg off w mask

/-- The bits that a part writes, and its value in place. -/
def Part.mask : Part → Word
  | .whole => allOnes
  | .low => 0xFFFF_FFFF
  | .high => 0xFFFF_FFFF_0000_0000

def Part.place (p : Part) (v : Word) : Word :=
  match p with
  | .high => v <<< 32
  | _ => v

/-- A write access to the register at an offset; the doorbells of BAR2 stand at 0x1_0000_0000. -/
def State.regStore (s : State) (off : Nat) (p : Part) (v : Word) : State :=
  let bar := if 2 ^ 32 ≤ off then 2 else 0
  let miss := s.hostMiss bar (off % 2 ^ 32 + if p = .high then 4 else 0) true
  match findReg off with
  | none => miss
  | some (r, ix) => if s.regUp r off ix then s.regWrite r ix off (Part.place p v) (Part.mask p) else miss

/-- The offsets of the mailbox buffers in BAR2, as the model numbers them (R457). -/
def mboxBase : Nat := 0x1_0100_0000

/-- Whether an offset lies in the mailbox buffers. -/
def inMbox (o : Nat) : Bool := decide (mboxBase ≤ o) && decide (o < mboxBase + 0x10_0000)

/-- COUNTER_READ: a read returns a counter and clears it; half of one clears it whole (R11, R14). A read of another
register, or of the mailbox buffers, which are memory (R457), changes nothing. -/
def execCounterRead (off : BitVec 33) (p : Part) (s : State) : Out :=
  let o := off.toNat
  let n := if p = .whole then 8 else 4
  if inMbox o then
    if !s.domUp 1 then .next ((s.hostMiss 2 (o % 2 ^ 32) false).send (.answer "register" (List.replicate n 0xFF))) else
    let a := (o - mboxBase) % 0x8_0000 + if p = .high then 4 else 0
    let m := if o < mboxBase + 0x8_0000 then s.mgt.req else s.mgt.rsp
    .next (s.send (.answer "register" ((List.range n).map fun i => SMap.get 0 m (a + i))))
  else
  let (s, v) := s.regLoad o p
  .next (s.send (.answer "register" (natLE n v.toNat)))

/-- REGISTER_WRITE: a write by host software acts by the access codes of the register's fields (R10, R11); the offsets from
0x1_0000_0000 are those of BAR2, where the mailbox buffers are memory (R457). -/
def execRegisterWrite (off : BitVec 33) (p : Part) (v : BitVec 64) (s : State) : Out :=
  let o := off.toNat
  if inMbox o then
    if !s.domUp 1 then .next (s.hostMiss 2 (o % 2 ^ 32) true) else
    let bs := natLE (if p = .whole then 8 else 4) v.toNat
    let a := (o - mboxBase) % 0x8_0000 + if p = .high then 4 else 0
    if o < mboxBase + 0x8_0000 then .next (s.onMgt fun g => { g with req := putBuf g.req a bs })
    else .next (s.onMgt fun g => { g with rsp := putBuf g.rsp a bs })
  else .next (s.regStore o p v)

/-! ### Global loads and stores (R281) -/

/-- The job virtual address FA + IMM, with IMM sign-extended, modulo 2^48. -/
def globalVa (s : State) (u : SeqId) (aa : AReg) (imm : Imm) : Nat := ((s.seq u).getA aa + imm.signExtend 48).toNat

/-- The first local address of the register space (R456). -/
def regSpace : Nat := 0x3F00_0000_0000

/-- Whether an address is a control processor's register access. -/
def SeqId.regAccess (u : SeqId) (va : Nat) : Bool := u.isCp && decide (regSpace ≤ va) && decide (va < regSpace + 0x1000_0000)

/-- The part of a register that an access of `n` bytes reaches. -/
def partOf (n va : Nat) : Part := if n = 8 then .whole else if va % 8 = 4 then .high else .low

/-- Whether a global access of memory waits for a retraining slice (R396). -/
def State.globalWaits (s : State) (u : SeqId) (aa : AReg) (imm : Imm) (n : Nat) (wr : Bool) : Bool :=
  let va := globalVa s u aa imm
  va % n == 0 && !SeqId.regAccess u va &&
  match s.translate (s.epReg u.epochUnit Reg.sipPtRoot) va 0 (!wr) wr with
  | .local_ a => s.training a n
  | _ => false

/-- A load of `n` bytes. A byte that the same sequencer stored at a peer has that store's value (R282); one that an
instruction in flight writes is free (R283). -/
def globalLoad (w : Issue) (rd : SReg) (aa : AReg) (imm : Imm) (n : Nat) (s : State) : Out :=
  issueWhen w (fun s => !s.globalWaits w.u aa imm n false) id s fun s =>
    let va := globalVa s w.u aa imm
    let root := s.epReg w.u.epochUnit Reg.sipPtRoot
    let done (s : State) (v : Word) : State := (s.onSeq w.u fun q => q.setS rd v).adv w.u
    if va % n ≠ 0 then s.seqFault w.u .desc 0x84 va
    else if SeqId.regAccess w.u va then
      let r := s.regLoad ((va - regSpace) / 8 * 8) (partOf n va)
      done r.1 r.2
    else match s.translate root va 0 true false with
      | .fault c k => (s.noteXlat root va 0 true false).seqFault w.u c k va
      | .local_ a =>
        if (s.seq w.u).poisoned then (s.onSeq w.u fun q => { q with poisoned := false }).seqFault w.u .ecc 0x87 va
        else if s.rdBad a n then (s.noteRead a n).seqFault w.u .ecc 0x87 va
        else
          let (s, bs) := ((s.noteRead a n).poolTouch a n).readMeet ⟨w.u.num, none, false⟩ a n
          let (s, bs) := s.readUpdated root va n bs
          done s (BitVec.ofNat 64 (leNat bs))
      | .remote d a =>
        match s.peerRead d a n with
        | (s, .ok, bs) => done s (BitVec.ofNat 64 (leNat ((bs.zipIdx).map fun b =>
            (SMap.get none (s.seq w.u).sent (globalAddr d a + b.2)).getD b.1)))
        | (s, c, _) => s.seqFault w.u c 0x88 va

/-- A store of the low `n` bytes of a register; like a load it waits while the pair's retraining slice runs (R396). Two
stores of a unit become visible in issue order, though R243 allows either (log entry 122). -/
def globalStore (w : Issue) (rd : SReg) (aa : AReg) (imm : Imm) (n : Nat) (s : State) : Out :=
  issueWhen w (fun s => !s.globalWaits w.u aa imm n true) id s fun s =>
    let va := globalVa s w.u aa imm
    let root := s.epReg w.u.epochUnit Reg.sipPtRoot
    let v := (s.seq w.u).getS rd
    if va % n ≠ 0 then s.seqFault w.u .desc 0x84 va
    else if SeqId.regAccess w.u va then (s.adv w.u).regStore ((va - regSpace) / 8 * 8) (partOf n va) v
    else match s.translate root va 0 false true with
      | .fault c k => (s.noteXlat root va 0 false true).seqFault w.u c k va
      | .local_ a =>
        let (s, bs) := (s.poolTouch a n).writeMeet ⟨w.u.num, none, true⟩ a (natLE n v.toNat)
        let (s, bs) := s.writeUpdated root va bs
        (s.wr a bs).adv w.u
      | .remote d a =>
        match s.peerSend d a (natLE n v.toNat) (some (.store w.u.num va)) with
        | (s, true) => (s.onSeq w.u fun q => { q with sent := ((natLE n v.toNat).zipIdx).foldl (fun m b =>
            SMap.put none m (globalAddr d a + b.2) (some b.1)) q.sent }).adv w.u
        | (s, false) => s.seqFault w.u .link 0x88 va

/-- GLW: 32 bits from a job virtual address, zero-extended. -/
def execGlw (w : Issue) (rd : SReg) (aa : AReg) (imm : Imm) (s : State) : Out := globalLoad w rd aa imm 4 s

/-- GLD: 64 bits from a job virtual address. -/
def execGld (w : Issue) (rd : SReg) (aa : AReg) (imm : Imm) (s : State) : Out := globalLoad w rd aa imm 8 s

/-- GSTW: a posted 32-bit store. -/
def execGstw (w : Issue) (rd : SReg) (aa : AReg) (imm : Imm) (s : State) : Out := globalStore w rd aa imm 4 s

/-- GST: a posted 64-bit store. -/
def execGst (w : Issue) (rd : SReg) (aa : AReg) (imm : Imm) (s : State) : Out := globalStore w rd aa imm 8 s

end Sys2Proof.Machine
end

