-- ==== Sys2Proof/Machine/Host.lean ====
section
/-! DEFINITION. The host interface (spec/19_host_interface.md): host accesses through BAR4, accesses that miss, failed
device accesses to host memory, the host link, and MSI-X masks. -/

namespace Sys2Proof.Machine
open Sys2Proof

/-! ### BAR4 (R458 to R461) -/

/-- The local address that an offset of BAR4 reaches: BASE counts modulo the size of the BAR (R458). -/
def State.windowAddr (s : State) (off : Nat) : Nat :=
  s.fld Reg.hifWinBase 47 30 * 2 ^ 30 / 2 ^ s.bar4 * 2 ^ s.bar4 + off

/-- Whether a local address is one that a host access misses: unpopulated, in register space or in the host memory
window, or in a block or core that is in reset or disabled (R458, R459). -/
def State.windowMiss (s : State) (a : Nat) : Bool :=
  match s.target a with
  | .unpopulated => true
  | .regs _ => true
  | .host => true
  | .gddr m _ => !s.domUp 3 || s.bit (Reg.memStat m) (40 + gddrPair a)
  | .cxl p off =>
    (match s.hdmFind p off with
     | none => true
     | some n => !s.domUp 4 || s.isOff 5 p || !s.bit (Reg.cxmPortStat p) (1 + s.hdmLink p n off))
  | .chamber c _ => s.coreOff c
  | .sram _ => !s.domUp 4

/-- What a miss in BAR4 leaves: an address in a CXL window without a decoder counts there too (R404, R459). -/
def State.noteWindowMiss (s : State) (off : Nat) (wr : Bool) : State :=
  let a := s.windowAddr off
  let s := match s.target a with
    | .cxl p o => if (s.hdmFind p o).isNone then s.bump (Reg.cxmNodecCnt p) 1 else s
    | _ => s
  s.hostMiss 4 off wr

/-- Whether an access through the window waits: the memory controller does not yet accept accesses (R399), or the pair's
retraining slice runs (R396). -/
def State.windowWaits (s : State) (a n : Nat) : Bool :=
  (match s.target a with
   | .gddr m _ => !s.bit (Reg.memStat m) 0
   | _ => false) || s.training a n

/-- The bytes of a host access: its length, and whether it writes. -/
def HostAcc.len : HostAcc → Nat
  | .read n => n.val
  | .write bs => bs.length

def HostAcc.isWrite : HostAcc → Bool
  | .read _ => false
  | .write _ => true

/-- HOST_WINDOW_ACCESS: a host access within one aligned row of 128 bytes of BAR4. A read that meets an uncorrectable unit is
answered with poisoned data (R458 to R461). -/
def execHostWindowAccess (off : BitVec 40) (x : HostAcc) (s : State) : Out :=
  let o := off.toNat
  let n := HostAcc.len x
  let a := s.windowAddr o
  if n = 0 ∨ 128 < o % 128 + n ∨ 2 ^ s.bar4 < o + n ∨ !s.domUp 2 ∨ !s.bit Reg.hifLinkStat 0 then .next s
  else if s.windowMiss a then
    let t := s.noteWindowMiss o (HostAcc.isWrite x)
    .next (if HostAcc.isWrite x then t else t.send (.answer "hostRead" (List.replicate n 0xFF)))
  else if s.windowWaits a n then .next s
  else let s := s.poolTouch a n
  match x with
    | .write bs => .next (s.wr a bs)
    | .read _ =>
      let t := s.noteRead a n
      if s.rdBad a n then .next ((t.bump Reg.hifPoisonTxCnt 1).send (.answer "hostReadPoisoned" []))
      else .next (t.send (.answer "hostRead" (s.rdBytes a n)))

/-- Whether a host access through a BAR misses. -/
def State.hostMisses (s : State) (bar : Bar) (off : Nat) : Bool :=
  match bar with
  | .bar0 => match findReg (off / 8 * 8) with
    | some (r, ix) => decide (0x1000_0000 ≤ off) || !s.regUp r (off / 8 * 8) ix
    | none => true
  | .bar2 =>
    if 0x100_0000 ≤ off ∧ off < 0x110_0000 then !s.domUp 1
    else match findReg (2 ^ 32 + off / 8 * 8) with
      | some (r, ix) => decide (0x400_0000 ≤ off) || !s.regUp r (2 ^ 32 + off / 8 * 8) ix
      | none => true
  | .bar4 => s.windowMiss (s.windowAddr off)

/-- HOST_ACCESS_MISS: a host access whose target is unpopulated, in reset or disabled: a read returns all ones, a write is
discarded; it is counted, and the first is recorded (R459). -/
def execHostAccessMiss (bar : Bar) (off : BitVec 40) (n : Fin 65) (wr : Bool) (s : State) : Out :=
  let o := off.toNat
  if !s.domUp 2 || !s.bit Reg.hifLinkStat 0 || !s.hostMisses bar o then .next s
  else
    let t := match bar with
      | .bar0 => s.hostMiss 0 o wr
      | .bar2 => s.hostMiss 2 o wr
      | .bar4 => s.noteWindowMiss o wr
    .next (if wr then t else t.send (.answer "hostRead" (List.replicate n.val 0xFF)))

/-! ### Failed accesses to host memory (R464) -/

/-- The code and cause of a failed access: a request that host memory refuses or never answers, or poisoned data. -/
def dmaFault (poison wr : Bool) : Code × Nat := if poison then (.ecc, 0) else (.prot, if wr then 0x11 else 0x10)

/-- Whether a local address is host memory that can be reached. -/
def State.hostAt (s : State) (a : Nat) : Bool := s.target a == .host && s.hostUp

/-- Whether a virtual address leads to host memory that can be reached. -/
def State.hostVa (s : State) (root : Word) (va eng : Nat) (wr : Bool) : Bool :=
  match s.translate root va eng (!wr) wr with
  | .local_ a => s.hostAt a
  | _ => false

/-- HOST_DMA_FAIL: a device access to host memory fails in flight, with 0x20 or, for poisoned data, 0x50: the requester
completes with the code, and the failure is counted. A ring fetch stops its queue with REASON 2 (R325, R464). -/
def execHostDmaFail (at_ : DmaAt) (poison : Bool) (s : State) : Out :=
  let t := s.bump Reg.hifDmaErrCnt 1
  let code (wr : Bool) := (dmaFault poison wr).1
  match at_ with
  | .fetch q =>
    let cfg := s.reg (Reg.ctlSqCfg q.val)
    let i := s.sqHead q.val
    if s.bit (Reg.ctlSqCfg q.val) 63 && !s.bit (Reg.ctlSqStat q.val) 63 && decide (0 < dist32 (s.sqTail q.val) i) &&
        s.hostAt (ringBase cfg + 64 * (i % ringSize cfg))
    then .next (t.stopQueue q.val 2) else .next s
  | .args q idx =>
    (match s.cmdOf q idx 1 with
     | some c => if !c.begun && s.hostAt (c.fld 0x18 8) then .next (t.endCmd c (code false) 0) else .next s
     | none => .next s)
  | .copy q idx n wr =>
    (match s.cmdOf q idx 3 with
     | some c =>
       let sip := 200 + q.val % 16
       let a := (if wr then c.fld 0x10 8 else c.fld 8 8) + 4 * n.toNat
       if c.fld 0x18 8 / 4 ≤ n.toNat ∨ s.sipRefuses sip ∨ !s.hostAt a then .next s else
       let x := forUpto n.toNat (Copy.one sip (c.fld 8 8) (c.fld 0x10 8)) ⟨t, 0, false, none⟩
       if x.fault.isSome then .next s else
       let o := Reg.sipFault sip
       let v : Word := BitVec.ofNat 64 ((code wr).toNat <<< 48 + (dmaFault poison wr).2 <<< 40 + 0x3FF <<< 16)
       let y := x.s.recordFirst o v
       let y := if x.s.bit o 63 then y else y.setReg (Reg.sipFaultVa sip) (BitVec.ofNat 64 (a % 2 ^ 48))
       .next (y.endCmd c ((code wr).max (if x.bad then .ecc else .ok)) x.done)
     | none => .next s)
  | .transfer n id va wr =>
    (match s.xfer n.val id with
     | some x =>
       if x.ended || !s.hostVa (s.epReg (sipUnit n.val) Reg.sipPtRoot) va.toNat (sipEng n.val) wr then .next s else
       let f := dmaFault poison wr
       .next ((t.sipFault n.val x (f.1, f.2, va.toNat)).setXfer n.val (x.stop f.1))
     | none => .next s)
  | .global u va wr =>
    let q := s.seq u
    if q.run != .running || !s.hostVa (s.epReg u.epochUnit Reg.sipPtRoot) va.toNat 0 wr then .next s
    else .next (t.seqFault u (code wr) (if poison then 0x87 else (dmaFault poison wr).2) va.toNat)

/-! ### The link and MSI-X (R453, R464, R465) -/

/-- HOST_LINK_UP: the link is up as training and the host configure it; with Bus Master Enable set, messages that waited
are sent (R464). -/
def execHostLinkUp (c : HostCfg) (s : State) : Out :=
  if !s.domUp 2 then .next s else
  let o := Reg.hifLinkStat
  let v := c.width.toNat <<< 8 + c.gen.toNat <<< 3 + (b2n c.flit) <<< 2 + (b2n c.bme) <<< 1 + 1
  let t := { s.setReg o (BitVec.ofNat 64 v) with fnMask := c.fnMask, bar4 := 30 + c.bar4.val }
  .next (if c.bme then t.msixWait.foldl (fun (t : State) v => t.msix v) { t with msixWait := [] } else t)

/-- HOST_LINK_DOWN: the link goes down, or Bus Master Enable is cleared; the job runs on (R464). -/
def execHostLinkDown (bmeOnly : Bool) (s : State) : Out :=
  if !s.domUp 2 then .next s
  else if bmeOnly then .next (s.setFld Reg.hifLinkStat 1 1 0)
  else .next ((s.setFld Reg.hifLinkStat 12 8 0).setFld Reg.hifLinkStat 4 0 0)

/-- MSIX_UNMASK: the mask of a vector, or the function mask, is cleared, and pending messages of vectors that are not masked
are sent (R465). -/
def execMsixUnmask (v : Option (Fin 2048)) (s : State) : Out :=
  if !s.domUp 2 then .next s else
  match v with
  | some v => .next ((s.setFld (Reg.hifMsixData v.val) 32 32 0).sendPending v.val)
  | none => .next (forUpto 2048 (fun v t => if t.bit (Reg.hifMsixData v) 32 then t else t.sendPending v)
      { s with fnMask := false })

end Sys2Proof.Machine
end

