-- ==== Sys2Proof/Machine/LoadStore.lean ====
section
/-! DEFINITION. Scalar loads and stores of the own chamber or the control-cluster SRAM by word index (R280, R282). -/

namespace Sys2Proof.Machine
open Sys2Proof

/-- The word index FA + IMM, with IMM zero-extended (R280). -/
def wordIndex (s : State) (u : SeqId) (aa : AReg) (imm : Imm) : Nat := ((s.seq u).getA aa).toNat + imm.toNat

/-- The local address of a word of the unit's scalar store. -/
def wordAddr (u : SeqId) (i : Nat) : Nat := storeBase u + 4 * i

/-- A load of `n` bytes at a word index: cause 0x83 beyond the store, 0x84 where a two-word access has an odd index,
0x87 on an uncorrectable word (R280, R284); what an instruction in flight writes reads as free values (R283). -/
def loadWords (w : Issue) (rd : SReg) (aa : AReg) (imm : Imm) (n : Nat) (f : Nat → Word) (s : State) : Out :=
  issue w s fun s =>
    let i := wordIndex s w.u aa imm
    let a := wordAddr w.u i
    if storeWords w.u ≤ i then s.seqFault w.u .desc 0x83 0
    else if n = 8 ∧ i % 2 = 1 then s.seqFault w.u .desc 0x84 0
    else if s.rdBad a n then (s.noteRead a n).seqFault w.u .ecc 0x87 0
    else
      let (s, bs) := s.readMeet ⟨w.u.num, none, false⟩ a n
      (s.onSeq w.u fun q => q.setS rd (f (leNat bs))).adv w.u

/-- A store of the low `n` bytes of a register at a word index (R280); what an instruction in flight reads or writes there
has free values afterwards (R283). -/
def storeWordsAt (w : Issue) (rd : SReg) (aa : AReg) (imm : Imm) (n : Nat) (s : State) : Out :=
  issue w s fun s =>
    let i := wordIndex s w.u aa imm
    if storeWords w.u ≤ i then s.seqFault w.u .desc 0x83 0
    else if n = 8 ∧ i % 2 = 1 then s.seqFault w.u .desc 0x84 0
    else
      let (s, bs) := s.writeMeet ⟨w.u.num, none, true⟩ (wordAddr w.u i) (natLE n ((s.seq w.u).getS rd).toNat)
      (s.wr (wordAddr w.u i) bs).adv w.u

/-- LDW: one word, zero-extended (R280, R287). -/
def execLdw (w : Issue) (rd : SReg) (aa : AReg) (imm : Imm) (s : State) : Out :=
  loadWords w rd aa imm 4 (fun v => BitVec.ofNat 64 v) s

/-- LDWS: one word, sign-extended (R280, R287). -/
def execLdws (w : Issue) (rd : SReg) (aa : AReg) (imm : Imm) (s : State) : Out :=
  loadWords w rd aa imm 4 (fun v => (BitVec.ofNat 32 v).signExtend 64) s

/-- LDD: two consecutive words, the lower one in bits [31:0] (R280, R287). -/
def execLdd (w : Issue) (rd : SReg) (aa : AReg) (imm : Imm) (s : State) : Out :=
  loadWords w rd aa imm 8 (fun v => BitVec.ofNat 64 v) s

/-- STW: the low word of a register (R280, R287). -/
def execStw (w : Issue) (rd : SReg) (aa : AReg) (imm : Imm) (s : State) : Out := storeWordsAt w rd aa imm 4 s

/-- STD: a register as two words (R280, R287). -/
def execStd (w : Issue) (rd : SReg) (aa : AReg) (imm : Imm) (s : State) : Out := storeWordsAt w rd aa imm 8 s

end Sys2Proof.Machine
end

