-- ==== Sys2Proof/Machine/Management.lean ====
section
/-! DEFINITION. Management messages and their transports, sensors, the watchdog (spec/22_management_selftest_errors.md, R505
to R511), and the requests that the security core serves on several transports (R480, R483). -/

namespace Sys2Proof.Machine
open Sys2Proof

/-! ### Messages (R505 to R508) -/

/-- A well-formed message: TYPE, ADDR and the body (R507). -/
structure Msg where
  ty : Nat
  addr : Nat
  body : List Byte
  deriving DecidableEq, Repr

/-- The message in a request: RSVD is 0, and LEN is what follows the header of 16 bytes. -/
def parseMsg (bs : List Byte) : Option Msg :=
  if bs.length < 16 ∨ blockField bs 1 3 ≠ 0 ∨ blockField bs 4 4 + 16 ≠ bs.length then none
  else some ⟨blockField bs 0 1, blockField bs 8 8, bs.drop 16⟩

/-- The bytes of a request, and where its answer goes. -/
def State.request_ (s : State) (v : Via) : ReplyTo × List Byte :=
  match v with
  | .mailbox =>
    let n := s.fld Reg.mgtMboxReq 19 0
    (.mailbox, if 0x8_0000 < n then [] else (List.range n).map fun i => SMap.get 0 s.mgt.req i)
  | .mctp m => (.mctp, m)

/-- Answer an MCTP request in recovery: with the boot status alone (R475). -/
def State.bootAnswer (s : State) : State := s.send (.answer "mctp" (natLE 8 (s.reg Reg.secBootStat).toNat))

/-- Serve a management message of a TYPE, in the order of arrival and one at a time (R506); a mailbox request only once
GO has handed it over. A malformed request, or one of a TYPE that the table of R507 lacks, gets 0x22; one of another
TYPE is not this command's. In recovery MCTP requests get the boot status. -/
def serve (v : Via) (ty : Nat) (ok : Msg → Bool) (s : State) (f : ReplyTo → Msg → State) : Out :=
  if s.recovery && s.domUp 0 && decide (v ≠ .mailbox) then .next s.bootAnswer
  else if !s.domUp 1 || s.mgt.serving.isSome || (v == .mailbox && !s.mgt.asked) then .next s
  else
    let (to_, bs) := s.request_ v
    match parseMsg bs with
    | none => .next (s.respond to_ 0x22 [])
    | some m =>
      if m.ty = ty then .next (if ok m then f to_ m else s.respond to_ 0x22 [])
      else if 1 ≤ m.ty ∧ m.ty ≤ 8 then .next s
      else .next (s.respond to_ 0x22 [])

/-- The register at an address of a message, where one stands out of reset (R459, R507). -/
def State.msgReg (s : State) (a : Nat) : Option (RegDef × List Nat) :=
  match findReg a with
  | some (r, ix) => if a < 0x1000_0000 ∧ s.regUp r a ix then some (r, ix) else none
  | none => none

/-- READ_REG: the value of a register; a counter is not cleared (R507, R508), and a register that is absent or in reset
reads as all ones. -/
def execReadReg (v : Via) (s : State) : Out :=
  serve v 1 (fun m => m.addr % 8 == 0 && m.body.isEmpty) s fun to_ m =>
    let x := match s.msgReg m.addr with
      | some (r, ix) => s.regRead r ix m.addr
      | none => allOnes
    s.respond to_ 0 (natLE 8 x.toNat)

/-- WRITE_REG: a write of a register, answered unless it resets the management domain. -/
def execWriteReg (v : Via) (s : State) : Out :=
  serve v 2 (fun m => m.addr % 8 == 0 && m.body.length == 8) s fun to_ m =>
    let t := match s.msgReg m.addr with
      | some (r, ix) => s.regWrite r ix m.addr (BitVec.ofNat 64 (leNat m.body)) allOnes
      | none => s
    if t.domUp 1 then t.respond to_ 0 [] else t

/-- PEEK: a counter, not cleared (R508). -/
def execPeek (v : Via) (s : State) : Out :=
  let counter (a : Nat) : Bool := match findReg a with | some (r, _) => r.isCnt | none => false
  serve v 3 (fun m => counter m.addr && m.body.isEmpty) s fun to_ m =>
    let x := match s.msgReg m.addr with
      | some (r, ix) => s.regRead r ix m.addr
      | none => allOnes
    s.respond to_ 0 (natLE 8 x.toNat)

/-- FUNC: a request of R512, once no other runs; its answer is MGT.FUNC_STAT when it ends. -/
def execFunc (v : Via) (s : State) : Out :=
  if s.bit Reg.mgtFuncStat 63 && s.domUp 1 then .next s else
  serve v 4 (fun m => m.body.length == 8) s fun to_ m =>
    (s.onMgt fun g => { g with serving := some to_ }).startFunc (BitVec.ofNat 64 (leNat m.body)) (some to_)

/-- FLASH_WRITE: forbidden within the slot that booted and the identity region (R507). -/
def execFlashWrite (v : Via) (s : State) : Out :=
  serve v 5 (fun m => decide (m.body.length ≤ 0x1_0000)) s fun to_ m =>
    let a := m.addr
    let e := a + m.body.length
    let slot := slotSize * s.fld Reg.secBootStat 59 56
    if identityBase < e ∨ (slot < e ∧ a < slot + slotSize) then s.respond to_ 0x20 []
    else (s.putFlash a m.body).respond to_ 0 []

/-! ### Requests to the security core (R480, R483) -/

/-- A link that can carry management traffic (R416, R418). -/
def State.linkTalks (s : State) (l : Nat) : Bool := s.booted && (s.linkState l == 2 || s.linkState l == 3)

/-- ATTEST: a request with a nonce of 32 bytes is queued for signing, or refused where the queue is full (R480). -/
def execAttest (a : Asker) (s : State) : Out :=
  match a with
  | .msg v => serve v 6 (fun m => m.body.length == 32) s fun to_ m => s.askAttest to_ m.body
  | .doe b =>
    if !s.doeUp || s.doeBusy then .next s
    else .next (if b.length = 32 then s.askAttest .doe b else s.respond .doe 0x22 [])
  | .link l b => .next (if s.linkTalks l.val && b.length == 32 then s.askAttest (.link l.val) b else s)
  | .tap _ => .next s

/-- CERTS: the two identity certificates (R478, R480). -/
def execCerts (a : Asker) (s : State) : Out :=
  match a with
  | .msg v => serve v 7 (fun m => m.body.isEmpty) s fun to_ _ => s.respond to_ 0 s.certs
  | .doe _ => if !s.doeUp || s.doeBusy then .next s else .next (s.respond .doe 0 s.certs)
  | .link l _ => .next (if s.linkTalks l.val then s.respond (.link l.val) 0 s.certs else s)
  | .tap _ => .next s

/-- DEBUG_TOKEN: a token by the mailbox or a TAP data register is verified, which consumes the nonce (R483). -/
def execDebugToken (a : Asker) (s : State) : Out :=
  match a with
  | .msg v => serve v 8 (fun _ => true) s fun to_ m =>
    let x := s.token m.body
    x.1.respond to_ (if x.2 then 0 else 0x20) []
  | .tap b => if s.booted && s.domUp 0 then .next (s.token b).1 else .next s
  | .doe _ => .next s
  | .link _ _ => .next s

/-! ### MCTP control and sensors (R505, R509) -/

/-- SET_ENDPOINT_ID: the bus owner assigns the endpoint ID. -/
def execSetEndpointId (eid : BitVec 8) (s : State) : Out :=
  if s.recovery && s.domUp 0 then .next s.bootAnswer
  else if !s.domUp 1 then .next s
  else .next ((s.onMgt fun g => { g with eid := eid.toNat }).send (.answer "mctpControl" [eid]))

/-- The reading of a numeric sensor. -/
def State.sensor (s : State) (n : Nat) : Option Nat :=
  if 0x01 ≤ n ∧ n ≤ 0x40 then some (s.reg (Reg.mgtTemp (n - 1))).toNat
  else if n = 0x41 then some (s.fld Reg.pwrStat 31 16)
  else if 0x42 ≤ n ∧ n ≤ 0x46 then some (s.reg (Reg.mgtRail (n - 0x42))).toNat
  else if n = 0x47 then some (s.fld Reg.mgtInput 63 32)
  else if n = 0x48 then some (s.fld Reg.mgtInput 31 0)
  else if 0x50 ≤ n ∧ n ≤ 0xB3 then some (s.reg (Reg.mgtRateG (n - 0x50))).toNat
  else none

/-- PLDM_SENSOR_READ: the latest sample of a numeric sensor; an ID that names no sensor gets an empty answer (R509). -/
def execPldmSensorRead (id : BitVec 16) (s : State) : Out :=
  if s.recovery && s.domUp 0 then .next s.bootAnswer
  else if !s.domUp 1 then .next s
  else .next (s.send (.answer "pldm" (match s.sensor id.toNat with | some x => natLE 8 x | none => [])))

/-! ### The watchdog (R511) -/

/-- WDOG_KICK: a write of MGT.WDOG_KICK; the key restarts the count and clears STAGE1, any other key is ignored. -/
def execWdogKick (v : BitVec 64) (s : State) : Out :=
  if !s.domUp 1 then .next s else writeReg Reg.mgtWdogKick v s fun v s => .next (s.kick v)

/-- WDOG_STAGE1: TIMEOUT has passed without a kick: STAGE1 becomes 1 and event WDOG occurs. -/
def execWdogStage1 (s : State) : Out :=
  if s.domUp 1 && s.bit Reg.mgtWdog 63 && !s.bit Reg.mgtWdog 62 then .next ((s.setFld Reg.mgtWdog 62 62 1).event 0)
  else .next s

end Sys2Proof.Machine
end

