-- ==== Sys2Proof/Machine/Encoding.lean ====
section
/-! DEFINITION. The 64-bit words of Ikid (R264, R270 to R273, R287, R290 to R319): where each field stands, which operand
numbers a class accepts, and the instruction that a word spells, none for an undefined encoding. -/

namespace Sys2Proof.Machine.Ikid
open Sys2Proof Sys2Proof.Machine

/-! ### Fields (R270, R271, R290) -/

def maj (h : Word) : Nat := bits 63 56 h
def min_ (h : Word) : Nat := bits 55 52 h
/-- FD, [47:42]. -/
def fd (h : Word) : Nat := bits 47 42 h
/-- FA or D1, [41:36]. -/
def fa (h : Word) : Nat := bits 41 36 h
/-- FB or D2, [35:30]. -/
def fb (h : Word) : Nat := bits 35 30 h
/-- FC or D3, [29:24]. -/
def fc (h : Word) : Nat := bits 29 24 h
/-- D4, [23:18]. -/
def d4 (h : Word) : Nat := bits 23 18 h
/-- OPT, [17:0]. -/
def opt (h : Word) : Opt := BitVec.ofNat 18 (bits 17 0 h)
/-- IMM, [31:0]. -/
def imm (h : Word) : Imm := BitVec.ofNat 32 (bits 31 0 h)

/-- Whether an issue carries the predicate field of its word (R270). -/
def carries (w : Issue) (h : Word) : Bool := w.neg == h.getLsbD 51 && w.ps == BitVec.ofNat 3 (bits 50 48 h)

/-! ### Operand numbers by class (R266, R273) -/

def sreg (n : Nat) : Option SReg := if n < 32 then some (BitVec.ofNat 5 n) else none
def areg (n : Nat) : Option AReg := if 32 ≤ n ∧ n < 48 then some (BitVec.ofNat 4 (n - 32)) else none
def preg (n : Nat) : Option PReg := if 48 ≤ n ∧ n < 56 then some (BitVec.ofNat 3 (n - 48)) else none
def xreg (n : Nat) : Option XReg :=
  if n < 32 then some (.s (BitVec.ofNat 5 n)) else if n < 48 then some (.a (BitVec.ofNat 4 (n - 32)))
  else if n < 56 then some (.p (BitVec.ofNat 3 (n - 48))) else none
def slot (n : Nat) : Slot := BitVec.ofNat 6 n

/-- Format R with fields FD, FA, FB and nothing in FC and RSVD. -/
def rrr {α β γ : Type} (h : Word) (x : Nat → Option α) (y : Nat → Option β) (z : Nat → Option γ) (f : α → β → γ → Instr) :
    Option Instr :=
  if bits 29 0 h ≠ 0 then none else (x (fd h)).bind fun a => (y (fa h)).bind fun b => (z (fb h)).map fun c => f a b c

/-- Format R with fields FD and FA alone. -/
def rr {α β : Type} (h : Word) (x : Nat → Option α) (y : Nat → Option β) (f : α → β → Instr) : Option Instr :=
  if bits 35 0 h ≠ 0 then none else (x (fd h)).bind fun a => (y (fa h)).map fun b => f a b

/-- Formats I and B with fields FD, FA and IMM. -/
def rri {α β : Type} (h : Word) (x : Nat → Option α) (y : Nat → Option β) (f : α → β → Imm → Instr) : Option Instr :=
  if bits 35 32 h ≠ 0 then none else (x (fd h)).bind fun a => (y (fa h)).map fun b => f a b (imm h)

/-- Formats I and B with fields FD and IMM alone. -/
def ri {α : Type} (h : Word) (x : Nat → Option α) (f : α → Imm → Instr) : Option Instr :=
  if bits 41 32 h ≠ 0 then none else (x (fd h)).map fun a => f a (imm h)

/-- A word whose bits [47:0] are all 0. -/
def bare (h : Word) (i : Instr) : Option Instr := if bits 47 0 h = 0 then some i else none

/-! ### Scalar instructions (R287) -/

/-- MAJ 0x10: the operation by MIN. -/
def alu (w : Issue) (m : Nat) : SReg → SReg → SReg → Instr :=
  match m with
  | 0 => .add w | 1 => .sub w | 2 => .and w | 3 => .or w | 4 => .xor w | 5 => .sll w | 6 => .srl w | 7 => .sra w
  | 8 => .mul w | 9 => .mulhu w | 10 => .divu w | 11 => .remu w | 12 => .div w | 13 => .rem w | 14 => .min w | _ => .max w

/-- MAJ 0x11: the operation by MIN. -/
def aluImm (w : Issue) (m : Nat) : SReg → SReg → Imm → Instr :=
  match m with
  | 0 => .addi w | 1 => .subi w | 2 => .andi w | 3 => .ori w | 4 => .xori w | 5 => .slli w | 6 => .srli w | 7 => .srai w
  | 8 => .muli w | 9 => .mulhui w | 10 => .divui w | 11 => .remui w | 12 => .divi w | 13 => .remi w | 14 => .mini w
  | _ => .maxi w

/-- MAJ 0x12: the comparison by MIN. -/
def cmp (w : Issue) (m : Nat) : Option (PReg → SReg → SReg → Instr) :=
  match m with
  | 0 => some (.ceq w) | 1 => some (.cne w) | 2 => some (.clt w) | 3 => some (.cltu w) | 4 => some (.cge w)
  | 5 => some (.cgeu w) | _ => none

/-- MAJ 0x13: the comparison by MIN. -/
def cmpImm (w : Issue) (m : Nat) : Option (PReg → SReg → Imm → Instr) :=
  match m with
  | 0 => some (.ceqi w) | 1 => some (.cnei w) | 2 => some (.clti w) | 3 => some (.cltui w) | 4 => some (.cgei w)
  | 5 => some (.cgeui w) | _ => none

/-- MAJ 0x15, MIN 0x3: SEL, whose FC is a predicate register. -/
def sel (w : Issue) (h : Word) : Option Instr :=
  if bits 23 0 h ≠ 0 then none else
  (sreg (fd h)).bind fun a => (sreg (fa h)).bind fun b => (sreg (fb h)).bind fun c => (preg (fc h)).map fun p => .sel w a b c p

/-- A WAIT or HTST: IMM[31:5] is 0. -/
def handle {α : Type} (h : Word) (x : Nat → Option α) (f : α → BitVec 5 → Instr) : Option Instr :=
  if bits 31 5 h ≠ 0 then none else ri h x fun a i => f a (i.setWidth 5)

/-- The scalar, address, branch, memory, handle and system instructions, MAJ 0x01 to 0x3F. -/
def scalar (w : Issue) (h : Word) : Option Instr :=
  match maj h, min_ h with
  | 0x01, 0x0 => bare h (.nop w)
  | 0x01, 0x1 => bare h (.endProg w)
  | 0x10, m => rrr h sreg sreg sreg (alu w m)
  | 0x11, m => rri h sreg sreg (aluImm w m)
  | 0x12, m => (cmp w m).bind fun f => rrr h preg sreg sreg f
  | 0x13, m => (cmpImm w m).bind fun f => rri h preg sreg f
  | 0x14, 0x0 => rrr h preg preg preg (.pand w)
  | 0x14, 0x1 => rrr h preg preg preg (.por w)
  | 0x14, 0x2 => rrr h preg preg preg (.pxor w)
  | 0x14, 0x3 => rr h preg preg (.pnot w)
  | 0x15, 0x0 => rr h xreg xreg (.mov w)
  | 0x15, 0x1 => ri h xreg (.li w)
  | 0x15, 0x2 => if fd h < 48 then ri h xreg (.lih w) else none
  | 0x15, 0x3 => sel w h
  | 0x18, 0x0 => rri h areg areg (.aadd w)
  | 0x18, 0x1 => rrr h areg areg sreg (.aidx w)
  | 0x18, 0x2 => rri h areg sreg (.ascl w)
  | 0x20, 0x0 => rri h sreg areg (.ldw w)
  | 0x20, 0x1 => rri h sreg areg (.ldws w)
  | 0x20, 0x2 => rri h sreg areg (.ldd w)
  | 0x20, 0x4 => rri h sreg areg (.stw w)
  | 0x20, 0x5 => rri h sreg areg (.std w)
  | 0x21, 0x0 => rri h sreg areg (.glw w)
  | 0x21, 0x2 => rri h sreg areg (.gld w)
  | 0x21, 0x4 => rri h sreg areg (.gstw w)
  | 0x21, 0x5 => rri h sreg areg (.gst w)
  | 0x30, 0x0 => if bits 47 32 h = 0 then some (.br w (imm h)) else none
  | 0x30, 0x1 => ri h sreg (.brl w)
  | 0x30, 0x2 => if fd h = 0 ∧ bits 35 0 h = 0 then (sreg (fa h)).map (.jr w) else none
  | 0x30, 0x3 => ri h sreg (.bdec w)
  | 0x38, 0x0 => handle h sreg (.wait w)
  | 0x38, 0x1 => ri h sreg (.waitm w)
  | 0x38, 0x2 => handle h preg (.htst w)
  | 0x38, 0x3 => ri h preg (.htstm w)
  | 0x3C, 0x0 => ri h sreg (.sysr w)
  | _, _ => none

/-! ### Tensor and control instructions (R290 to R319) -/

/-- Whether the fields that a mask of bits [47:0] names are 0. -/
def unused (h m : Word) : Bool := h &&& m == 0

/-- D2 and what follows it but OPT; D3 and D4; D4. -/
def noD2 : Word := 0x0000_000F_FFFC_0000
def noD3 : Word := 0x0000_0000_3FFC_0000
def noD4 : Word := 0x0000_0000_00FC_0000

/-- FD, when the fields of a mask are 0. -/
def tensor (h m : Word) (f : SReg → Option Instr) : Option Instr := if unused h m then (sreg (fd h)).bind f else none

/-- The tensor instructions, MAJ 0x40 to 0x7F. Their OPT fields are checked where each is issued (R292). -/
def tensorWord (w : Issue) (h : Word) : Option Instr :=
  let d1 := slot (fa h)
  let d2 := slot (fb h)
  let d3 := slot (fc h)
  let d4s := slot (d4 h)
  let o := opt h
  let r4 := sreg (d4 h)
  match maj h, min_ h with
  | 0x40, 0x0 => tensor h noD2 fun f => some (.lds w f d1 o)
  | 0x40, 0x1 => tensor h 0 fun f => some (.mma w f d1 d2 d3 d4s o)
  | 0x40, 0x2 => tensor h 0 fun f => some (.mmat w f d1 d2 d3 d4s o)
  | 0x40, 0x3 => tensor h 0 fun f => some (.wgr w f d1 d2 d3 d4s o)
  | 0x44, 0x0 => tensor h noD3 fun f => some (.cvt w f d1 d2 o)
  | 0x44, 0x1 => if ob o 17 3 ≠ 0 ∨ !unused h 0x0000_000F_FF00_0000 then none else
      (sreg (fd h)).bind fun f => r4.map fun r =>
        if obit o 2 then .sclWrite w f d1 r (BitVec.ofNat 2 (ob o 1 0)) else .sclRead w f d1 r (BitVec.ofNat 2 (ob o 1 0))
  | 0x48, 0x0 => tensor h noD4 fun f => some (.gth w f d1 d2 d3 o)
  | 0x48, 0x1 => tensor h noD4 fun f => some (.sct w f d1 d2 d3 o)
  | 0x48, 0x2 => tensor h noD4 fun f => some (.sca w f d1 d2 d3 o)
  | 0x48, 0x3 => if ob o 17 1 ≠ 0 then none else
      (sreg (fd h)).bind fun f => r4.map fun r =>
        if obit o 0 then .mrgBitmap w f d1 d2 d3 r else .mrgMerge w f d1 d2 d3 r
  | 0x48, 0x4 => tensor h 0 fun f => some (.topk w f d1 d2 d3 d4s o)
  | 0x48, 0x5 => tensor h noD4 fun f => some (.seg w f d1 d2 d3 o)
  | 0x48, 0x6 => tensor h noD3 fun f => some (.cmp w f d1 d2 o)
  | 0x48, 0x7 => tensor h 0x0000_0000_3F00_0000 fun f => r4.map fun r => .prn w f d1 d2 r o
  | 0x48, 0x8 => tensor h 0 fun f => some (.bat w f d1 d2 d3 d4s o)
  | 0x50, 0x0 => if ob o 2 0 ≠ 0 then none else
      (sreg (fd h)).bind fun f => r4.bind fun r =>
        let n := BitVec.ofNat 8 (ob o 15 8)
        match ob o 17 16 with
        | 0 => some (.xfrProg w f d1 d2 d3 r n (BitVec.ofNat 4 (ob o 7 4)) (obit o 3))
        | 1 => if ob o 7 3 = 0 then some (.xfrPack w f d1 d2 d3 r n) else none
        | 2 => if ob o 7 3 = 0 then some (.xfrUnpack w f d1 d2 d3 r n) else none
        | _ => if ob o 7 3 = 0 ∧ fc h = 0 then some (.xfrRope w f d1 d2 r n) else none
  | 0x50, 0x1 => if o = 0 then tensor h noD2 fun f => (areg (fa h)).map (.rop w f) else none
  | 0x58, 0x0 => tensor h noD3 fun f => (areg (fa h)).bind fun a => (sreg (fb h)).map fun r => .barArrive w f a r o
  | 0x58, 0x1 => if fd h = 0 ∧ unused h noD3 ∧ o = 0 then (areg (fa h)).bind fun a => (sreg (fb h)).map (.barWait w a) else none
  | 0x58, 0x2 => bare h (.fnc w)
  | 0x5C, 0x0 => if o = 0 then tensor h noD3 fun f => (areg (fb h)).map (.dscMake w f d1) else none
  | 0x5C, 0x1 => if fd h = 0 ∧ unused h noD3 ∧ o = 0 then (areg (fb h)).map (.dscLd w d1) else none
  | 0x5C, 0x2 => if fd h = 0 ∧ unused h noD3 ∧ o = 0 then (areg (fb h)).map (.dscSt w d1) else none
  | 0x5C, 0x3 => if fd h = 0 ∧ unused h noD3 ∧ o = 0 then (areg (fb h)).map (.dscBase w d1) else none
  | 0x60, 0x0 => if ob o 17 4 = 0 then tensor h noD2 fun f => (areg (fa h)).map fun a => .poolTake w f a (o.setWidth 4)
      else none
  | 0x60, 0x1 => if ob o 17 4 = 0 then tensor h noD2 fun f => (areg (fa h)).map fun a => .poolPut w f a (o.setWidth 4)
      else none
  | _, _ => none

/-- The control instructions, MAJ 0x80 to 0x9F. The word of CAIRN is one whether its block sets RESTORE or not (R445, R449). -/
def control (w : Issue) (h : Word) : Option Instr :=
  let o := opt h
  match maj h, min_ h with
  | 0x80, 0x0 => tensor h noD2 fun f => (areg (fa h)).map fun a => .upd w f a o
  | 0x81, 0x0 => if o = 0 then tensor h noD2 fun f => (areg (fa h)).map (.cairn w f) else none
  | 0x82, 0x0 => if bits 41 0 h = 0 then (sreg (fd h)).map (.commit w) else none
  | 0x82, 0x1 => if fd h = 0 ∧ bits 35 0 h = 0 then (sreg (fa h)).map (.fenceCfg w) else none
  | 0x83, 0x0 => rri h sreg sreg (.loopStep w)
  | 0x84, 0x0 => if o = 0 then tensor h noD2 fun f => (areg (fa h)).map (.run w f) else none
  | _, _ => none

/-- The instruction that a word spells, none for an undefined encoding: the division of the major opcodes is R264's, with
MAJ 0x00 and 0xA0 to 0xFF never assigned. A word of the control profile decodes on a core too, where it faults with cause
0x81 (R294). -/
def decode (w : Issue) (h : Word) : Option Instr :=
  if maj h = 0 then none
  else if maj h < 0x40 then scalar w h
  else if maj h < 0x80 then tensorWord w h
  else if maj h < 0xA0 then control w h
  else none

end Sys2Proof.Machine.Ikid
end

