-- ==== Sys2Proof/Machine/Scalar.lean ====
section
/-! DEFINITION. The scalar, compare, predicate, move, address, branch, handle and system instructions of Ikid (R274
to R288): each is issued under its predicate, and its operation is that of the tables of R287. -/

namespace Sys2Proof.Machine
open Sys2Proof

/-! ### Arithmetic (R285) -/

/-- Shifts use bits [5:0] of the amount (R285). -/
def shamt (b : Word) : Nat := b.toNat % 64

/-- High 64 bits of the unsigned product (R287). -/
def mulHigh (a b : Word) : Word := BitVec.ofNat 64 (a.toNat * b.toNat / 2 ^ 64)

/-- Unsigned quotient; all ones for a divisor of 0 (R285). -/
def divU (a b : Word) : Word := if b = 0 then BitVec.allOnes 64 else BitVec.ofNat 64 (a.toNat / b.toNat)

/-- Unsigned remainder; the dividend for a divisor of 0 (R285). -/
def remU (a b : Word) : Word := if b = 0 then a else BitVec.ofNat 64 (a.toNat % b.toNat)

/-- Signed quotient rounded toward 0; -1 for a divisor of 0, and -2^63 / -1 wraps to -2^63 (R285). -/
def divS (a b : Word) : Word := if b = 0 then BitVec.allOnes 64 else BitVec.ofInt 64 (a.toInt.tdiv b.toInt)

/-- Signed remainder with the sign of the dividend; the dividend for a divisor of 0 (R285). -/
def remS (a b : Word) : Word := if b = 0 then a else BitVec.ofInt 64 (a.toInt.tmod b.toInt)

/-- Signed minimum and maximum (R287). -/
def minS (a b : Word) : Word := if b.slt a then b else a
def maxS (a b : Word) : Word := if a.slt b then b else a

/-! ### Shapes -/

/-- Format R with classes S, S, S: rd := f ra rb. -/
def aluR (f : Word → Word → Word) (w : Issue) (rd ra rb : SReg) (s : State) : Out :=
  issue w s fun s => (s.onSeq w.u fun q => q.setS rd (f (q.getS ra) (q.getS rb))).adv w.u

/-- Format I with classes S, S: rd := f ra imm, with IMM sign-extended (R272). -/
def aluI (f : Word → Word → Word) (w : Issue) (rd ra : SReg) (imm : Imm) (s : State) : Out :=
  issue w s fun s => (s.onSeq w.u fun q => q.setS rd (f (q.getS ra) (sx imm))).adv w.u

/-- Format R with classes P, S, S: pd := f ra rb. -/
def cmpR (f : Word → Word → Bool) (w : Issue) (pd : PReg) (ra rb : SReg) (s : State) : Out :=
  issue w s fun s => (s.onSeq w.u fun q => q.setP pd (f (q.getS ra) (q.getS rb))).adv w.u

/-- Format I with classes P, S: pd := f ra imm. -/
def cmpI (f : Word → Word → Bool) (w : Issue) (pd : PReg) (ra : SReg) (imm : Imm) (s : State) : Out :=
  issue w s fun s => (s.onSeq w.u fun q => q.setP pd (f (q.getS ra) (sx imm))).adv w.u

/-- Format R with classes P, P, P. -/
def prdR (f : Bool → Bool → Bool) (w : Issue) (pd pa pb : PReg) (s : State) : Out :=
  issue w s fun s => (s.onSeq w.u fun q => q.setP pd (f (q.getP pa) (q.getP pb))).adv w.u

/-! ### Integer instructions -/

/-- ADD (R285, R287). -/
def execAdd (w : Issue) (rd ra rb : SReg) (s : State) : Out := aluR (fun a b => a + b) w rd ra rb s

/-- SUB (R285, R287). -/
def execSub (w : Issue) (rd ra rb : SReg) (s : State) : Out := aluR (fun a b => a - b) w rd ra rb s

/-- AND (R285, R287). -/
def execAnd (w : Issue) (rd ra rb : SReg) (s : State) : Out := aluR (fun a b => a &&& b) w rd ra rb s

/-- OR (R285, R287). -/
def execOr (w : Issue) (rd ra rb : SReg) (s : State) : Out := aluR (fun a b => a ||| b) w rd ra rb s

/-- XOR (R285, R287). -/
def execXor (w : Issue) (rd ra rb : SReg) (s : State) : Out := aluR (fun a b => a ^^^ b) w rd ra rb s

/-- SLL (R285, R287). -/
def execSll (w : Issue) (rd ra rb : SReg) (s : State) : Out := aluR (fun a b => a <<< shamt b) w rd ra rb s

/-- SRL (R285, R287). -/
def execSrl (w : Issue) (rd ra rb : SReg) (s : State) : Out := aluR (fun a b => a >>> shamt b) w rd ra rb s

/-- SRA (R285, R287). -/
def execSra (w : Issue) (rd ra rb : SReg) (s : State) : Out := aluR (fun a b => a.sshiftRight (shamt b)) w rd ra rb s

/-- MUL (R285, R287). -/
def execMul (w : Issue) (rd ra rb : SReg) (s : State) : Out := aluR (fun a b => a * b) w rd ra rb s

/-- MULHU (R285, R287). -/
def execMulhu (w : Issue) (rd ra rb : SReg) (s : State) : Out := aluR mulHigh w rd ra rb s

/-- DIVU (R285, R287). -/
def execDivu (w : Issue) (rd ra rb : SReg) (s : State) : Out := aluR divU w rd ra rb s

/-- REMU (R285, R287). -/
def execRemu (w : Issue) (rd ra rb : SReg) (s : State) : Out := aluR remU w rd ra rb s

/-- DIV (R285, R287). -/
def execDiv (w : Issue) (rd ra rb : SReg) (s : State) : Out := aluR divS w rd ra rb s

/-- REM (R285, R287). -/
def execRem (w : Issue) (rd ra rb : SReg) (s : State) : Out := aluR remS w rd ra rb s

/-- MIN (R285, R287). -/
def execMin (w : Issue) (rd ra rb : SReg) (s : State) : Out := aluR minS w rd ra rb s

/-- MAX (R285, R287). -/
def execMax (w : Issue) (rd ra rb : SReg) (s : State) : Out := aluR maxS w rd ra rb s

/-- ADDI (R272, R285, R287). -/
def execAddi (w : Issue) (rd ra : SReg) (imm : Imm) (s : State) : Out := aluI (fun a b => a + b) w rd ra imm s

/-- SUBI (R272, R285, R287). -/
def execSubi (w : Issue) (rd ra : SReg) (imm : Imm) (s : State) : Out := aluI (fun a b => a - b) w rd ra imm s

/-- ANDI (R272, R285, R287). -/
def execAndi (w : Issue) (rd ra : SReg) (imm : Imm) (s : State) : Out := aluI (fun a b => a &&& b) w rd ra imm s

/-- ORI (R272, R285, R287). -/
def execOri (w : Issue) (rd ra : SReg) (imm : Imm) (s : State) : Out := aluI (fun a b => a ||| b) w rd ra imm s

/-- XORI (R272, R285, R287). -/
def execXori (w : Issue) (rd ra : SReg) (imm : Imm) (s : State) : Out := aluI (fun a b => a ^^^ b) w rd ra imm s

/-- SLLI (R272, R285, R287). -/
def execSlli (w : Issue) (rd ra : SReg) (imm : Imm) (s : State) : Out := aluI (fun a b => a <<< shamt b) w rd ra imm s

/-- SRLI (R272, R285, R287). -/
def execSrli (w : Issue) (rd ra : SReg) (imm : Imm) (s : State) : Out := aluI (fun a b => a >>> shamt b) w rd ra imm s

/-- SRAI (R272, R285, R287). -/
def execSrai (w : Issue) (rd ra : SReg) (imm : Imm) (s : State) : Out := aluI (fun a b => a.sshiftRight (shamt b)) w rd ra imm s

/-- MULI (R272, R285, R287). -/
def execMuli (w : Issue) (rd ra : SReg) (imm : Imm) (s : State) : Out := aluI (fun a b => a * b) w rd ra imm s

/-- MULHUI (R272, R285, R287). -/
def execMulhui (w : Issue) (rd ra : SReg) (imm : Imm) (s : State) : Out := aluI mulHigh w rd ra imm s

/-- DIVUI (R272, R285, R287). -/
def execDivui (w : Issue) (rd ra : SReg) (imm : Imm) (s : State) : Out := aluI divU w rd ra imm s

/-- REMUI (R272, R285, R287). -/
def execRemui (w : Issue) (rd ra : SReg) (imm : Imm) (s : State) : Out := aluI remU w rd ra imm s

/-- DIVI (R272, R285, R287). -/
def execDivi (w : Issue) (rd ra : SReg) (imm : Imm) (s : State) : Out := aluI divS w rd ra imm s

/-- REMI (R272, R285, R287). -/
def execRemi (w : Issue) (rd ra : SReg) (imm : Imm) (s : State) : Out := aluI remS w rd ra imm s

/-- MINI (R272, R285, R287). -/
def execMini (w : Issue) (rd ra : SReg) (imm : Imm) (s : State) : Out := aluI minS w rd ra imm s

/-- MAXI (R272, R285, R287). -/
def execMaxi (w : Issue) (rd ra : SReg) (imm : Imm) (s : State) : Out := aluI maxS w rd ra imm s

/-! ### Compare, predicate and move instructions -/

/-- CEQ (R287). -/
def execCeq (w : Issue) (pd : PReg) (ra rb : SReg) (s : State) : Out := cmpR (fun a b => a == b) w pd ra rb s

/-- CNE (R287). -/
def execCne (w : Issue) (pd : PReg) (ra rb : SReg) (s : State) : Out := cmpR (fun a b => a != b) w pd ra rb s

/-- CLT (R287). -/
def execClt (w : Issue) (pd : PReg) (ra rb : SReg) (s : State) : Out := cmpR (fun a b => a.slt b) w pd ra rb s

/-- CLTU (R287). -/
def execCltu (w : Issue) (pd : PReg) (ra rb : SReg) (s : State) : Out := cmpR (fun a b => a.ult b) w pd ra rb s

/-- CGE (R287). -/
def execCge (w : Issue) (pd : PReg) (ra rb : SReg) (s : State) : Out := cmpR (fun a b => !(a.slt b)) w pd ra rb s

/-- CGEU (R287). -/
def execCgeu (w : Issue) (pd : PReg) (ra rb : SReg) (s : State) : Out := cmpR (fun a b => !(a.ult b)) w pd ra rb s

/-- CEQI (R272, R287). -/
def execCeqi (w : Issue) (pd : PReg) (ra : SReg) (imm : Imm) (s : State) : Out := cmpI (fun a b => a == b) w pd ra imm s

/-- CNEI (R272, R287). -/
def execCnei (w : Issue) (pd : PReg) (ra : SReg) (imm : Imm) (s : State) : Out := cmpI (fun a b => a != b) w pd ra imm s

/-- CLTI (R272, R287). -/
def execClti (w : Issue) (pd : PReg) (ra : SReg) (imm : Imm) (s : State) : Out := cmpI (fun a b => a.slt b) w pd ra imm s

/-- CLTUI (R272, R287). -/
def execCltui (w : Issue) (pd : PReg) (ra : SReg) (imm : Imm) (s : State) : Out := cmpI (fun a b => a.ult b) w pd ra imm s

/-- CGEI (R272, R287). -/
def execCgei (w : Issue) (pd : PReg) (ra : SReg) (imm : Imm) (s : State) : Out := cmpI (fun a b => !(a.slt b)) w pd ra imm s

/-- CGEUI (R272, R287). -/
def execCgeui (w : Issue) (pd : PReg) (ra : SReg) (imm : Imm) (s : State) : Out := cmpI (fun a b => !(a.ult b)) w pd ra imm s

/-- PAND (R287). -/
def execPand (w : Issue) (pd pa pb : PReg) (s : State) : Out := prdR (fun a b => a && b) w pd pa pb s

/-- POR (R287). -/
def execPor (w : Issue) (pd pa pb : PReg) (s : State) : Out := prdR (fun a b => a || b) w pd pa pb s

/-- PXOR (R287). -/
def execPxor (w : Issue) (pd pa pb : PReg) (s : State) : Out := prdR (fun a b => xor a b) w pd pa pb s

/-- PNOT (R287). -/
def execPnot (w : Issue) (pd pa : PReg) (s : State) : Out :=
  issue w s fun s => (s.onSeq w.u fun q => q.setP pd (!q.getP pa)).adv w.u

/-- MOV across the s, a and p classes under the width rules of R266 (R287). -/
def execMov (w : Issue) (rd ra : XReg) (s : State) : Out :=
  issue w s fun s => (s.onSeq w.u fun q => q.setX rd (q.getX ra)).adv w.u

/-- LI: the sign-extended immediate into a register of any class (R272, R287). -/
def execLi (w : Issue) (rd : XReg) (imm : Imm) (s : State) : Out :=
  issue w s fun s => (s.onSeq w.u fun q => q.setX rd (sx imm)).adv w.u

/-- LIH: the immediate into bits [63:32], the lower bits kept; class P is an undefined encoding (R273, R287). -/
def execLih (w : Issue) (rd : XReg) (imm : Imm) (s : State) : Out :=
  issue w s fun s =>
    match rd with
    | .p _ => s.seqFault w.u .desc 0x80 0
    | r => (s.onSeq w.u fun q => q.setX r (imm ++ (q.getX r).setWidth 32)).adv w.u

/-- SEL: rd := pc ? ra : rb (R287). -/
def execSel (w : Issue) (rd ra rb : SReg) (pc : PReg) (s : State) : Out :=
  issue w s fun s => (s.onSeq w.u fun q => q.setS rd (if q.getP pc then q.getS ra else q.getS rb)).adv w.u

/-! ### Address instructions, modulo 2^48 -/

/-- AADD (R287). -/
def execAadd (w : Issue) (ad aa : AReg) (imm : Imm) (s : State) : Out :=
  issue w s fun s => (s.onSeq w.u fun q => q.setA ad (q.getA aa + imm.signExtend 48)).adv w.u

/-- AIDX (R287). -/
def execAidx (w : Issue) (ad aa : AReg) (rb : SReg) (s : State) : Out :=
  issue w s fun s => (s.onSeq w.u fun q => q.setA ad (q.getA aa + (q.getS rb).setWidth 48)).adv w.u

/-- ASCL: ra times the zero-extended immediate (R272, R287). -/
def execAscl (w : Issue) (ad : AReg) (ra : SReg) (imm : Imm) (s : State) : Out :=
  issue w s fun s => (s.onSeq w.u fun q => q.setA ad ((q.getS ra * zx imm).setWidth 48)).adv w.u

/-! ### Branches: offsets count from the branch itself (R287) -/

/-- The target of a format B branch. -/
def brTarget (s : State) (u : SeqId) (imm : Imm) : Int := ((s.seq u).pc : Int) + imm.toInt

/-- BR (R287). -/
def execBr (w : Issue) (imm : Imm) (s : State) : Out :=
  issue w s fun s => s.jump w.u (brTarget s w.u imm) id

/-- BRL: rd receives the return index (R287). -/
def execBrl (w : Issue) (rd : SReg) (imm : Imm) (s : State) : Out :=
  issue w s fun s => s.jump w.u (brTarget s w.u imm) fun q => q.setS rd (BitVec.ofNat 64 (q.pc + 1))

/-- JR (R287). -/
def execJr (w : Issue) (ra : SReg) (s : State) : Out :=
  issue w s fun s => s.jump w.u (((s.seq w.u).getS ra).toNat : Int) id

/-- BDEC: rd := rd - 1, and the branch is taken while rd is not 0 (R287). s0 keeps reading 0 (R266). -/
def execBdec (w : Issue) (rd : SReg) (imm : Imm) (s : State) : Out :=
  issue w s fun s =>
    let f (q : Seq) : Seq := q.setS rd (q.getS rd - 1)
    if (f (s.seq w.u)).getS rd ≠ 0 then s.jump w.u (brTarget s w.u imm) f else (s.onSeq w.u f).adv w.u

/-! ### Handles (R278) -/

/-- The code of a DONE handle. -/
def doneCode : Handle → Option Code
  | .done c => some c
  | _ => none

/-- WAIT: 0xFF for a FREE handle; otherwise the code of the handle once it is DONE, which frees it (R278). -/
def execWait (w : Issue) (rd : SReg) (h : BitVec 5) (s : State) : Out :=
  issueWhen w (fun s => !Seq.isBusy ((s.seq w.u).getH h.toNat)) (fun s => s.park w.u) s fun s =>
    (s.onSeq w.u fun q =>
      match q.getH h.toNat with
      | .done c => (q.setS rd (BitVec.ofNat 64 c.toNat)).setH h.toNat .free
      | _ => q.setS rd 0xFF).adv w.u

/-- Whether no handle of a mask is BUSY. -/
def noneBusy (q : Seq) (m : Nat) : Bool := (List.range 32).all fun i => !(m.testBit i && Seq.isBusy (q.getH i))

/-- The code of highest rank among the DONE handles of a mask, in ascending handle number (R278). -/
def maskCode (q : Seq) (m : Nat) : Code :=
  (List.range 32).foldl (fun r i => if m.testBit i then r.max ((doneCode (q.getH i)).getD .ok) else r) .ok

/-- Free the DONE handles of a mask. -/
def freeMask (q : Seq) (m : Nat) : Seq :=
  (List.range 32).foldl (fun q i => if m.testBit i && Seq.isDone (q.getH i) then q.setH i .free else q) q

/-- WAITM (R278). -/
def execWaitm (w : Issue) (rd : SReg) (m : Imm) (s : State) : Out :=
  issueWhen w (fun s => noneBusy (s.seq w.u) m.toNat) (fun s => s.park w.u) s fun s =>
    (s.onSeq w.u fun q =>
      (freeMask q m.toNat).setS rd (BitVec.ofNat 64 (maskCode q m.toNat).toNat)).adv w.u

/-- HTST (R278). -/
def execHtst (w : Issue) (pd : PReg) (h : BitVec 5) (s : State) : Out :=
  issue w s fun s => (s.onSeq w.u fun q => q.setP pd (!Seq.isBusy (q.getH h.toNat))).adv w.u

/-- HTSTM (R278). -/
def execHtstm (w : Issue) (pd : PReg) (m : Imm) (s : State) : Out :=
  issue w s fun s => (s.onSeq w.u fun q => q.setP pd (noneBusy q m.toNat)).adv w.u

/-! ### System instructions -/

/-- NOP (R287). -/
def execNop (w : Issue) (s : State) : Out := issue w s fun s => s.adv w.u

/-- END: no further instruction issues; once no handle is BUSY every handle is freed and the program ends with the
code of highest rank of its instructions (R287). -/
def execEndProg (w : Issue) (s : State) : Out := issue w s fun s => s.beginEnd w.u none

/-- The system registers (R288); none where the number is undefined. -/
def sysReg (s : State) (u : SeqId) (n : Nat) : Option Word :=
  let q := s.seq u
  match n with
  | 0 => some (BitVec.ofNat 64 u.num)
  | 1 => some (if u.isCp then 0x0100_0001 else 0x0100_0000)
  | 2 => some q.stepNow
  | 3 => some ((SMap.get 0 s.unitEpoch u.epochUnit).zeroExtend 64)
  | 4 => some (match u with | .core c => s.arrayWidth c.val | .cp _ => 0)
  | 5 => some (BitVec.ofNat 64 (q.mask Seq.isDone <<< 32 + q.mask Seq.isBusy))
  | 6 => some (BitVec.ofNat 64 s.devId)
  | 7 => some (BitVec.ofNat 64 (match u with | .core c => grottoOf c.val | .cp _ => 0xFFFF))
  | _ => none

/-- SYSR; an undefined number faults with cause 0x85 (R284, R288). -/
def execSysr (w : Issue) (rd : SReg) (n : Imm) (s : State) : Out :=
  issue w s fun s =>
    match sysReg s w.u n.toNat with
    | some v => (s.onSeq w.u fun q => q.setS rd v).adv w.u
    | none => s.seqFault w.u .desc 0x85 0

/-- UNDEFINED_ENCODING: the unit issues a word that spells no instruction (an unassigned opcode, an operand number outside
its class, a non-zero RSVD bit or unused field, the word of all zeros) and faults with cause 0x80 (R273, R284). A word that
spells one is no undefined encoding: its own command issues it. -/
def execUndefinedEncoding (w : Issue) (h : Word) (s : State) : Out :=
  if (Ikid.decode w h).isSome then .next s else issue w s fun s => s.seqFault w.u .desc 0x80 0

end Sys2Proof.Machine
end

