-- ==== Sys2Proof/Machine/Dispatch.lean ====
section
/-! DEFINITION. The dispatch: one arm per command, each one direct call of the command's meaning. -/

namespace Sys2Proof.Machine
open Sys2Proof

/-- The effect of a command on everything but the queue. -/
def exec (i : Instr) (s : State) : Host.Outcome State Fault Refusal :=
  match i with
  | .add w rd ra rb => Sys2Proof.Machine.execAdd w rd ra rb s
  | .sub w rd ra rb => Sys2Proof.Machine.execSub w rd ra rb s
  | .and w rd ra rb => Sys2Proof.Machine.execAnd w rd ra rb s
  | .or w rd ra rb => Sys2Proof.Machine.execOr w rd ra rb s
  | .xor w rd ra rb => Sys2Proof.Machine.execXor w rd ra rb s
  | .sll w rd ra rb => Sys2Proof.Machine.execSll w rd ra rb s
  | .srl w rd ra rb => Sys2Proof.Machine.execSrl w rd ra rb s
  | .sra w rd ra rb => Sys2Proof.Machine.execSra w rd ra rb s
  | .mul w rd ra rb => Sys2Proof.Machine.execMul w rd ra rb s
  | .mulhu w rd ra rb => Sys2Proof.Machine.execMulhu w rd ra rb s
  | .divu w rd ra rb => Sys2Proof.Machine.execDivu w rd ra rb s
  | .remu w rd ra rb => Sys2Proof.Machine.execRemu w rd ra rb s
  | .div w rd ra rb => Sys2Proof.Machine.execDiv w rd ra rb s
  | .rem w rd ra rb => Sys2Proof.Machine.execRem w rd ra rb s
  | .min w rd ra rb => Sys2Proof.Machine.execMin w rd ra rb s
  | .max w rd ra rb => Sys2Proof.Machine.execMax w rd ra rb s
  | .addi w rd ra imm => Sys2Proof.Machine.execAddi w rd ra imm s
  | .subi w rd ra imm => Sys2Proof.Machine.execSubi w rd ra imm s
  | .andi w rd ra imm => Sys2Proof.Machine.execAndi w rd ra imm s
  | .ori w rd ra imm => Sys2Proof.Machine.execOri w rd ra imm s
  | .xori w rd ra imm => Sys2Proof.Machine.execXori w rd ra imm s
  | .slli w rd ra imm => Sys2Proof.Machine.execSlli w rd ra imm s
  | .srli w rd ra imm => Sys2Proof.Machine.execSrli w rd ra imm s
  | .srai w rd ra imm => Sys2Proof.Machine.execSrai w rd ra imm s
  | .muli w rd ra imm => Sys2Proof.Machine.execMuli w rd ra imm s
  | .mulhui w rd ra imm => Sys2Proof.Machine.execMulhui w rd ra imm s
  | .divui w rd ra imm => Sys2Proof.Machine.execDivui w rd ra imm s
  | .remui w rd ra imm => Sys2Proof.Machine.execRemui w rd ra imm s
  | .divi w rd ra imm => Sys2Proof.Machine.execDivi w rd ra imm s
  | .remi w rd ra imm => Sys2Proof.Machine.execRemi w rd ra imm s
  | .mini w rd ra imm => Sys2Proof.Machine.execMini w rd ra imm s
  | .maxi w rd ra imm => Sys2Proof.Machine.execMaxi w rd ra imm s
  | .ceq w pd ra rb => Sys2Proof.Machine.execCeq w pd ra rb s
  | .cne w pd ra rb => Sys2Proof.Machine.execCne w pd ra rb s
  | .clt w pd ra rb => Sys2Proof.Machine.execClt w pd ra rb s
  | .cltu w pd ra rb => Sys2Proof.Machine.execCltu w pd ra rb s
  | .cge w pd ra rb => Sys2Proof.Machine.execCge w pd ra rb s
  | .cgeu w pd ra rb => Sys2Proof.Machine.execCgeu w pd ra rb s
  | .ceqi w pd ra imm => Sys2Proof.Machine.execCeqi w pd ra imm s
  | .cnei w pd ra imm => Sys2Proof.Machine.execCnei w pd ra imm s
  | .clti w pd ra imm => Sys2Proof.Machine.execClti w pd ra imm s
  | .cltui w pd ra imm => Sys2Proof.Machine.execCltui w pd ra imm s
  | .cgei w pd ra imm => Sys2Proof.Machine.execCgei w pd ra imm s
  | .cgeui w pd ra imm => Sys2Proof.Machine.execCgeui w pd ra imm s
  | .pand w pd pa pb => Sys2Proof.Machine.execPand w pd pa pb s
  | .por w pd pa pb => Sys2Proof.Machine.execPor w pd pa pb s
  | .pxor w pd pa pb => Sys2Proof.Machine.execPxor w pd pa pb s
  | .pnot w pd pa => Sys2Proof.Machine.execPnot w pd pa s
  | .mov w rd ra => Sys2Proof.Machine.execMov w rd ra s
  | .li w rd imm => Sys2Proof.Machine.execLi w rd imm s
  | .lih w rd imm => Sys2Proof.Machine.execLih w rd imm s
  | .sel w rd ra rb pc => Sys2Proof.Machine.execSel w rd ra rb pc s
  | .aadd w ad aa imm => Sys2Proof.Machine.execAadd w ad aa imm s
  | .aidx w ad aa rb => Sys2Proof.Machine.execAidx w ad aa rb s
  | .ascl w ad ra imm => Sys2Proof.Machine.execAscl w ad ra imm s
  | .ldw w rd aa imm => Sys2Proof.Machine.execLdw w rd aa imm s
  | .ldws w rd aa imm => Sys2Proof.Machine.execLdws w rd aa imm s
  | .ldd w rd aa imm => Sys2Proof.Machine.execLdd w rd aa imm s
  | .stw w rd aa imm => Sys2Proof.Machine.execStw w rd aa imm s
  | .std w rd aa imm => Sys2Proof.Machine.execStd w rd aa imm s
  | .glw w rd aa imm => Sys2Proof.Machine.execGlw w rd aa imm s
  | .gld w rd aa imm => Sys2Proof.Machine.execGld w rd aa imm s
  | .gstw w rd aa imm => Sys2Proof.Machine.execGstw w rd aa imm s
  | .gst w rd aa imm => Sys2Proof.Machine.execGst w rd aa imm s
  | .br w imm => Sys2Proof.Machine.execBr w imm s
  | .brl w rd imm => Sys2Proof.Machine.execBrl w rd imm s
  | .jr w ra => Sys2Proof.Machine.execJr w ra s
  | .bdec w rd imm => Sys2Proof.Machine.execBdec w rd imm s
  | .wait w rd h => Sys2Proof.Machine.execWait w rd h s
  | .waitm w rd m => Sys2Proof.Machine.execWaitm w rd m s
  | .htst w pd h => Sys2Proof.Machine.execHtst w pd h s
  | .htstm w pd m => Sys2Proof.Machine.execHtstm w pd m s
  | .nop w => Sys2Proof.Machine.execNop w s
  | .endProg w => Sys2Proof.Machine.execEndProg w s
  | .sysr w rd n => Sys2Proof.Machine.execSysr w rd n s
  | .lds w fd d1 opt => Sys2Proof.Machine.execLds w fd d1 opt s
  | .mma w fd d1 d2 d3 d4 opt => Sys2Proof.Machine.execMma w fd d1 d2 d3 d4 opt s
  | .mmat w fd d1 d2 d3 d4 opt => Sys2Proof.Machine.execMmat w fd d1 d2 d3 d4 opt s
  | .wgr w fd d1 d2 d3 d4 opt => Sys2Proof.Machine.execWgr w fd d1 d2 d3 d4 opt s
  | .cvt w fd d1 d2 opt => Sys2Proof.Machine.execCvt w fd d1 d2 opt s
  | .sclRead w fd d1 r4 field => Sys2Proof.Machine.execSclRead w fd d1 r4 field s
  | .sclWrite w fd d1 r4 field => Sys2Proof.Machine.execSclWrite w fd d1 r4 field s
  | .gth w fd d1 d2 d3 opt => Sys2Proof.Machine.execGth w fd d1 d2 d3 opt s
  | .sct w fd d1 d2 d3 opt => Sys2Proof.Machine.execSct w fd d1 d2 d3 opt s
  | .sca w fd d1 d2 d3 opt => Sys2Proof.Machine.execSca w fd d1 d2 d3 opt s
  | .mrgMerge w fd d1 d2 d3 r4 => Sys2Proof.Machine.execMrgMerge w fd d1 d2 d3 r4 s
  | .mrgBitmap w fd d1 d2 d3 r4 => Sys2Proof.Machine.execMrgBitmap w fd d1 d2 d3 r4 s
  | .topk w fd d1 d2 d3 d4 opt => Sys2Proof.Machine.execTopk w fd d1 d2 d3 d4 opt s
  | .seg w fd d1 d2 d3 opt => Sys2Proof.Machine.execSeg w fd d1 d2 d3 opt s
  | .cmp w fd d1 d2 opt => Sys2Proof.Machine.execCmp w fd d1 d2 opt s
  | .prn w fd d1 d2 r4 opt => Sys2Proof.Machine.execPrn w fd d1 d2 r4 opt s
  | .bat w fd d1 d2 d3 d4 opt => Sys2Proof.Machine.execBat w fd d1 d2 d3 d4 opt s
  | .xfrProg w fd d1 d2 d3 r4 siph slot drv => Sys2Proof.Machine.execXfrProg w fd d1 d2 d3 r4 siph slot drv s
  | .xfrPack w fd d1 d2 d3 r4 siph => Sys2Proof.Machine.execXfrPack w fd d1 d2 d3 r4 siph s
  | .xfrUnpack w fd d1 d2 d3 r4 siph => Sys2Proof.Machine.execXfrUnpack w fd d1 d2 d3 r4 siph s
  | .xfrRope w fd d1 d2 r4 siph => Sys2Proof.Machine.execXfrRope w fd d1 d2 r4 siph s
  | .rop w fd a1 => Sys2Proof.Machine.execRop w fd a1 s
  | .barArrive w fd a1 r2 opt => Sys2Proof.Machine.execBarArrive w fd a1 r2 opt s
  | .barWait w a1 r2 => Sys2Proof.Machine.execBarWait w a1 r2 s
  | .fnc w => Sys2Proof.Machine.execFnc w s
  | .dscMake w fd d1 a2 => Sys2Proof.Machine.execDscMake w fd d1 a2 s
  | .dscLd w d1 a2 => Sys2Proof.Machine.execDscLd w d1 a2 s
  | .dscSt w d1 a2 => Sys2Proof.Machine.execDscSt w d1 a2 s
  | .dscBase w d1 a2 => Sys2Proof.Machine.execDscBase w d1 a2 s
  | .poolTake w fd a1 pool => Sys2Proof.Machine.execPoolTake w fd a1 pool s
  | .poolPut w fd a1 pool => Sys2Proof.Machine.execPoolPut w fd a1 pool s
  | .upd w fd a1 opt => Sys2Proof.Machine.execUpd w fd a1 opt s
  | .cairn w fd a1 => Sys2Proof.Machine.execCairn w fd a1 s
  | .cairnRestore w fd a1 => Sys2Proof.Machine.execCairnRestore w fd a1 s
  | .commit w fd => Sys2Proof.Machine.execCommit w fd s
  | .fenceCfg w r1 => Sys2Proof.Machine.execFenceCfg w r1 s
  | .loopStep w rd ra imm => Sys2Proof.Machine.execLoopStep w rd ra imm s
  | .run w fd a1 => Sys2Proof.Machine.execRun w fd a1 s
  | .handleDone u h => Sys2Proof.Machine.execHandleDone u h s
  | .denseStart c sa feedWait => Sys2Proof.Machine.execDenseStart c sa feedWait s
  | .stationaryLoad c sa feedWait => Sys2Proof.Machine.execStationaryLoad c sa feedWait s
  | .tileConvert c sa convWait => Sys2Proof.Machine.execTileConvert c sa convWait s
  | .tileRecompute c sa => Sys2Proof.Machine.execTileRecompute c sa s
  | .sparseStart c => Sys2Proof.Machine.execSparseStart c s
  | .chamberAccess c cls load off len wr waited found => Sys2Proof.Machine.execChamberAccess c cls load off len wr waited found s
  | .transferStart n u => Sys2Proof.Machine.execTransferStart n u s
  | .sipLoop n id => Sys2Proof.Machine.execSipLoop n id s
  | .sipAdd n id => Sys2Proof.Machine.execSipAdd n id s
  | .sipMod n id => Sys2Proof.Machine.execSipMod n id s
  | .sipRev n id => Sys2Proof.Machine.execSipRev n id s
  | .sipRot n id => Sys2Proof.Machine.execSipRot n id s
  | .sipPad n id => Sys2Proof.Machine.execSipPad n id s
  | .sipEmit n id => Sys2Proof.Machine.execSipEmit n id s
  | .sipWaitb n id => Sys2Proof.Machine.execSipWaitb n id s
  | .sipEnd n id => Sys2Proof.Machine.execSipEnd n id s
  | .transferComplete n id => Sys2Proof.Machine.execTransferComplete n id s
  | .tlbWalkDone n va => Sys2Proof.Machine.execTlbWalkDone n va s
  | .tlbInv => Sys2Proof.Machine.execTlbInv s
  | .ropeLaunch r => Sys2Proof.Machine.execRopeLaunch r s
  | .ropeTake p stall => Sys2Proof.Machine.execRopeTake p stall s
  | .ropePassReport p => Sys2Proof.Machine.execRopePassReport p s
  | .barArrivalApply u h => Sys2Proof.Machine.execBarArrivalApply u h s
  | .barNotify who => Sys2Proof.Machine.execBarNotify who s
  | .barPollRead who => Sys2Proof.Machine.execBarPollRead who s
  | .meshPacketReceive c from_ ch dst e owner => Sys2Proof.Machine.execMeshPacketReceive c from_ ch dst e owner s
  | .sqDoorbell q t => Sys2Proof.Machine.execSqDoorbell q t s
  | .commandFetch n => Sys2Proof.Machine.execCommandFetch n s
  | .commandStart q => Sys2Proof.Machine.execCommandStart q s
  | .cmdNop q idx => Sys2Proof.Machine.execCmdNop q idx s
  | .prog q idx => Sys2Proof.Machine.execProg q idx s
  | .cores q idx => Sys2Proof.Machine.execCores q idx s
  | .copy q idx => Sys2Proof.Machine.execCopy q idx s
  | .poolOpen q idx => Sys2Proof.Machine.execPoolOpen q idx s
  | .poolClose q idx => Sys2Proof.Machine.execPoolClose q idx s
  | .poolDiscard q idx => Sys2Proof.Machine.execPoolDiscard q idx s
  | .cancel q idx => Sys2Proof.Machine.execCancel q idx s
  | .commitCmd q idx => Sys2Proof.Machine.execCommitCmd q idx s
  | .completionRecordWrite cq => Sys2Proof.Machine.execCompletionRecordWrite cq s
  | .cqHeadWrite q v => Sys2Proof.Machine.execCqHeadWrite q v s
  | .sqCfgWrite q v => Sys2Proof.Machine.execSqCfgWrite q v s
  | .cqCfgWrite q v => Sys2Proof.Machine.execCqCfgWrite q v s
  | .epochSwitch u => Sys2Proof.Machine.execEpochSwitch u s
  | .updEngineStart m n => Sys2Proof.Machine.execUpdEngineStart m n s
  | .updPhase1Start m => Sys2Proof.Machine.execUpdPhase1Start m s
  | .updEngineDone m => Sys2Proof.Machine.execUpdEngineDone m s
  | .xchBlockTake r => Sys2Proof.Machine.execXchBlockTake r s
  | .xchBlockStart r => Sys2Proof.Machine.execXchBlockStart r s
  | .route r idx => Sys2Proof.Machine.execRoute r idx s
  | .dispatch r idx => Sys2Proof.Machine.execDispatch r idx s
  | .combine r idx => Sys2Proof.Machine.execCombine r idx s
  | .combineB r idx => Sys2Proof.Machine.execCombineB r idx s
  | .gatherB r idx => Sys2Proof.Machine.execGatherB r idx s
  | .routeB r idx => Sys2Proof.Machine.execRouteB r idx s
  | .xchHeaderReceive l hd => Sys2Proof.Machine.execXchHeaderReceive l hd s
  | .xchExpertPost layer half => Sys2Proof.Machine.execXchExpertPost layer half s
  | .xchAnswersSend layer half => Sys2Proof.Machine.execXchAnswersSend layer half s
  | .xchAnswerReceive l tag a => Sys2Proof.Machine.execXchAnswerReceive l tag a s
  | .xchBiasUpdate others => Sys2Proof.Machine.execXchBiasUpdate others s
  | .tagRetire tag => Sys2Proof.Machine.execTagRetire tag s
  | .retireNotice src tag => Sys2Proof.Machine.execRetireNotice src tag s
  | .retireAck dev tag => Sys2Proof.Machine.execRetireAck dev tag s
  | .wringCfgWrite r v => Sys2Proof.Machine.execWringCfgWrite r v s
  | .cringCfgWrite r v => Sys2Proof.Machine.execCringCfgWrite r v s
  | .collBlockTake r => Sys2Proof.Machine.execCollBlockTake r s
  | .allReduce r idx => Sys2Proof.Machine.execAllReduce r idx s
  | .reduceScatter r idx => Sys2Proof.Machine.execReduceScatter r idx s
  | .allGather r idx => Sys2Proof.Machine.execAllGather r idx s
  | .allToAll r idx => Sys2Proof.Machine.execAllToAll r idx s
  | .collContribution l m => Sys2Proof.Machine.execCollContribution l m s
  | .collCancelNotice coll step => Sys2Proof.Machine.execCollCancelNotice coll step s
  | .gddr7Access a wr e crc => Sys2Proof.Machine.execGddr7Access a wr e crc s
  | .retrainSlice m => Sys2Proof.Machine.execRetrainSlice m s
  | .retrainSliceEnd m => Sys2Proof.Machine.execRetrainSliceEnd m s
  | .scrubRead m e => Sys2Proof.Machine.execScrubRead m e s
  | .memClear m v => Sys2Proof.Machine.execMemClear m v s
  | .memClearDone m => Sys2Proof.Machine.execMemClearDone m s
  | .dieMarkWrite k v => Sys2Proof.Machine.execDieMarkWrite k v s
  | .hdmCommit p n v => Sys2Proof.Machine.execHdmCommit p n v s
  | .cxlCfgRequest p v => Sys2Proof.Machine.execCxlCfgRequest p v s
  | .cxlCfgComplete p r => Sys2Proof.Machine.execCxlCfgComplete p r s
  | .cxlAccess a wr bad => Sys2Proof.Machine.execCxlAccess a wr bad s
  | .cxlLinkDown p l => Sys2Proof.Machine.execCxlLinkDown p l s
  | .cxlPortCfgWrite p v => Sys2Proof.Machine.execCxlPortCfgWrite p v s
  | .linkTrained l w => Sys2Proof.Machine.execLinkTrained l w s
  | .dataFrameReceive l body w fec => Sys2Proof.Machine.execDataFrameReceive l body w fec s
  | .controlFrameReceive l ack nak => Sys2Proof.Machine.execControlFrameReceive l ack nak s
  | .linkRetrain l w => Sys2Proof.Machine.execLinkRetrain l w s
  | .helloReceive l h => Sys2Proof.Machine.execHelloReceive l h s
  | .linkLoss l => Sys2Proof.Machine.execLinkLoss l s
  | .peerReportVerify l report dev mid root other => Sys2Proof.Machine.execPeerReportVerify l report dev mid root other s
  | .quarantineReport reporter l peer reason => Sys2Proof.Machine.execQuarantineReport reporter l peer reason s
  | .linkCfgWrite l v => Sys2Proof.Machine.execLinkCfgWrite l v s
  | .linkExclude l => Sys2Proof.Machine.execLinkExclude l s
  | .linkRecheck l => Sys2Proof.Machine.execLinkRecheck l s
  | .linkRetrainRequest l => Sys2Proof.Machine.execLinkRetrainRequest l s
  | .remoteRequest l r => Sys2Proof.Machine.execRemoteRequest l r s
  | .remoteResponse tag r => Sys2Proof.Machine.execRemoteResponse tag r s
  | .gstepNotice step => Sys2Proof.Machine.execGstepNotice step s
  | .lostReport f reporter => Sys2Proof.Machine.execLostReport f reporter s
  | .rslDrop v => Sys2Proof.Machine.execRslDrop v s
  | .dropNotice f st => Sys2Proof.Machine.execDropNotice f st s
  | .holdStart v => Sys2Proof.Machine.execHoldStart v s
  | .holdRelease => Sys2Proof.Machine.execHoldRelease s
  | .holdNotice h => Sys2Proof.Machine.execHoldNotice h s
  | .holdReport d ok => Sys2Proof.Machine.execHoldReport d ok s
  | .restoreStart w confirmed => Sys2Proof.Machine.execRestoreStart w confirmed s
  | .restorePiece a dB b => Sys2Proof.Machine.execRestorePiece a dB b s
  | .rejoin f h => Sys2Proof.Machine.execRejoin f h s
  | .rejoinNotice f st => Sys2Proof.Machine.execRejoinNotice f st s
  | .cairnResume => Sys2Proof.Machine.execCairnResume s
  | .cairnDrainEnd lost => Sys2Proof.Machine.execCairnDrainEnd lost s
  | .hostWindowAccess off a => Sys2Proof.Machine.execHostWindowAccess off a s
  | .hostAccessMiss bar off n wr => Sys2Proof.Machine.execHostAccessMiss bar off n wr s
  | .hostDmaFail at_ poison => Sys2Proof.Machine.execHostDmaFail at_ poison s
  | .hostLinkUp c => Sys2Proof.Machine.execHostLinkUp c s
  | .msixUnmask v => Sys2Proof.Machine.execMsixUnmask v s
  | .doeDiscovery index => Sys2Proof.Machine.execDoeDiscovery index s
  | .doeAbort => Sys2Proof.Machine.execDoeAbort s
  | .firmwareBoot read0 read1 => Sys2Proof.Machine.execFirmwareBoot read0 read1 s
  | .rollbackAdv v => Sys2Proof.Machine.execRollbackAdv v s
  | .debugNewnonce => Sys2Proof.Machine.execDebugNewnonce s
  | .debugLock => Sys2Proof.Machine.execDebugLock s
  | .debugToken a => Sys2Proof.Machine.execDebugToken a s
  | .attest a => Sys2Proof.Machine.execAttest a s
  | .attestSigned => Sys2Proof.Machine.execAttestSigned s
  | .certs a => Sys2Proof.Machine.execCerts a s
  | .readReg v => Sys2Proof.Machine.execReadReg v s
  | .writeReg v => Sys2Proof.Machine.execWriteReg v s
  | .peek v => Sys2Proof.Machine.execPeek v s
  | .func v => Sys2Proof.Machine.execFunc v s
  | .flashWrite v => Sys2Proof.Machine.execFlashWrite v s
  | .setEndpointId eid => Sys2Proof.Machine.execSetEndpointId eid s
  | .pldmSensorRead id => Sys2Proof.Machine.execPldmSensorRead id s
  | .wdogKick v => Sys2Proof.Machine.execWdogKick v s
  | .wdogStage1 => Sys2Proof.Machine.execWdogStage1 s
  | .funcDisable v => Sys2Proof.Machine.execFuncDisable v s
  | .funcEnable v => Sys2Proof.Machine.execFuncEnable v s
  | .funcSelfTest v => Sys2Proof.Machine.execFuncSelfTest v s
  | .funcRetrain v => Sys2Proof.Machine.execFuncRetrain v s
  | .funcDrainEnd => Sys2Proof.Machine.execFuncDrainEnd s
  | .funcAbort => Sys2Proof.Machine.execFuncAbort s
  | .selfTestDone fail => Sys2Proof.Machine.execSelfTestDone fail s
  | .internalFault unit control work => Sys2Proof.Machine.execInternalFault unit control work s
  | .rateSample g rate => Sys2Proof.Machine.execRateSample g rate s
  | .governorInterval x => Sys2Proof.Machine.execGovernorInterval x s
  | .conversionDieFault d => Sys2Proof.Machine.execConversionDieFault d s
  | .thermtrip sensor => Sys2Proof.Machine.execThermtrip sensor s
  | .thermtripRelease byReset => Sys2Proof.Machine.execThermtripRelease byReset s
  | .powerOnReset => Sys2Proof.Machine.execPowerOnReset s
  | .brownOut ov => Sys2Proof.Machine.execBrownOut ov s
  | .pinReset perst => Sys2Proof.Machine.execPinReset perst s
  | .watchdogReset => Sys2Proof.Machine.execWatchdogReset s
  | .softwareReset v => Sys2Proof.Machine.execSoftwareReset v s
  | .debugReset => Sys2Proof.Machine.execDebugReset s
  | .clockFailure ref => Sys2Proof.Machine.execClockFailure ref s
  | .lockupReset u => Sys2Proof.Machine.execLockupReset u s
  | .resetHoldEnd x => Sys2Proof.Machine.execResetHoldEnd x s
  | .domainRelease fail => Sys2Proof.Machine.execDomainRelease fail s
  | .counterRead off p => Sys2Proof.Machine.execCounterRead off p s
  | .registerWrite off p v => Sys2Proof.Machine.execRegisterWrite off p v s
  | .undefinedEncoding w h => Sys2Proof.Machine.execUndefinedEncoding w h s
  | .resetSourceEnd src input => Sys2Proof.Machine.execResetSourceEnd src input s
  | .cxlLinkUp p l width rate => Sys2Proof.Machine.execCxlLinkUp p l width rate s
  | .hostLinkDown bmeOnly => Sys2Proof.Machine.execHostLinkDown bmeOnly s
  | .restoreDigestRequest src a len => Sys2Proof.Machine.execRestoreDigestRequest src a len s
  | .funcEnableDone pass => Sys2Proof.Machine.execFuncEnableDone pass s

end Sys2Proof.Machine
end

