-- ==== Sys2Proof/Safety.lean ====
section
/-! DEFINITION. The terms in which claims are stated: a safe step, the invariants of the plain data, and what an Ikid
instruction's conditions and frames are. -/

namespace Sys2Proof.Machine
open Sys2Proof

/-- A step that ends in a next state. -/
def goesOn (o : Out) : Bool :=
  match o with
  | .next _ => true
  | _ => false

/-- Keys strictly rise. -/
def risingFrom {α : Type} : Option Nat → SMap α → Bool
  | _, [] => true
  | lo, (k, _) :: m => (match lo with | none => true | some l => decide (l < k)) && risingFrom (some k) m

/-- The canonical form of memory: addresses strictly rise (R458); that no entry equals what an unlisted address reads as is
`SMap.wf` at the current generations. -/
def Memory.rising (m : SMap Byte) : Bool := risingFrom none m

/-- The canonical form of memory at a state. -/
def Memory.wf (s : State) : Bool := SMap.wf s.unlisted s.mem

/-- Counters hold at most 2^48 - 1 (R14). -/
def countersBounded (s : State) : Bool := s.cnt.all fun kv => decide (kv.2 ≤ 2 ^ 48 - 1)

/-! ### Issue -/

end Sys2Proof.Machine

namespace Sys2Proof

/-- The issue part of an Ikid instruction, none for a command of another kind. -/
def Instr.issue? : Instr → Option Issue
  | .add w _ _ _ => some w
  | .sub w _ _ _ => some w
  | .and w _ _ _ => some w
  | .or w _ _ _ => some w
  | .xor w _ _ _ => some w
  | .sll w _ _ _ => some w
  | .srl w _ _ _ => some w
  | .sra w _ _ _ => some w
  | .mul w _ _ _ => some w
  | .mulhu w _ _ _ => some w
  | .divu w _ _ _ => some w
  | .remu w _ _ _ => some w
  | .div w _ _ _ => some w
  | .rem w _ _ _ => some w
  | .min w _ _ _ => some w
  | .max w _ _ _ => some w
  | .addi w _ _ _ => some w
  | .subi w _ _ _ => some w
  | .andi w _ _ _ => some w
  | .ori w _ _ _ => some w
  | .xori w _ _ _ => some w
  | .slli w _ _ _ => some w
  | .srli w _ _ _ => some w
  | .srai w _ _ _ => some w
  | .muli w _ _ _ => some w
  | .mulhui w _ _ _ => some w
  | .divui w _ _ _ => some w
  | .remui w _ _ _ => some w
  | .divi w _ _ _ => some w
  | .remi w _ _ _ => some w
  | .mini w _ _ _ => some w
  | .maxi w _ _ _ => some w
  | .ceq w _ _ _ => some w
  | .cne w _ _ _ => some w
  | .clt w _ _ _ => some w
  | .cltu w _ _ _ => some w
  | .cge w _ _ _ => some w
  | .cgeu w _ _ _ => some w
  | .ceqi w _ _ _ => some w
  | .cnei w _ _ _ => some w
  | .clti w _ _ _ => some w
  | .cltui w _ _ _ => some w
  | .cgei w _ _ _ => some w
  | .cgeui w _ _ _ => some w
  | .pand w _ _ _ => some w
  | .por w _ _ _ => some w
  | .pxor w _ _ _ => some w
  | .pnot w _ _ => some w
  | .mov w _ _ => some w
  | .li w _ _ => some w
  | .lih w _ _ => some w
  | .sel w _ _ _ _ => some w
  | .aadd w _ _ _ => some w
  | .aidx w _ _ _ => some w
  | .ascl w _ _ _ => some w
  | .ldw w _ _ _ => some w
  | .ldws w _ _ _ => some w
  | .ldd w _ _ _ => some w
  | .stw w _ _ _ => some w
  | .std w _ _ _ => some w
  | .glw w _ _ _ => some w
  | .gld w _ _ _ => some w
  | .gstw w _ _ _ => some w
  | .gst w _ _ _ => some w
  | .br w _ => some w
  | .brl w _ _ => some w
  | .jr w _ => some w
  | .bdec w _ _ => some w
  | .wait w _ _ => some w
  | .waitm w _ _ => some w
  | .htst w _ _ => some w
  | .htstm w _ _ => some w
  | .nop w => some w
  | .endProg w => some w
  | .sysr w _ _ => some w
  | .lds w _ _ _ => some w
  | .mma w _ _ _ _ _ _ => some w
  | .mmat w _ _ _ _ _ _ => some w
  | .wgr w _ _ _ _ _ _ => some w
  | .cvt w _ _ _ _ => some w
  | .sclRead w _ _ _ _ => some w
  | .sclWrite w _ _ _ _ => some w
  | .gth w _ _ _ _ _ => some w
  | .sct w _ _ _ _ _ => some w
  | .sca w _ _ _ _ _ => some w
  | .mrgMerge w _ _ _ _ _ => some w
  | .mrgBitmap w _ _ _ _ _ => some w
  | .topk w _ _ _ _ _ _ => some w
  | .seg w _ _ _ _ _ => some w
  | .cmp w _ _ _ _ => some w
  | .prn w _ _ _ _ _ => some w
  | .bat w _ _ _ _ _ _ => some w
  | .xfrProg w _ _ _ _ _ _ _ _ => some w
  | .xfrPack w _ _ _ _ _ _ => some w
  | .xfrUnpack w _ _ _ _ _ _ => some w
  | .xfrRope w _ _ _ _ _ => some w
  | .rop w _ _ => some w
  | .barArrive w _ _ _ _ => some w
  | .barWait w _ _ => some w
  | .fnc w => some w
  | .dscMake w _ _ _ => some w
  | .dscLd w _ _ => some w
  | .dscSt w _ _ => some w
  | .dscBase w _ _ => some w
  | .poolTake w _ _ _ => some w
  | .poolPut w _ _ _ => some w
  | .upd w _ _ _ => some w
  | .cairn w _ _ => some w
  | .cairnRestore w _ _ => some w
  | .commit w _ => some w
  | .fenceCfg w _ => some w
  | .loopStep w _ _ _ => some w
  | .run w _ _ => some w
  | .undefinedEncoding w _ => some w
  | _ => none

end Sys2Proof

namespace Sys2Proof.Machine
open Sys2Proof

/-- The unit runs a program and does not wait at a barrier. -/
def Runs (w : Issue) (s : State) : Prop :=
  (s.seq w.u).run = .running ∨ ((s.seq w.u).run = .waiting ∧ (s.seq w.u).barWait = none)

/-- The conditions, on the state and the instruction alone, under which a unit issues and executes an instruction: it runs,
the fetch delivers the word (R269), the PC lies inside the store (R266), and the predicate is 1 (R274). -/
def Issues (w : Issue) (s : State) : Prop :=
  Runs w s ∧ w.fetch ≠ .uncorrectable ∧ (s.seq w.u).pc < pcLimit w.u ∧ xor ((s.seq w.u).getP w.ps) w.neg = true

/-- Saturation of a counter (R14). -/
def sat (n : Nat) : Nat := min n (2 ^ 48 - 1)

/-- What an issue counts: one instruction, and in a core one corrected fetch; no other counter moves (R269, R274). -/
def CountsIssue (w : Issue) (s t : State) : Prop :=
  ∀ o, t.count o =
    if o = w.u.regBase + 0x40 then sat (s.count o + 1)
    else if w.fetch = .corrected ∧ w.u.isCp = false ∧ o = w.u.regBase + 0x48 then sat (s.count o + 1)
    else s.count o

/-- Nothing of the block changes but the sequencer of the unit and what an issue counts: no register, no other sequencer, no
byte of memory, no queue. -/
def OnlySeq (w : Issue) (s t : State) : Prop :=
  t = { s with seqs := t.seqs, cnt := t.cnt } ∧ (∀ v, v ≠ w.u → t.seq v = s.seq v) ∧ CountsIssue w s t ∧
  ∀ a, t.byte a = s.byte a

/-- An instruction that writes `v` to `rd` and goes on: s0 keeps reading 0, every other register keeps its value (R266). -/
def WritesS (w : Issue) (rd : SReg) (v : Word) (s t : State) : Prop :=
  OnlySeq w s t ∧ (t.seq w.u).getS rd = (if rd = 0 then 0 else v) ∧
  (∀ x, x ≠ rd → (t.seq w.u).getS x = (s.seq w.u).getS x) ∧
  t.seq w.u = { s.seq w.u with run := .running, pc := (s.seq w.u).pc + 1, s := (t.seq w.u).s }

/-- The same for a predicate register; p0 keeps reading 1. -/
def WritesP (w : Issue) (pd : PReg) (v : Bool) (s t : State) : Prop :=
  OnlySeq w s t ∧ (t.seq w.u).getP pd = (if pd = 0 then true else v) ∧
  (∀ x, x ≠ pd → (t.seq w.u).getP x = (s.seq w.u).getP x) ∧
  t.seq w.u = { s.seq w.u with run := .running, pc := (s.seq w.u).pc + 1, p := (t.seq w.u).p }

/-- The same for an address register. -/
def WritesA (w : Issue) (ad : AReg) (v : BitVec 48) (s t : State) : Prop :=
  OnlySeq w s t ∧ (t.seq w.u).getA ad = v ∧ (∀ x, x ≠ ad → (t.seq w.u).getA x = (s.seq w.u).getA x) ∧
  t.seq w.u = { s.seq w.u with run := .running, pc := (s.seq w.u).pc + 1, a := (t.seq w.u).a }

/-- A write of a 64-bit value to a register of any class, under the widths of R266. -/
def WritesX (w : Issue) (rd : XReg) (v : Word) (s t : State) : Prop :=
  match rd with
  | .s r => WritesS w r v s t
  | .a r => WritesA w r (v.setWidth 48) s t
  | .p r => WritesP w r (decide (v ≠ 0)) s t

/-- No running update, pool's ring or instruction in flight that nothing orders with an access of a unit's own to `n` bytes
at `va`, local address `a`, shares bytes with it, and the pair that holds them serves (R23, R283, R337, R348, R396). -/
def Undisturbed (u : SeqId) (root : Word) (wr : Bool) (va a n : Nat) (s : State) : Prop :=
  s.meets ⟨u.num, none, wr⟩ a n = false ∧ (∀ e ∈ s.upds, s.updHit e root wr va n = []) ∧ s.poolHit a n = [] ∧
  s.training a n = false

/-- A sequencer without what its works note of bytes that others share with them: that note is the model's own (R129, R283). -/
def Seq.calm (q : Seq) : Seq := { q with works := q.works.map fun x => { x with race := [] } }

/-- The word of 32 bits at an address, little-endian (R8). -/
def State.word32 (s : State) (a : Nat) : BitVec 32 := s.byte (a + 3) ++ s.byte (a + 2) ++ s.byte (a + 1) ++ s.byte a

/-- Every uncorrectable unit is recorded by its first address, and only memories with check bits have one. -/
def poisonOk (s : State) : Bool := s.poison.all fun u => eccSize s.fuses.h5 u != 0 && eccUnit s.fuses.h5 u == u

/-- What every step keeps: memory, registers and counters in their canonical form, counters within 48 bits, uncorrectable units
by their first address, scrub positions inside the controller, and a size of BAR4 from 1 GiB to 1 TiB (R14, R198, R393, R397,
R408, R455). -/
def StateOk (s : State) : Bool :=
  Memory.wf s && SMap.wf regReset s.regs && SMap.wf (fun _ => 0) s.cnt && countersBounded s && poisonOk s &&
    (s.scrubAt.all fun kv => decide (kv.2 < if s.fuses.h5 then 2 ^ 28 else 2 ^ 29)) &&
    decide (30 ≤ s.bar4) && decide (s.bar4 ≤ 40)

end Sys2Proof.Machine
end

