-- ==== Sys2Proof/Certificates/Slice0/Obligations.lean ====
section
/-! DEFINITION. The statements for the provers: what the commands of the block do, family by family, and what every step
keeps. Each docstring says which rules of spec/ its statement formalises. -/

open Sys2Proof Sys2Proof.Machine

/-! ### Ikid: scalar instructions (spec/11_ikid_core_isa.md) -/

/-- The register forms of MAJ 0x10 with what each computes (R285, R287). -/
def claimRegOps : List ((Issue → SReg → SReg → SReg → Instr) × (Word → Word → Word)) := [
  (.add, fun a b => BitVec.ofInt 64 (a.toInt + b.toInt)), (.sub, fun a b => BitVec.ofInt 64 (a.toInt - b.toInt)),
  (.and, fun a b => a &&& b), (.or, fun a b => a ||| b), (.xor, fun a b => a ^^^ b),
  (.sll, fun a b => a <<< (b &&& 63)), (.srl, fun a b => a >>> (b &&& 63)), (.sra, fun a b => a.sshiftRight' (b &&& 63)),
  (.mul, fun a b => BitVec.ofInt 64 (a.toInt * b.toInt)),
  (.mulhu, fun a b => ((a.zeroExtend 128 * b.zeroExtend 128) >>> 64).setWidth 64),
  (.divu, fun a b => if b = 0 then 0xFFFF_FFFF_FFFF_FFFF else a / b), (.remu, fun a b => a % b),
  (.div, fun a b => if b = 0 then -1 else a.sdiv b), (.rem, fun a b => a.srem b),
  (.min, fun a b => if a.toInt ≤ b.toInt then a else b), (.max, fun a b => if a.toInt ≤ b.toInt then b else a)]

/-- The immediate forms of MAJ 0x11, in the order of `claimRegOps` (R287). -/
def claimImmOps : List (Issue → SReg → SReg → Imm → Instr) := [
  .addi, .subi, .andi, .ori, .xori, .slli, .srli, .srai, .muli, .mulhui, .divui, .remui, .divi, .remi, .mini, .maxi]

/-- The compares of MAJ 0x12 (R287). -/
def claimCmpOps : List ((Issue → PReg → SReg → SReg → Instr) × (Word → Word → Bool)) := [
  (.ceq, fun a b => decide (a = b)), (.cne, fun a b => decide (a ≠ b)), (.clt, fun a b => decide (a.toInt < b.toInt)),
  (.cltu, fun a b => decide (a.toNat < b.toNat)), (.cge, fun a b => decide (b.toInt ≤ a.toInt)),
  (.cgeu, fun a b => decide (b.toNat ≤ a.toNat))]

/-- The immediate compares of MAJ 0x13, in the order of `claimCmpOps`. -/
def claimCmpImmOps : List (Issue → PReg → SReg → Imm → Instr) := [.ceqi, .cnei, .clti, .cltui, .cgei, .cgeui]

/-- Each integer instruction that issues and executes answers the state in which rd holds what its table row and R285 give (s0
keeps reading 0), of ra and rb (MAJ 0x10) or of ra and the sign-extended IMM (MAJ 0x11), and nothing else changes but the PC and
the issue counts: none faults. -/
def Obligations.ScalarArithmeticResult : Prop :=
  (∀ p ∈ claimRegOps, ∀ (w : Issue) (rd ra rb : SReg) (s : State), Issues w s →
    ∃ t, exec (p.1 w rd ra rb) s = .next t ∧ WritesS w rd (p.2 ((s.seq w.u).getS ra) ((s.seq w.u).getS rb)) s t) ∧
  ∀ p ∈ claimImmOps.zip (claimRegOps.map (·.2)), ∀ (w : Issue) (rd ra : SReg) (imm : Imm) (s : State), Issues w s →
    ∃ t, exec (p.1 w rd ra imm) s = .next t ∧ WritesS w rd (p.2 ((s.seq w.u).getS ra) (imm.signExtend 64)) s t

/-- Each compare, with a register or with the sign-extended IMM, writes its predicate (p0 keeps reading 1) and nothing else. -/
def Obligations.CompareResult : Prop :=
  (∀ p ∈ claimCmpOps, ∀ (w : Issue) (pd : PReg) (ra rb : SReg) (s : State), Issues w s →
    ∃ t, exec (p.1 w pd ra rb) s = .next t ∧ WritesP w pd (p.2 ((s.seq w.u).getS ra) ((s.seq w.u).getS rb)) s t) ∧
  (∀ p ∈ claimCmpImmOps.zip (claimCmpOps.map (·.2)), ∀ (w : Issue) (pd : PReg) (ra : SReg) (imm : Imm) (s : State),
    Issues w s → ∃ t, exec (p.1 w pd ra imm) s = .next t ∧ WritesP w pd (p.2 ((s.seq w.u).getS ra) (imm.signExtend 64)) s t)

/-- PAND, POR, PXOR, PNOT, MOV, LI, LIH to an s- or a-register, SEL, AADD, AIDX and ASCL write their destination as their
table rows say, under the register widths of R266, and nothing else. -/
def Obligations.PredicateMoveAddressResult : Prop :=
  ∀ (w : Issue) (pd pa pb pc : PReg) (rd ra rb : SReg) (xd xa : XReg) (ad aa : AReg) (imm : Imm) (s : State), Issues w s →
    let q := s.seq w.u
    (∃ t, exec (.pand w pd pa pb) s = .next t ∧ WritesP w pd (q.getP pa && q.getP pb) s t) ∧
    (∃ t, exec (.por w pd pa pb) s = .next t ∧ WritesP w pd (q.getP pa || q.getP pb) s t) ∧
    (∃ t, exec (.pxor w pd pa pb) s = .next t ∧ WritesP w pd (q.getP pa != q.getP pb) s t) ∧
    (∃ t, exec (.pnot w pd pa) s = .next t ∧ WritesP w pd (!q.getP pa) s t) ∧
    (∃ t, exec (.mov w xd xa) s = .next t ∧ WritesX w xd (q.getX xa) s t) ∧
    (∃ t, exec (.li w xd imm) s = .next t ∧ WritesX w xd (imm.signExtend 64) s t) ∧
    (∃ t, exec (.lih w (.s rd) imm) s = .next t ∧ WritesS w rd (imm ++ (q.getS rd).setWidth 32) s t) ∧
    (∃ t, exec (.lih w (.a ad) imm) s = .next t ∧ WritesA w ad (imm.setWidth 16 ++ (q.getA ad).setWidth 32) s t) ∧
    (∃ t, exec (.sel w rd ra rb pc) s = .next t ∧ WritesS w rd (if q.getP pc then q.getS ra else q.getS rb) s t) ∧
    (∃ t, exec (.aadd w ad aa imm) s = .next t ∧ WritesA w ad (q.getA aa + (imm.signExtend 64).setWidth 48) s t) ∧
    (∃ t, exec (.aidx w ad aa rb) s = .next t ∧ WritesA w ad (q.getA aa + (q.getS rb).setWidth 48) s t) ∧
    (∃ t, exec (.ascl w ad ra imm) s = .next t ∧ WritesA w ad ((q.getS ra).setWidth 48 * imm.zeroExtend 48) s t)

/-- LDW, LDWS and LDD at a word index inside the store (even for LDD), of words without an uncorrectable error, write the
word or the two words to rd, zero- or sign-extended, and change nothing else. Where an instruction in flight writes the words
and nothing orders the load after it, the value loaded is free (R283), and the rest is the same. -/
def Obligations.ScalarLoadResult : Prop :=
  ∀ (w : Issue) (rd : SReg) (aa : AReg) (imm : Imm) (s : State), Issues w s → poisonOk s = true →
    let i := ((s.seq w.u).getA aa).toNat + imm.toNat
    let a := storeBase w.u + 4 * i
    let meets (n : Nat) : Bool := s.meets ⟨w.u.num, none, false⟩ a n
    let free (c : Instr) (t : State) (f : Word) : Prop :=
      exec c s = .next t ∧ WritesS w rd f { s with freeCtr := t.freeCtr } t
    i < storeWords w.u →
    (s.rdBad a 4 = false →
      (meets 4 = false →
        (∃ t, exec (.ldw w rd aa imm) s = .next t ∧ WritesS w rd ((s.word32 a).zeroExtend 64) s t) ∧
        ∃ t, exec (.ldws w rd aa imm) s = .next t ∧ WritesS w rd ((s.word32 a).signExtend 64) s t) ∧
      (meets 4 = true → ∃ t u, ∃ x : BitVec 32,
        free (.ldw w rd aa imm) t (x.zeroExtend 64) ∧ free (.ldws w rd aa imm) u (x.signExtend 64))) ∧
    (i % 2 = 0 → s.rdBad a 8 = false →
      (meets 8 = false → ∃ t, exec (.ldd w rd aa imm) s = .next t ∧ WritesS w rd (s.word32 (a + 4) ++ s.word32 a) s t) ∧
      (meets 8 = true → ∃ t x, free (.ldd w rd aa imm) t x))

/-- STW and STD at a word index inside the store (even for STD) store rd[31:0] or rd at the word's address and no other
byte changes; the window of the control-cluster SRAM that R335 reserves discards the store; a word written whole is repaired.
Where an instruction in flight reads or writes the words and nothing orders the store with it, the bytes stored are free. -/
def Obligations.ScalarStoreResult : Prop :=
  ∀ (w : Issue) (rd : SReg) (aa : AReg) (imm : Imm) (s : State), Issues w s → poisonOk s = true →
    let i := ((s.seq w.u).getA aa).toNat + imm.toNat
    let a := storeBase w.u + 4 * i
    let v := (s.seq w.u).getS rd
    let meets (n : Nat) : Bool := s.meets ⟨w.u.num, none, true⟩ a n
    let stored (n : Nat) (t : State) : Prop :=
      t = { s with seqs := t.seqs, cnt := t.cnt, mem := t.mem, poison := t.poison, fresh := t.fresh, freeCtr := t.freeCtr } ∧
      (∀ x, x ≠ w.u → (t.seq x).calm = (s.seq x).calm) ∧ CountsIssue w s t ∧
      (t.seq w.u).calm = { (s.seq w.u).calm with run := .running, pc := (s.seq w.u).pc + 1 } ∧
      (∀ b, b < a ∨ a + n ≤ b → t.byte b = s.byte b) ∧ ∀ u, u ∈ t.poison ↔ u ∈ s.poison ∧ ¬(a ≤ u ∧ u < a + n)
    let holds (n : Nat) (t : State) : Prop :=
      t.freeCtr = s.freeCtr ∧ (∀ x, x ≠ w.u → t.seq x = s.seq x) ∧
      ∀ k, k < n → t.byte (a + k) =
        if 0x3000_03FD_0000 ≤ a ∧ a < 0x3000_03FE_0000 then s.byte (a + k) else BitVec.ofNat 8 (v.toNat >>> (8 * k))
    i < storeWords w.u →
    (∃ t, exec (.stw w rd aa imm) s = .next t ∧ stored 4 t ∧ (meets 4 = false → holds 4 t)) ∧
    (i % 2 = 0 → ∃ t, exec (.std w rd aa imm) s = .next t ∧ stored 8 t ∧ (meets 8 = false → holds 8 t))

/-- GLW and GLD of an aligned job virtual address that translates to local memory write the bytes there to rd, zero-extended;
on a control processor an address of the register space reads the register instead, without translation; behind a leaf of a
peer, once it has answered with success, a byte that the same unit stored there has that store's value (R281, R282). -/
def Obligations.GlobalLoadResult : Prop :=
  ∀ (w : Issue) (rd : SReg) (aa : AReg) (imm : Imm) (s : State), Issues w s →
    let va := ((s.seq w.u).getA aa + imm.signExtend 48).toNat
    let root := s.epReg w.u.epochUnit Reg.sipPtRoot
    let space := w.u.isCp = true ∧ 0x3F00_0000_0000 ≤ va ∧ va < 0x3F00_1000_0000
    let good (a n : Nat) : Prop := va % n = 0 ∧ Undisturbed w.u root false va a n s ∧ s.rdBad a n = false ∧
      s.clearing a = false ∧ s.clearing (a + n - 1) = false
    (∀ a, ¬space → s.translate root va 0 true false = .local_ a → (s.seq w.u).poisoned = false →
      (good a 4 → ∃ t, exec (.glw w rd aa imm) s = .next t ∧ WritesS w rd (BitVec.ofNat 64 (s.rdLE a 4)) s t) ∧
      (good a 8 → ∃ t, exec (.gld w rd aa imm) s = .next t ∧ WritesS w rd (BitVec.ofNat 64 (s.rdLE a 8)) s t)) ∧
    (space → va % 8 = 0 →
      ∃ t, exec (.gld w rd aa imm) s = .next t ∧
        (t.seq w.u).getS rd = (if rd = 0 then 0 else ((issued w s).regLoad (va - 0x3F00_0000_0000) .whole).2) ∧
        (t.seq w.u).pc = (s.seq w.u).pc + 1 ∧ ∀ a, t.byte a = s.byte a) ∧
    (∀ d a, ¬space → s.translate root va 0 true false = .remote d a → va % 8 = 0 → ((issued w s).peerRead d a 8).2.1 = .ok →
      ∃ t x, exec (.gld w rd aa imm) s = .next t ∧ (t.seq w.u).getS rd = (if rd = 0 then 0 else x) ∧
        (t.seq w.u).pc = (s.seq w.u).pc + 1 ∧ (∀ b, t.byte b = s.byte b) ∧
        ∀ k v, k < 8 → SMap.get none (s.seq w.u).sent (globalAddr d a + k) = some v → (x >>> (8 * k)).setWidth 8 = v)

/-- GSTW and GST to an aligned job virtual address that translates to local memory without uncorrectable units store the low
4 or all 8 bytes of the register there and change no other byte, no register, no other sequencer; behind a leaf of a peer that a
link leads to they are posted as one request and the unit goes on (R281, R282). -/
def Obligations.GlobalStoreResult : Prop :=
  ∀ (w : Issue) (rd : SReg) (aa : AReg) (imm : Imm) (s : State), Issues w s →
    let va := ((s.seq w.u).getA aa + imm.signExtend 48).toNat
    let root := s.epReg w.u.epochUnit Reg.sipPtRoot
    let v := (s.seq w.u).getS rd
    ¬(w.u.isCp = true ∧ 0x3F00_0000_0000 ≤ va ∧ va < 0x3F00_1000_0000) →
    (∀ a, s.translate root va 0 false true = .local_ a →
      let stored (n : Nat) (t : State) : Prop :=
        t = { s with seqs := t.seqs, cnt := t.cnt, mem := t.mem } ∧ (∀ x, x ≠ w.u → t.seq x = s.seq x) ∧ CountsIssue w s t ∧
        t.seq w.u = { s.seq w.u with run := .running, pc := (s.seq w.u).pc + 1 } ∧
        (∀ b, (∀ k, k < n → s.cell b ≠ s.cell (a + k)) → t.byte b = s.byte b) ∧
        ∀ k, k < n → ¬(0x3000_03FD_0000 ≤ a + k ∧ a + k < 0x3000_03FE_0000) →
          (∀ j, j < n → j ≠ k → s.cell (a + j) ≠ s.cell (a + k)) → t.byte (a + k) = BitVec.ofNat 8 (v.toNat >>> (8 * k))
      let good (n : Nat) : Prop := va % n = 0 ∧ Undisturbed w.u root true va a n s ∧ s.rdBad a n = false
      (good 4 → ∃ t, exec (.gstw w rd aa imm) s = .next t ∧ stored 4 t) ∧
      (good 8 → ∃ t, exec (.gst w rd aa imm) s = .next t ∧ stored 8 t)) ∧
    (∀ d a, s.translate root va 0 false true = .remote d a → va % 8 = 0 →
      ((issued w s).peerSend d a (natLE 8 v.toNat) (some (.store w.u.num va))).2 = true →
      ∃ t, exec (.gst w rd aa imm) s = .next t ∧ (t.seq w.u).pc = (s.seq w.u).pc + 1 ∧ (∀ b, t.byte b = s.byte b) ∧
        (∀ x, (t.seq w.u).getS x = (s.seq w.u).getS x) ∧ (∃ q ∈ t.reqs, q.dev = d ∧ q.purpose = .store w.u.num va) ∧
        ∀ k, k < 8 → SMap.get none (t.seq w.u).sent (globalAddr d a + k) = some (BitVec.ofNat 8 (v.toNat >>> (8 * k))))

/-- BR, BRL, JR and BDEC: a target inside the instruction store is the next PC, counted in instructions from the branch
itself; BRL keeps the return index, BDEC decrements and falls through at 0; s0 keeps reading 0. -/
def Obligations.BranchResult : Prop :=
  ∀ (w : Issue) (rd ra : SReg) (imm : Imm) (s : State), Issues w s →
    let q := s.seq w.u
    let d : Int := (q.pc : Int) + imm.toInt
    let goes (pc : Nat) (r : SReg) (v : Word) (t : State) : Prop :=
      OnlySeq w s t ∧ (t.seq w.u).getS r = (if r = 0 then 0 else v) ∧ (∀ x, x ≠ r → (t.seq w.u).getS x = q.getS x) ∧
      t.seq w.u = { q with run := .running, pc := pc, s := (t.seq w.u).s }
    (0 ≤ d → d < pcLimit w.u →
      (∃ t, exec (.br w imm) s = .next t ∧ goes d.toNat 0 0 t) ∧
      (∃ t, exec (.brl w rd imm) s = .next t ∧ goes d.toNat rd (BitVec.ofNat 64 (q.pc + 1)) t) ∧
      (rd ≠ 0 → q.getS rd ≠ 1 → ∃ t, exec (.bdec w rd imm) s = .next t ∧ goes d.toNat rd (q.getS rd - 1) t)) ∧
    (rd = 0 ∨ q.getS rd = 1 → ∃ t, exec (.bdec w rd imm) s = .next t ∧ goes (q.pc + 1) rd (q.getS rd - 1) t) ∧
    ((q.getS ra).toNat < pcLimit w.u → ∃ t, exec (.jr w ra) s = .next t ∧ goes (q.getS ra).toNat 0 0 t)

/-- The handle instructions: WAIT on a FREE handle writes 0xFF, on a DONE one its code and frees it, on a BUSY one waits and
writes nothing; WAITM writes the code of highest rank among the DONE handles of its mask and frees them once none of the mask
is BUSY; HTST and HTSTM test for BUSY. No other handle changes. -/
def Obligations.HandleInstructions : Prop :=
  ∀ (w : Issue) (rd : SReg) (pd : PReg) (h : BitVec 5) (m : Imm) (s : State), Issues w s →
    let q := s.seq w.u
    let busy (i : Nat) : Prop := q.getH i = .busy
    let ends (v : Word) (freed : Nat → Bool) (t : State) : Prop :=
      OnlySeq w s t ∧ (t.seq w.u).getS rd = (if rd = 0 then 0 else v) ∧ (∀ x, x ≠ rd → (t.seq w.u).getS x = q.getS x) ∧
      (∀ i, (t.seq w.u).getH i = if freed i then .free else q.getH i) ∧
      t.seq w.u = { q with run := .running, pc := q.pc + 1, s := (t.seq w.u).s, h := (t.seq w.u).h }
    (q.getH h.toNat = .free → ∃ t, exec (.wait w rd h) s = .next t ∧ ends 0xFF (fun _ => false) t) ∧
    (∀ c, q.getH h.toNat = .done c →
      ∃ t, exec (.wait w rd h) s = .next t ∧ ends (BitVec.ofNat 64 c.toNat) (fun i => i == h.toNat) t) ∧
    (busy h.toNat → exec (.wait w rd h) s = .next (s.park w.u)) ∧
    ((∀ i, i < 32 → m.toNat.testBit i = true → ¬busy i) →
      ∃ t c, exec (.waitm w rd m) s = .next t ∧
        ends (BitVec.ofNat 64 (Code.toNat c)) (fun i => decide (i < 32) && m.toNat.testBit i) t ∧
        (c = .ok ∨ ∃ i, i < 32 ∧ m.toNat.testBit i = true ∧ q.getH i = .done c) ∧
        ∀ i x, i < 32 → m.toNat.testBit i = true → q.getH i = .done x → x.rank ≤ c.rank) ∧
    ((∃ i, i < 32 ∧ m.toNat.testBit i = true ∧ busy i) → exec (.waitm w rd m) s = .next (s.park w.u)) ∧
    (∃ t, exec (.htst w pd h) s = .next t ∧ WritesP w pd (decide (¬busy h.toNat)) s t) ∧
    ∃ t b, exec (.htstm w pd m) s = .next t ∧ WritesP w pd b s t ∧
      (b = true ↔ ∀ i, i < 32 → m.toNat.testBit i = true → ¬busy i)

/-- The state after a sequencer fault (R284): the first record of SEQ_FAULT and SEQ_FAULT_VA, no register of the program and
no byte of memory changed, and the program ended at once where no handle is BUSY, or ending with the fault's code. -/
def claimFault (u : SeqId) (code : Code) (cause va : Nat) (s t : State) : Prop :=
  let q := s.seq u
  let o := u.regBase + 8
  (s.bit o 63 = false → t.reg o = BitVec.ofNat 64 (2 ^ 63 + code.toNat * 2 ^ 48 + cause * 2 ^ 40 + q.pc % 2 ^ 21) ∧
    t.reg (o + 8) = BitVec.ofNat 64 va) ∧
  (s.bit o 63 = true → t.reg o = s.reg o ||| BitVec.ofNat 64 (2 ^ 62) ∧ t.reg (o + 8) = s.reg (o + 8)) ∧
  (∀ a, t.byte a = s.byte a) ∧
  ((∃ i, i < 32 ∧ q.getH i = .busy) → t.seq u = { q with run := .ending, faulted := some code, barWait := none }) ∧
  ((∀ i, i < 32 → q.getH i ≠ .busy) → (∀ l ∈ s.launches, l.core ≠ u.num) →
    t.seq u = { pc := q.pc, istore := q.istore, step := q.step, loopOver := q.loopOver })

/-- SYSR reads each of the system registers of R288; any other number faults with cause 0x85 and writes no register. -/
def Obligations.SystemRegisters : Prop :=
  ∀ (w : Issue) (rd : SReg) (n : Imm) (s : State), Issues w s →
    let q := s.seq w.u
    let v : Word := match n.toNat, w.u with
      | 0, .core c => BitVec.ofNat 64 c.val
      | 0, .cp k => BitVec.ofNat 64 (0x3FC + k.val)
      | 1, .core _ => 0x0100_0000
      | 1, .cp _ => 0x0100_0001
      | 2, _ => if q.loopOver = true then 0 else q.step
      | 3, .core c => (SMap.get 0 s.unitEpoch c.val).zeroExtend 64
      | 3, .cp _ => (SMap.get 0 s.unitEpoch 1067).zeroExtend 64
      | 4, .core c => s.arrayWidth c.val
      | 4, .cp _ => 0
      | 5, _ => BitVec.ofNat 64 (((List.range 32).map fun i => (match q.getH i with
          | .done _ => 2 ^ (32 + i) | .busy => 2 ^ i | .free => 0)).sum)
      | 6, _ => BitVec.ofNat 64 s.devId
      | 7, .core c => BitVec.ofNat 64 (10 * (c.val / 40 / 2) + c.val % 40 / 4)
      | 7, .cp _ => 0xFFFF
      | _, _ => 0
    (n.toNat < 8 → ∃ t, exec (.sysr w rd n) s = .next t ∧ WritesS w rd v s t) ∧
    (8 ≤ n.toNat → ∃ t, exec (.sysr w rd n) s = .next t ∧ claimFault w.u .desc 0x85 0 s t)

/-- NOP only passes. END with handles BUSY stops the issue and lets them run; with none BUSY it ends the program: where
nothing waits to start on the unit it is idle with every handle FREE and no register of the program left. -/
def Obligations.NopAndEnd : Prop :=
  ∀ (w : Issue) (s : State), Issues w s →
    let q := s.seq w.u
    (∃ t, exec (.nop w) s = .next t ∧ OnlySeq w s t ∧ t.seq w.u = { q with run := .running, pc := q.pc + 1 }) ∧
    ((∃ i, i < 32 ∧ q.getH i = .busy) → ∃ t, exec (.endProg w) s = .next t ∧
      t.seq w.u = { q with run := .ending, faulted := none, barWait := none } ∧ ∀ a, t.byte a = s.byte a) ∧
    ((∀ i, i < 32 → q.getH i ≠ .busy) → (∀ l ∈ s.launches, l.core ≠ w.u.num) → ∃ t, exec (.endProg w) s = .next t ∧
      t.seq w.u = { pc := q.pc, istore := q.istore, step := q.step, loopOver := q.loopOver } ∧ (∀ a, t.byte a = s.byte a) ∧
      ∀ o, (w.u.isCp = true → o ≠ Reg.rslStat) → t.reg o = s.reg o)

/-- The faults of R284 that a scalar instruction raises, each with its code and cause: an uncorrectable fetch 0x86, a PC
outside the store 0x82, an undefined encoding 0x80 (also LIH to a predicate register), a control-profile instruction on a core
0x81, a branch target outside the store 0x82, a word index beyond the store 0x83, an odd index or a misaligned address 0x84, an
uncorrectable word 0x87. A fault is precise. -/
def Obligations.ScalarFaults : Prop :=
  ∀ (w : Issue) (rd : SReg) (pd : PReg) (aa : AReg) (imm : Imm) (s : State), Runs w s →
    let q := s.seq w.u
    let faults (c : Instr) (code : Code) (cause va : Nat) : Prop :=
      ∃ t, exec c s = .next t ∧ claimFault w.u code cause va s t
    let i := (q.getA aa).toNat + imm.toNat
    let va := (q.getA aa + imm.signExtend 48).toNat
    let d : Int := (q.pc : Int) + imm.toInt
    (w.fetch = .uncorrectable → ∀ c, c.issue? = some w → faults c .ecc 0x86 0) ∧
    (w.fetch ≠ .uncorrectable → pcLimit w.u ≤ q.pc → ∀ c, c.issue? = some w → faults c .desc 0x82 0) ∧
    (Issues w s →
      (∀ h, Ikid.decode w h = none → faults (.undefinedEncoding w h) .desc 0x80 0) ∧ faults (.lih w (.p pd) imm) .desc 0x80 0 ∧
      (w.u.isCp = false → faults (.commit w rd) .desc 0x81 0 ∧ faults (.fenceCfg w rd) .desc 0x81 0 ∧
        faults (.loopStep w rd rd imm) .desc 0x81 0) ∧
      (d < 0 ∨ pcLimit w.u ≤ d → faults (.br w imm) .desc 0x82 0 ∧ faults (.brl w rd imm) .desc 0x82 0) ∧
      (pcLimit w.u ≤ (q.getS rd).toNat → faults (.jr w rd) .desc 0x82 0) ∧
      (storeWords w.u ≤ i → faults (.ldw w rd aa imm) .desc 0x83 0 ∧ faults (.ldws w rd aa imm) .desc 0x83 0 ∧
        faults (.ldd w rd aa imm) .desc 0x83 0 ∧ faults (.stw w rd aa imm) .desc 0x83 0 ∧
        faults (.std w rd aa imm) .desc 0x83 0) ∧
      (i < storeWords w.u → i % 2 = 1 → faults (.ldd w rd aa imm) .desc 0x84 0 ∧ faults (.std w rd aa imm) .desc 0x84 0) ∧
      (va % 4 ≠ 0 → faults (.glw w rd aa imm) .desc 0x84 va ∧ faults (.gstw w rd aa imm) .desc 0x84 va) ∧
      (va % 8 ≠ 0 → faults (.gld w rd aa imm) .desc 0x84 va ∧ faults (.gst w rd aa imm) .desc 0x84 va))

/-- An instruction whose predicate is 0 has no effect of any kind, whichever instruction it is: it only passes, and counts
as issued. -/
def Obligations.PredicatedOff : Prop :=
  ∀ (c : Instr) (w : Issue) (s : State), c.issue? = some w → Runs w s → w.fetch ≠ .uncorrectable →
    (s.seq w.u).pc < pcLimit w.u → xor ((s.seq w.u).getP w.ps) w.neg = false →
    ∃ t, exec c s = .next t ∧ OnlySeq w s t ∧
      t.seq w.u = { s.seq w.u with run := .running, pc := (s.seq w.u).pc + 1 }

/-- The instructions of the control profile that its own range of major opcodes holds. -/
def controlProfile : Instr → Bool
  | .upd .. | .cairn .. | .commit .. | .fenceCfg .. | .loopStep .. | .run .. => true
  | _ => false

/-- The words of Ikid (R264, R270, R272, R273). Decoding drops no bit: two words that spell the same instruction, each with
the predicate field that its issue carries, are the same word; so every bit that no field of an instruction uses has one value
that it must have. Major opcodes 0x00 and 0xA0 to 0xFF spell no instruction, 0x80 to 0x9F spell instructions of the control
profile alone, and 0x01 to 0x7F spell none of them. -/
def Obligations.IkidDecoding : Prop :=
  ∀ (w : Issue) (h g : Word),
    (∀ i, Ikid.decode w h = some i → Ikid.decode w g = some i → Ikid.carries w h = true → Ikid.carries w g = true → h = g) ∧
    (∀ i, Ikid.decode w h = some i → i.issue? = some w ∧ 1 ≤ Ikid.maj h ∧ Ikid.maj h < 0xA0 ∧
      (controlProfile i = true ↔ 0x80 ≤ Ikid.maj h))

/-! ### Ikid: tensor and control instructions (spec/12_ikid_tensor_instructions.md) -/

/-- Bits of the options field. -/
def claimOpt (opt : Opt) (lo n : Nat) : BitVec n := opt.extractLsb' lo n

/-- The conditions under which a tensor instruction issues: R274's, `h` the lowest FREE handle (R276), no pause by a cairn
(R446) and no gate of the governor (R489). -/
def claimIssuesTensor (w : Issue) (h : Nat) (s : State) : Prop :=
  Issues w s ∧ s.paused = false ∧ s.gated w.u = false ∧ h < 32 ∧ (s.seq w.u).getH h = .free ∧
  ∀ i, i < h → (s.seq w.u).getH i ≠ .free

/-- A tensor instruction issued: `h` becomes BUSY, its number goes to FD, the work joins the unit's issue order with the
operands copied (`bl` the words of its block, `af` the works it waits for), the PC advances, and nothing else changes (R276,
R291); what works note of bytes that they share is left open. -/
def claimIssued (w : Issue) (fd : SReg) (h : Nat) (i : Instr) (ds : List Desc) (vs : List Word) (bl : List Byte)
    (af : List Nat) (st : WStatus) (s : State) : Prop :=
  let q := s.seq w.u
  ∃ t k, exec i s = .next t ∧ t = { s with seqs := t.seqs, cnt := t.cnt } ∧ CountsIssue w s t ∧
    (∀ v, v ≠ w.u → (t.seq v).calm = (s.seq v).calm) ∧ (∀ a, t.byte a = s.byte a) ∧
    k = { k with seq := q.nseq, handle := h, instr := i, descs := ds, vals := vs, block := bl, fence := q.fence, after := af,
                 status := st, left := [], acc := .ok, epoch := s.epoch, wrote := [] } ∧
    (t.seq w.u).calm = ({ (q.setH h .busy).setS fd (BitVec.ofNat 64 h) with
      run := .running, pc := q.pc + 1, works := q.works ++ [k], nseq := q.nseq + 1 } : Machine.Seq).calm

/-- The same for an instruction that names no block and waits for none. -/
def claimQueued (w : Issue) (fd : SReg) (h : Nat) (i : Instr) (ds : List Desc) (vs : List Word) (st : WStatus)
    (s : State) : Prop := claimIssued w fd h i ds vs [] [] st s

/-- The auxiliary slots of an instruction, from D4 on (R293). -/
def claimAux (q : Machine.Seq) (d4 : Slot) (n : Nat) : List Desc :=
  (List.range n).map fun k => q.getD (BitVec.ofNat 6 (d4.toNat + k))

/-- The dense instructions, CVT and SCL issue on a core with the encodings that R295 to R300 allow: the lowest FREE handle
becomes BUSY and the slots and registers named are copied, the auxiliary run with them; a run that would pass d63 is refused
with 0x22, and the handle is taken all the same. -/
def Obligations.DenseIssue : Prop :=
  ∀ (w : Issue) (fd r4 : SReg) (d1 d2 d3 d4 : Slot) (opt : Opt) (f : BitVec 2) (s : State) (h : Nat),
    claimIssuesTensor w h s → w.u.isCp = false →
    let q := s.seq w.u
    let o := claimOpt opt
    let b (lo : Nat) : Nat := (o lo 1).toNat
    let sa : Prop := o 16 2 = 3 ∨ o 14 2 = 0
    let mm : Prop := sa ∧ o 10 2 ≠ 3 ∧ o 8 2 ≠ 3 ∧ (o 13 1 = 0 → d3 = 0)
    let port : Nat := if o 10 2 = 2 then 1 else 0
    let mask : Bool := o 6 2 == 1 || o 6 2 == 2
    let n := port + b 6 + b 5
    let g := port + b 5 + (if mask then 1 else 0) + (if mask || (td (q.getD d2)).aptr != 0 then 1 else 0)
    let runs (i : Instr) (n : Nat) : Prop :=
      (d4.toNat + n ≤ 64 → claimQueued w fd h i ([q.getD d1, q.getD d2, q.getD d3] ++ claimAux q d4 n) [] .queued s) ∧
      (64 < d4.toNat + n → claimQueued w fd h i [q.getD d1, q.getD d2, q.getD d3] [] (.ended .desc) s)
    (sa → o 0 13 = 0 → claimQueued w fd h (.lds w fd d1 opt) [q.getD d1] [] .queued s) ∧
    (mm → (n = 0 → d4 = 0) → runs (.mma w fd d1 d2 d3 d4 opt) n ∧ runs (.mmat w fd d1 d2 d3 d4 opt) n) ∧
    (mm → (g = 0 → d4 = 0) → runs (.wgr w fd d1 d2 d3 d4 opt) g) ∧
    (o 8 10 = 0 → o 0 6 = 0 → claimQueued w fd h (.cvt w fd d1 d2 opt) [q.getD d1, q.getD d2] [] .queued s) ∧
    (f ≠ 3 → claimQueued w fd h (.sclRead w fd d1 r4 f) [q.getD d1] [q.getS r4] .queued s ∧
      claimQueued w fd h (.sclWrite w fd d1 r4 f) [q.getD d1] [q.getS r4] .queued s)

/-- The sparse instructions issue on a core with the encodings that R301 allows, as `DenseIssue` says. -/
def Obligations.SparseIssue : Prop :=
  ∀ (w : Issue) (fd r4 : SReg) (d1 d2 d3 d4 : Slot) (opt : Opt) (s : State) (h : Nat),
    claimIssuesTensor w h s → w.u.isCp = false →
    let q := s.seq w.u
    let o := claimOpt opt
    let v := q.getS r4
    let two : List Desc := [q.getD d1, q.getD d2]
    let three : List Desc := two ++ [q.getD d3]
    let n := 1 + (o 8 1).toNat + (o 7 1).toNat
    (opt = 0 → claimQueued w fd h (.gth w fd d1 d2 d3 opt) three [] .queued s ∧
      claimQueued w fd h (.sct w fd d1 d2 d3 opt) three [] .queued s) ∧
    (o 8 10 = 0 → o 0 7 = 0 → claimQueued w fd h (.sca w fd d1 d2 d3 opt) three [] .queued s) ∧
    claimQueued w fd h (.mrgMerge w fd d1 d2 d3 r4) three [v] .queued s ∧
    claimQueued w fd h (.mrgBitmap w fd d1 d2 d3 r4) three [v] .queued s ∧
    (o 8 10 = 0 → (o 7 1 = 0 → d4 = 0) →
      claimQueued w fd h (.topk w fd d1 d2 d3 d4 opt) (three ++ [q.getD d4]) [] .queued s) ∧
    (o 2 16 = 0 → claimQueued w fd h (.seg w fd d1 d2 d3 opt) three [] .queued s) ∧
    (o 1 17 = 0 → claimQueued w fd h (.cmp w fd d1 d2 opt) two [] .queued s) ∧
    (o 2 16 = 0 → claimQueued w fd h (.prn w fd d1 d2 r4 opt) two [v] .queued s) ∧
    (o 10 6 = 0 →
      (d4.toNat + n ≤ 64 → claimQueued w fd h (.bat w fd d1 d2 d3 d4 opt) (three ++ claimAux q d4 n) [] .queued s) ∧
      (64 < d4.toNat + n → claimQueued w fd h (.bat w fd d1 d2 d3 d4 opt) three [] (.ended .desc) s))

/-- XFR in its four modes, ROP, BAR.ARRIVE and UPD issue with their operands copied; XFR and ROP read their block once, at
the issue, and BAR.ARRIVE names the BUSY handles of its mask, whose instructions it waits for. XFR is refused with 0x22 for a
siphon that the unit may not name. -/
def Obligations.TransferIssue : Prop :=
  ∀ (w : Issue) (fd r2 r4 : SReg) (a1 : AReg) (d1 d2 d3 : Slot) (siph : BitVec 8) (slot : BitVec 4) (drv : Bool) (opt : Opt)
    (s : State) (h : Nat), claimIssuesTensor w h s →
    let q := s.seq w.u
    let o := claimOpt opt
    let own : Prop := match w.u with
      | .core c => siph.toNat = 2 * (10 * (c.val / 40 / 2) + c.val % 40 / 4) ∨
          siph.toNat = 2 * (10 * (c.val / 40 / 2) + c.val % 40 / 4) + 1 ∨ (200 ≤ siph.toNat ∧ siph.toNat ≤ 215)
      | .cp _ => siph.toNat ≤ 215
    let at_ (i : Nat) : Nat := storeBase w.u + 4 * i
    let i := (q.getS r4).toNat
    let ok : Prop := own ∧ s.sipRefuses siph.toNat = false ∧
      (r4 = 0 ∨ (i % 16 = 0 ∧ i + 16 ≤ storeWords w.u ∧ s.rdBad (at_ i) 64 = false))
    let bl : List Byte := if r4 = 0 then [] else s.rdBytes (at_ i) 64
    let k := (q.getA a1).toNat
    let named : List Work := q.works.filter fun x => (q.getS r2).toNat.testBit x.handle && decide (x.handle < 32) &&
      decide (q.getH x.handle = .busy)
    (ok → claimIssued w fd h (.xfrProg w fd d1 d2 d3 r4 siph slot drv) [q.getD d1, q.getD d2, q.getD d3] [q.getS r4] bl []
      .queued s) ∧
    (ok → d3 = 0 →
      claimIssued w fd h (.xfrPack w fd d1 d2 d3 r4 siph) [q.getD d1, q.getD d2] [q.getS r4] bl [] .queued s ∧
      claimIssued w fd h (.xfrUnpack w fd d1 d2 d3 r4 siph) [q.getD d1, q.getD d2] [q.getS r4] bl [] .queued s) ∧
    (ok → d2 = 0 → claimIssued w fd h (.xfrRope w fd d1 d2 r4 siph) [q.getD d1] [q.getS r4] bl [] .queued s) ∧
    (¬own → claimIssued w fd h (.xfrProg w fd d1 d2 d3 r4 siph slot drv) [q.getD d1, q.getD d2, q.getD d3] [q.getS r4] [] []
      (.ended .desc) s) ∧
    (w.u.isCp = false → k % 8 = 0 → k + 8 ≤ storeWords w.u → s.rdBad (at_ k) 32 = false →
      claimIssued w fd h (.rop w fd a1) [] [] (s.rdBytes (at_ k) 32) [] .queued s) ∧
    (o 0 16 ≠ 0 → o 16 2 = 0 → claimIssued w fd h (.barArrive w fd a1 r2 opt) []
      [(q.getA a1).zeroExtend 64, BitVec.ofNat 64 s.nextReq] [] (named.map (·.seq)) .queued s) ∧
    (w.u.isCp = true → o 16 2 = 0 →
      (o 0 16 ≠ 0 → claimQueued w fd h (.upd w fd a1 opt) [] [(q.getA a1).zeroExtend 64] .queued s) ∧
      (o 0 16 = 0 → claimQueued w fd h (.upd w fd a1 opt) [] [(q.getA a1).zeroExtend 64] (.ended .desc) s))

/-- A tensor instruction that finds no FREE handle waits while one is BUSY, counting the wait, and faults with cause 0x89
where none is (R277); dense, sparse, CVT, SCL and ROP on a control processor fault with 0x80, and UPD, CAIRN and RUN on a core
with 0x81 (R294). Neither takes a handle. -/
def Obligations.TensorIssueStops : Prop :=
  ∀ (w : Issue) (fd r4 : SReg) (a1 : AReg) (d1 d2 d3 d4 : Slot) (opt : Opt) (f : BitVec 2) (s : State), Issues w s →
    let q := s.seq w.u
    let faults (c : Instr) (cause : Nat) : Prop :=
      ∃ t, exec c s = .next t ∧ claimFault w.u .desc cause 0 s t
    ((∀ i, i < 32 → q.getH i ≠ .free) → s.paused = false → s.gated w.u = false → w.u.isCp = false →
      ((∃ i, i < 32 ∧ q.getH i = .busy) →
        exec (.gth w fd d1 d2 d3 0) s = .next (s.bump (w.u.regBase + 0x50) 1)) ∧
      ((∀ i, i < 32 → q.getH i ≠ .busy) → faults (.gth w fd d1 d2 d3 0) 0x89)) ∧
    (w.u.isCp = true → ∀ c ∈ ([.lds w fd d1 opt, .mma w fd d1 d2 d3 d4 opt, .mmat w fd d1 d2 d3 d4 opt,
        .wgr w fd d1 d2 d3 d4 opt, .cvt w fd d1 d2 opt, .sclRead w fd d1 r4 f, .sclWrite w fd d1 r4 f,
        .gth w fd d1 d2 d3 opt, .sct w fd d1 d2 d3 opt, .sca w fd d1 d2 d3 opt, .mrgMerge w fd d1 d2 d3 r4,
        .mrgBitmap w fd d1 d2 d3 r4, .topk w fd d1 d2 d3 d4 opt, .seg w fd d1 d2 d3 opt, .cmp w fd d1 d2 opt,
        .prn w fd d1 d2 r4 opt, .bat w fd d1 d2 d3 d4 opt, .rop w fd a1] : List Instr), faults c 0x80) ∧
    (w.u.isCp = false → ∀ c ∈ ([.upd w fd a1 opt, .cairn w fd a1, .cairnRestore w fd a1, .run w fd a1] : List Instr),
      faults c 0x81)

/-- RUN with an accepted launch block, where each named core takes programs and runs none and no earlier work holds it back:
its handle becomes BUSY and every named core runs at ENTRY with s1 to s15 from the block, LEN instructions from IMAGE in its
store and every other register 0 (R267, R319). -/
def Obligations.RunLaunches : Prop :=
  ∀ (n : Fin 4) (w : Issue) (fd : SReg) (a1 : AReg) (s : State) (h : Nat), w.u = .cp n → claimIssuesTensor w h s →
    poisonOk s = true →
    let q := s.seq w.u
    let i := (q.getA a1).toNat
    let b := s.rdBytes (0x3000_0000_0000 + 4 * i) 256
    let entry := blockField b 0 4
    let len := blockField b 4 4
    let image := blockField b 8 8
    let named (c : Nat) : Prop := c < 800 ∧ (blockField b 0x88 100).testBit c = true
    i + 64 ≤ 16777216 → s.rdBad (0x3000_0000_0000 + 4 * i) 256 = false → entry < len → 1 ≤ len → len ≤ 8192 →
    image + 2 * len ≤ 16777216 → (∃ c, named c) → (∀ k ∈ q.works, q.fence ≤ k.seq) → s.launches = [] →
    (∀ c : Fin 800, named c.val → s.coreRefuses c.val = false ∧ (s.seq (.core c)).run = .idle) →
    ∃ t, exec (.run w fd a1) s = .next t ∧ (t.seq w.u).getH h = .busy ∧ (t.seq w.u).pc = q.pc + 1 ∧
      (t.seq w.u).getS fd = (if fd = 0 then 0 else BitVec.ofNat 64 h) ∧
      (∃ k ∈ (t.seq w.u).works, k.seq = q.nseq ∧ k.handle = h ∧ k.status = .running ∧ ∀ c, c ∈ k.left ↔ named c) ∧
      (∀ c : Fin 800, named c.val → (t.seq (.core c)).run = .running ∧ (t.seq (.core c)).pc = entry ∧
        (∀ r : SReg, (t.seq (.core c)).getS r =
          if r = 0 ∨ 15 < r.toNat then 0 else BitVec.ofNat 64 (blockField b (8 + 8 * r.toNat) 8)) ∧
        (∀ a : AReg, (t.seq (.core c)).getA a = 0) ∧ (∀ d : Slot, (t.seq (.core c)).getD d = 0) ∧
        (∀ x, (t.seq (.core c)).getH x = .free) ∧ (∀ p : PReg, (t.seq (.core c)).getP p = decide (p = 0)) ∧
        ∀ x, x < len → SMap.get 0 (t.seq (.core c)).istore x =
          BitVec.ofNat 64 (s.rdLE (0x3000_0000_0000 + 4 * image + 8 * x) 8)) ∧
      (∀ c : Fin 800, ¬named c.val → t.seq (.core c) = s.seq (.core c)) ∧ ∀ a, t.byte a = s.byte a

/-- POOL.TAKE of a pool whose oldest fitting entry is `e`, with nothing else waiting there: the entry leaves the pool for the
buffer; from a closed pool without a fitting entry only the first 8 bytes are written, as all ones. POOL.PUT of a good entry
into an open pool with room appends the buffer. In each case a handle is taken and the work has ended with 0x00; a PUT to a
closed pool ends with 0x11 and adds nothing (R311 to R313, R338). -/
def Obligations.PoolInstructions : Prop :=
  ∀ (w : Issue) (fd : SReg) (a1 : AReg) (pool : BitVec 4) (s : State) (h : Nat), claimIssuesTensor w h s →
    let q := s.seq w.u
    let i := (q.getA a1).toNat
    let a := storeBase w.u + 4 * i
    let p := s.pool pool.toNat
    let e := s.rdBytes a 128
    let off : Prop := match w.u with | .core c => s.coreRefuses c.val = true | .cp _ => False
    let ended (c : Instr) (code : Code) (pl : Pool) (t : State) : Prop :=
      exec c s = .next t ∧ t.pool pool.toNat = pl ∧ (t.seq w.u).getH h = .busy ∧ (t.seq w.u).pc = q.pc + 1 ∧
      (t.seq w.u).getS fd = (if fd = 0 then 0 else BitVec.ofNat 64 h) ∧
      ∃ k ∈ (t.seq w.u).works, k.seq = q.nseq ∧ k.handle = h ∧ k.instr = c ∧ k.status = .ended code
    i % 32 = 0 → i + 32 ≤ storeWords w.u → s.poolWaits pool.toNat = [] → (∀ k ∈ q.works, q.fence ≤ k.seq) →
    s.rdBad a 128 = false →
    (∀ x, ¬off → p.entries.find? (s.fits w.u.num) = some x → x.length = 128 →
      ¬(0x3000_03FD_0000 ≤ a ∧ a < 0x3000_03FE_0000) →
      ∃ t, ended (.poolTake w fd a1 pool) .ok { p with entries := p.entries.erase x } t ∧
        ∀ k, k < 128 → t.byte (a + k) = x.getD k 0) ∧
    (¬off → p.entries.find? (s.fits w.u.num) = none → p.isOpen = false → ¬(0x3000_03FD_0000 ≤ a ∧ a < 0x3000_03FE_0000) →
      ∃ t, ended (.poolTake w fd a1 pool) .ok p t ∧ (∀ k, k < 8 → t.byte (a + k) = 0xFF) ∧
        ∀ b, b < a ∨ a + 8 ≤ b → t.byte b = s.byte b) ∧
    (headerOk e = true → p.isOpen = true → p.entries.length < ringSize (s.reg (Reg.ctlPoolCfg pool.toNat)) →
      ∃ t, ended (.poolPut w fd a1 pool) .ok { p with entries := p.entries ++ [e] } t ∧ ∀ b, t.byte b = s.byte b) ∧
    (headerOk e = true → p.isOpen = false → ∃ t, ended (.poolPut w fd a1 pool) .cancelled p t ∧ ∀ b, t.byte b = s.byte b)

/-- FNC marks every instruction issued so far as the fence of later ones. DSC.BASE sets bits [47:0] of the slot. DSC.LD and
DSC.ST move 64 bytes between a slot and a 16-word boundary of the unit's store, as they stand; off the boundary they fault.
DSC.MAKE at a 32-word boundary writes the descriptor whose HEAD, sizes and strides are those of the block, each stride with its
least exponent, with 0 to FD where it is a valid one with every element in its region; 64 zero bytes with 0x22 where no
descriptor spells the block (a size above 0xFF_FFFF, a stride without an encoding) or the one that does fails (R213, R309). -/
def Obligations.FenceDescriptors : Prop :=
  (∀ (w : Issue) (d1 : Slot) (a2 : AReg) (s : State), Issues w s → poisonOk s = true →
     let q := s.seq w.u
     let i := (q.getA a2).toNat
     let a := storeBase w.u + 4 * i
     let slot (d : Desc) (t : State) : Prop :=
       (t.seq w.u).getD d1 = d ∧ (∀ x, x ≠ d1 → (t.seq w.u).getD x = q.getD x) ∧
       t.seq w.u = { q with run := .running, pc := q.pc + 1, d := (t.seq w.u).d }
     (∃ t, exec (.fnc w) s = .next t ∧ OnlySeq w s t ∧
       t.seq w.u = { q with run := .running, pc := q.pc + 1, fence := q.nseq }) ∧
     (∃ t, exec (.dscBase w d1 a2) s = .next t ∧ OnlySeq w s t ∧
       slot ((q.getD d1).extractLsb' 48 464 ++ q.getA a2) t) ∧
     (i % 16 = 0 → i + 16 ≤ storeWords w.u →
       (s.rdBad a 64 = false → ∃ t, exec (.dscLd w d1 a2) s = .next t ∧ OnlySeq w s t ∧
         slot (BitVec.ofNat 512 (((List.range 64).map fun k => (s.byte (a + k)).toNat * 2 ^ (8 * k)).sum)) t) ∧
       ∃ t, exec (.dscSt w d1 a2) s = .next t ∧
         t = { s with seqs := t.seqs, cnt := t.cnt, mem := t.mem, poison := t.poison } ∧
         t.seq w.u = { q with run := .running, pc := q.pc + 1 } ∧
         (∀ b, b < a ∨ a + 64 ≤ b → t.byte b = s.byte b) ∧
         (¬(0x3000_03FD_0000 ≤ a ∧ a < 0x3000_03FE_0000) → ∀ k, k < 64 →
           t.byte (a + k) = BitVec.ofNat 8 ((q.getD d1).toNat >>> (8 * k)))) ∧
     (i % 16 ≠ 0 → ∃ t u, exec (.dscLd w d1 a2) s = .next t ∧ claimFault w.u .desc 0x84 0 s t ∧
       exec (.dscSt w d1 a2) s = .next u ∧ claimFault w.u .desc 0x84 0 s u)) ∧
  (∀ (w : Issue) (fd : SReg) (d1 : Slot) (a2 : AReg) (s : State), Issues w s →
     let q := s.seq w.u
     let i := (q.getA a2).toNat
     let b := s.rdBytes (storeBase w.u + 4 * i) 128
     let size (k : Nat) : Nat := blockField b (0x50 + 4 * k) 4
     let stride (k : Nat) : Int := (BitVec.ofNat 64 (blockField b (0x20 + 8 * k) 8)).toInt
     let man (d : Desc) (k : Nat) : Int := (d.extractLsb' (248 + 48 * k) 20).toInt
     let exp (d : Desc) (k : Nat) : Nat := (d.extractLsb' (268 + 48 * k) 4).toNat
     let spells (d : Desc) : Prop := (d.extractLsb' 0 224).toNat = blockField b 0 28 ∧
       ∀ k, k < 6 → (d.extractLsb' (224 + 48 * k) 24).toNat = size k ∧ man d k * 2 ^ exp d k = stride k
     let least (d : Desc) : Prop := ∀ k e, k < 6 → e < exp d k → ∀ m : BitVec 20, m.toInt * 2 ^ e ≠ stride k
     let made (d : Desc) (c : Word) (t : State) : Prop := OnlySeq w s t ∧ (t.seq w.u).getD d1 = d ∧
       (∀ x, x ≠ d1 → (t.seq w.u).getD x = q.getD x) ∧ (t.seq w.u).getS fd = (if fd = 0 then 0 else c) ∧
       (∀ x, x ≠ fd → (t.seq w.u).getS x = q.getS x) ∧
       t.seq w.u = { q with run := .running, pc := q.pc + 1, d := (t.seq w.u).d, s := (t.seq w.u).s }
     (i % 32 = 0 → i + 32 ≤ storeWords w.u → s.rdBad (storeBase w.u + 4 * i) 128 = false →
       (∀ d, spells d → least d → (td d).ok = true → (td d).inRegion (blockField b 0x68 8) = true →
         ∃ t, exec (.dscMake w fd d1 a2) s = .next t ∧ made d 0 t) ∧
       ((∀ d, spells d → (td d).ok = false ∨ (td d).inRegion (blockField b 0x68 8) = false) →
         ∃ t, exec (.dscMake w fd d1 a2) s = .next t ∧ made 0 0x22 t)) ∧
     (i % 32 ≠ 0 → ∃ t, exec (.dscMake w fd d1 a2) s = .next t ∧ claimFault w.u .desc 0x84 0 s t))

/-- COMMIT raises the epoch by 1 modulo 2^32, writes it to FD and takes up the shadow values; no unit has switched yet.
FENCE.CFG passes where every enabled unit has reached the epoch in its register, and waits otherwise. LOOP.STEP with no handle
BUSY and no hold: the step rises by 1 and goes to rd, DONE handles stay DONE, the branch is taken while ra minus the new step is
positive, the control cluster stands in the newest epoch, and every update engine holds the row of the new step; with a handle
BUSY it waits. -/
def Obligations.CommitFenceLoop : Prop :=
  (∀ (n : Fin 4) (w : Issue) (fd r1 : SReg) (s : State), w.u = .cp n → Issues w s →
     let q := s.seq w.u
     let reached : Prop := ∀ u, u < 1068 → s.unitOff u = false →
       0 ≤ (SMap.get 0 s.unitEpoch u - (q.getS r1).setWidth 32).toInt
     (∃ t, exec (.commit w fd) s = .next t ∧ t.epoch = s.epoch + 1 ∧ t.unitEpoch = s.unitEpoch ∧
       SMap.get [] t.snaps t.epoch.toNat = epShadows s.regs ∧
       (t.seq w.u).getS fd = (if fd = 0 then 0 else (s.epoch + 1).zeroExtend 64) ∧ (t.seq w.u).pc = q.pc + 1 ∧
       ((∀ l, l < 12 → s.linkState l ≠ 2) → ∀ o, (∀ k, k < 8 → o ≠ Reg.cslDigest k) → t.reg o = s.reg o) ∧
       ∀ a, t.byte a = s.byte a) ∧
     (reached → ∃ t, exec (.fenceCfg w r1) s = .next t ∧ OnlySeq w s t ∧
       t.seq w.u = { q with run := .running, pc := q.pc + 1 }) ∧
     (¬reached → exec (.fenceCfg w r1) s = .next s)) ∧
  (∀ (n : Fin 4) (w : Issue) (rd ra : SReg) (imm : Imm) (s : State), w.u = .cp n → Issues w s →
     let q := s.seq w.u
     let taken : Prop := 0 < (q.getS ra - (q.step + 1)).toInt
     let next (pc : Nat) : Prop :=
       ∃ t, exec (.loopStep w rd ra imm) s = .next t ∧ (t.seq w.u).step = q.step + 1 ∧ (t.seq w.u).pc = pc ∧
         (t.seq w.u).getS rd = (if rd = 0 then 0 else q.step + 1) ∧ (∀ x, x ≠ rd → (t.seq w.u).getS x = q.getS x) ∧
         (t.seq w.u).h = q.h ∧ SMap.get 0 t.unitEpoch 1067 = s.epoch ∧
         ∀ m, m < 16 → (t.upd m).rowStep = q.step + 1
     ((∀ i, i < 32 → q.getH i ≠ .busy) → s.loopHeld (q.step + 1).toNat = false →
       (taken → 0 ≤ (q.pc : Int) + imm.toInt → (q.pc : Int) + imm.toInt < pcLimit w.u →
         next ((q.pc : Int) + imm.toInt).toNat) ∧
       (¬taken → next (q.pc + 1))) ∧
     ((∃ i, i < 32 ∧ q.getH i = .busy) → exec (.loopStep w rd ra imm) s = .next s))
/-! ### The engines (spec/04 to spec/10) -/

/-- The work at a place of a unit's issue order has ended with a code; its handle is still BUSY (R276). -/
def claimEnded (u : SeqId) (seq : Nat) (c : Code) (t : State) : Prop :=
  ∃ k ∈ (t.seq u).works, k.seq = seq ∧ k.status = .ended c

/-- HANDLE_DONE on a unit that runs a program: once the work that holds a handle has ended, the handle is DONE with its code,
the work leaves the issue order, the code enters the program's result by rank, and no other handle changes; a handle whose work
has not ended stays as it is (R276, R287). -/
def Obligations.HandleDone : Prop :=
  ∀ (u : SeqId) (h : BitVec 5) (s : State),
    let q := s.seq u
    (∀ w c, q.works.find? (fun x => x.handle == h.toNat) = some w → w.status = .ended c → (q.run = .running ∨ q.run = .waiting) →
      ∃ t, exec (.handleDone u h) s = .next t ∧ (t.seq u).getH h.toNat = .done (c.max w.acc) ∧
        (∀ i, i ≠ h.toNat → (t.seq u).getH i = q.getH i) ∧ (t.seq u).result = q.result.max (c.max w.acc) ∧
        (∀ x ∈ (t.seq u).works, x.seq ≠ w.seq) ∧ (t.seq u).pc = q.pc ∧ ∀ r, (t.seq u).getS r = q.getS r) ∧
    ((∀ w ∈ q.works, w.handle = h.toNat → w.status = .queued ∨ w.status = .running) → exec (.handleDone u h) s = .next s)

/-- DENSE_START of an LDS, MMA or MMAT that loads its stationary operand (plan `p` of its options and slots): where its checks
pass, every instruction on its array has streamed its last row (nothing runs, where it changes the mode) and the move unit is free
for a gathered feed, it joins its array's started instructions and waits for its load, under the retry policy of the last COMMIT
and in the mode its options name; a change of mode drops every loaded tile; accumulators, memory and other cores stay. -/
def Obligations.DenseStartRuns : Prop :=
  ∀ (c : Fin 800) (sa : Fin 4) (beats : BitVec 32) (s : State) (w : Work) (p : Plan),
    let u := SeqId.core c
    let k := s.core c.val
    nextDense (s.seq u).works sa.val = some w → s.mayStart (s.seq u) w = true → planOf w = some p → p.hs = true →
    p.wgr = false →
    (if p.mode = k.mode then
      ∀ x ∈ s.startedRuns c.val, x.1.array = p.array → x.2.load = false ∧ x.1.accTiles ≤ x.2.computed
      else k.idle = true) →
    p.ok s c.val (if p.mode = k.mode then k.tile p.array else none) = true → (p.gather = true → s.moveHeld c.val = false) →
    ∃ t r, exec (.denseStart c sa beats) s = .next t ∧ (t.core c.val).mode = p.mode ∧
      (t.core c.val).runsOf p.array = k.runsOf p.array ++ [r] ∧ r.work = w.seq ∧ r.load = true ∧ r.masked = [] ∧
      r.maxRetry = min 2 (s.denseCfg c.val 1 0) ∧ r.recomp = (s.denseCfg c.val 2 2 == 1) ∧ (t.core c.val).cfgEpoch = s.epoch ∧
      (p.mode ≠ k.mode → ∀ a, (t.core c.val).tile a = none) ∧ (p.mode = k.mode → (t.core c.val).tiles = k.tiles) ∧
      (t.core c.val).acc = k.acc ∧ (∀ d, d ≠ c.val → t.core d = s.core d) ∧
      (∃ x ∈ (t.seq u).works, x.seq = w.seq ∧ x.status = .running) ∧ ∀ a, t.byte a = s.byte a

/-- CVT, SCL and BAT do their work at their start: a CVT between operands that R299 refuses ends with 0x22 and writes nothing,
any other ends with another code; SCL reads its field of the amax slot into a chamber word, T sign-extended, or writes it there
clamped (T to -126 to 127, MARGIN to 0 to 7, CTRL to its bit 0), and no other byte. -/
def Obligations.DenseStartSclCvt : Prop :=
  ∀ (c : Fin 800) (sa : Fin 4) (beats : BitVec 32) (s : State) (w : Work) (i : Issue) (fd r4 : SReg) (d1 d2 : Slot) (opt : Opt)
    (f : BitVec 2),
    let u := SeqId.core c
    let d (n : Nat) : TD := td (w.descs.getD n 0)
    let v : Int := (w.vals.getD 0 0).toInt
    let slot := 0x3000_03FE_0000 + 128 * (d 0).amax
    let word := 0x2000_0000_0000 + 0x40_0000 * c.val + 4 * (w.vals.getD 0 0).toNat
    let ends (k : Code) (t : State) : Prop := exec (.denseStart c sa beats) s = .next t ∧ claimEnded u w.seq k t
    let stored (a n : Nat) (x : Int) : Prop := ∃ t, ends .ok t ∧
        (∀ k, k < n → t.byte (a + k) = BitVec.ofNat 8 ((x % (2 ^ (8 * n) : Nat)).toNat >>> (8 * k))) ∧
        ∀ b, b < a ∨ a + n ≤ b → t.byte b = s.byte b
    nextDense (s.seq u).works sa.val = some w → s.mayStart (s.seq u) w = true → w ∈ (s.seq u).works → w.status = .queued →
    (∀ x ∈ (s.seq u).works, x.race = []) → s.poison = [] →
    (w.instr = .cvt i fd d1 d2 opt →
      ((d 0).sizes ≠ (d 1).sizes ∨ (d 0).isStream = true ∨ (d 1).isStream = true →
        ∃ t, ends .desc t ∧ ∀ a, t.byte a = s.byte a) ∧
      (cvtOk c.val (d 0) (d 1) = true → ∃ t k, ends k t ∧ k ≠ .desc)) ∧
    (w.instr = .sclRead i fd d1 r4 f → (d 0).ok = true → (d 0).isStream = false → (d 0).amax < 1024 →
      (w.vals.getD 0 0).toNat < 524288 → f ≠ 3 →
      ∃ t, ends .ok t ∧ (∀ b, b < word ∨ word + 4 ≤ b → t.byte b = s.byte b) ∧ t.word32 word =
        if f = 0 then (s.byte (slot + 0x45) ++ s.byte (slot + 0x44)).signExtend 32
        else if f = 1 then (s.byte (slot + 0x46)).zeroExtend 32 else s.word32 (slot + 0x4C)) ∧
    (w.instr = .sclWrite i fd d1 r4 f → (d 0).ok = true → (d 0).isStream = false → (d 0).amax < 1024 →
      (f = 0 → stored (slot + 0x44) 2 (max (-126) (min 127 v))) ∧ (f = 1 → stored (slot + 0x46) 1 (max 0 (min 7 v))) ∧
      (f = 2 → stored (slot + 0x4C) 4 (v % 2)))

/-- STATIONARY_LOAD of an LDS: the tile read from its stationary operand is the loaded tile of its array, the array is free,
the beats of a load are counted, and the work has ended. Of another instruction that converts: it holds its tile and streams. No
access that nothing orders with the instruction shares its bytes, and it does not write its own operands. -/
def Obligations.StationaryLoadResult : Prop :=
  ∀ (c : Fin 800) (sa : Fin 4) (beats : BitVec 32) (s : State) (w : Work) (r : Dense) (p : Plan),
    let u := SeqId.core c
    let k := s.core c.val
    let a := if k.mode = 3 then sa.val else 0
    let tl : Tile := { (s.loadTile p.stat p.trn).1 with
      src := r.work, from_ := p.stat.bytes, held := s.atRuns p.stat.bytes }
    k.runsOf a = [r] → r.load = true → (s.seq u).works.find? (fun x => x.seq == r.work) = some w → planOf w = some p →
    p.array = a → (w.status = .queued ∨ w.status = .running) →
    (∀ x ∈ (s.seq u).works, x.race = []) → w.own c.val = [] → s.poison = [] →
    (p.lds = true → ∃ t x, exec (.stationaryLoad c sa beats) s = .next t ∧ (t.core c.val).runsOf a = [] ∧
      (t.core c.val).tile a = some tl ∧ (t.core c.val).acc = k.acc ∧ claimEnded u r.work x t ∧
      t.count (Reg.corLoadBeatCnt c.val) = sat (s.count (Reg.corLoadBeatCnt c.val) + modeRows p.mode) ∧
      ∀ b, t.byte b = s.byte b) ∧
    (p.lds = false → p.outp = 0 → ∃ t x, exec (.stationaryLoad c sa beats) s = .next t ∧ (t.core c.val).runsOf a = [x] ∧
      x.work = r.work ∧ x.load = false ∧ x.tile = r.tile ∧ x.stat = some tl ∧ (t.core c.val).tile a = some tl ∧
      ∀ b, t.byte b = s.byte b)

/-- TILE_CONVERT of a tile that overflowed through finite operands, with a recompute allowed and a retry left, counts a retry
and asks for the recompute, and no result is written; TILE_RECOMPUTE then computes the tile again with 2^-8 more and clears the
request. A TILE_CONVERT that converts the last tile ends the run and its work (R66, R67, R98, R100). -/
def Obligations.TileEvents : Prop :=
  ∀ (c : Fin 800) (sa : Fin 4) (beats : BitVec 32) (s : State) (w : Work) (r : Dense) (p : Plan) (tl : Tile) (h : HeldTile)
    (hs : List HeldTile),
    let u := SeqId.core c
    let k := s.core c.val
    let a := if k.mode = 3 then sa.val else 0
    k.runsOf a = [r] → r.stat = some tl → r.load = false → r.tiles = h :: hs →
    (s.seq u).works.find? (fun x => x.seq == r.work) = some w → planOf w = some p → p.array = a →
    (p.compressed = true → s.compressorOf c.val = some r.work) → (w.status = .queued ∨ w.status = .running) →
    (r.redo = false → h.ovr_ = true → p.inp ≠ 1 → r.recomp = true → r.tries ≠ r.maxRetry →
      ∃ t, exec (.tileConvert c sa beats) s = .next t ∧
        (t.core c.val).runsOf a = [{ r with tries := r.tries + 1, redo := true }] ∧
        t.count (Reg.corRetryCnt c.val) = sat (s.count (Reg.corRetryCnt c.val) + 1) ∧ (t.core c.val).acc = k.acc ∧
        ∀ b, t.byte b = s.byte b) ∧
    (r.redo = true → w.race = [] →
      ∃ t x, exec (.tileRecompute c sa) s = .next t ∧ (t.core c.val).runsOf a =
        [{ r with recs := r.recs + 1, redo := false, tiles := { h with ovr_ := x } :: hs }] ∧ ∀ b, t.byte b = s.byte b) ∧
    (r.redo = false → h.ovr_ = false → p.accTiles ≤ r.tile + 1 →
      ∃ t x, exec (.tileConvert c sa beats) s = .next t ∧ (t.core c.val).runsOf a = [] ∧ (t.core c.val).acc = k.acc ∧
        claimEnded u r.work x t)

/-- SPARSE_START runs the first queued instruction of the sparse order (not a BAT, which waits for DENSE_START): it does the
work of its operation on the operands copied at issue, and its work has ended with the operation's code. -/
def Obligations.SparseStartRuns : Prop :=
  ∀ (c : Fin 800) (s : State) (w : Work) (i : Issue) (fd r4 : SReg) (d1 d2 d3 d4 : Slot) (opt : Opt),
    let u := SeqId.core c
    let d (n : Nat) : TD := td (w.descs.getD n 0)
    let v := w.vals.getD 0 0
    let k := c.val
    let did (r : State × Code) : Prop := ∃ t, exec (.sparseStart c) s = .next t ∧ claimEnded u w.seq r.2 t ∧
      t.mem = r.1.mem ∧ t.cnt = r.1.cnt ∧ t.regs = r.1.regs ∧ t.cores = s.cores ∧ ∀ h, (t.seq u).getH h = (s.seq u).getH h
    (s.seq u).works.find? (fun x => isSparse x.instr && x.isQueued) = some w → s.mayStart (s.seq u) w = true →
    s.unitHeld c.val w.instr = false → (∀ x ∈ (s.seq u).works, x.race = []) → w.own c.val = [] →
    (w.instr = .gth i fd d1 d2 d3 opt → did (s.doGth s k (d 0) (d 1) (d 2))) ∧
    (w.instr = .sct i fd d1 d2 d3 opt → did (s.doSct s k (d 0) (d 1) (d 2))) ∧
    (w.instr = .sca i fd d1 d2 d3 opt → did (s.doSca s k (d 0) (d 1) (d 2) (claimOpt opt 7 1 == 1))) ∧
    (w.instr = .mrgMerge i fd d1 d2 d3 r4 → did (s.doMrgMerge s k (d 0) (d 1) (d 2) v.toNat)) ∧
    (w.instr = .mrgBitmap i fd d1 d2 d3 r4 → did (s.doMrgBitmap s k (d 0) (d 1) (d 2) v.toNat)) ∧
    (w.instr = .topk i fd d1 d2 d3 d4 opt →
      did (s.doTopk s k (d 0) (d 1) (d 2) (if claimOpt opt 7 1 = 1 then some (d 3) else none) (claimOpt opt 0 7).toNat)) ∧
    (w.instr = .seg i fd d1 d2 d3 opt → did (s.doSeg s k (d 0) (d 1) (d 2) (claimOpt opt 0 2).toNat)) ∧
    (w.instr = .cmp i fd d1 d2 opt → did (s.doCmp s k (d 0) (d 1) (claimOpt opt 0 1).toNat)) ∧
    (w.instr = .prn i fd d1 d2 r4 opt →
      did (s.doPrn s k (d 0) (d 1) v (claimOpt opt 1 1 == 1) ((claimOpt opt 0 1).toNat + 1))) ∧
    ((d 0).isStream = true → w.instr = .gth i fd d1 d2 d3 opt →
      ∃ t, exec (.sparseStart c) s = .next t ∧ claimEnded u w.seq .desc t ∧ ∀ a, t.byte a = s.byte a)

/-- CHAMBER_ACCESS in a form that a bank serves (whole words, one row or an aligned part of it, on the port's boundary, within its
beat): a write stores the bytes it selects and no other, a read changes no byte; a conflict and a secondary path are counted; a
corrected word is counted; a word found uncorrectable is recorded so, and counted; any other form does nothing (R185, R187, R192,
R194, R198). MESH_PACKET_RECEIVE puts a packet into the buffer of its channel at its next output while there is room, takes it from
its neighbour in its channel's turn, counts a corrected and an uncorrectable flit, and poisons what the packet belongs to (R241,
R242, R245). -/
def Obligations.ChamberAndMesh : Prop :=
  (∀ (c : Fin 800) (cls : Fin 7) (load : Bool) (off : BitVec 21) (len : Fin 129) (bs : List (Option Byte)) (waited : Bool)
     (s : State), s.domUp (5 + grottoOf c.val) = true → s.poison = [] → s.fresh = [] →
     let o := off.toNat
     let a := 0x2000_0000_0000 + 0x40_0000 * c.val + o
     let form (n : Nat) : Prop := n ≠ 0 ∧ n % 4 = 0 ∧ n ≤ portBytes cls.val ∧ 128 % n = 0 ∧ o % n = 0 ∧
       o % (match cls.val with | 0 => 4 | 1 => 128 | 2 => 128 | 3 => 128 | 4 => 64 | 5 => 64 | _ => 4) = 0
     let counted (t : State) : Prop :=
       t.count (Reg.spdBankConflictCnt c.val) = (if waited then sat (s.count (Reg.spdBankConflictCnt c.val) + 1)
         else s.count (Reg.spdBankConflictCnt c.val)) ∧
       t.count (Reg.spdDenseSecCnt c.val) = (if s.viaSecondary c.val cls.val (bankOf o) load
         then sat (s.count (Reg.spdDenseSecCnt c.val) + 1) else s.count (Reg.spdDenseSecCnt c.val))
     (form bs.length → ∃ t, exec (.chamberAccess c cls load off len (some bs) waited []) s = .next t ∧ counted t ∧
       (∀ k, k < bs.length → t.byte (a + k) = ((bs.getD k none).getD (s.byte (a + k)))) ∧
       (∀ b, b < a ∨ a + bs.length ≤ b → t.byte b = s.byte b) ∧ t.regs = s.regs ∧ t.seqs = s.seqs ∧ t.poison = []) ∧
     (form len.val → ∃ t, exec (.chamberAccess c cls load off len none waited []) s = .next t ∧ counted t ∧
       (∀ b, t.byte b = s.byte b) ∧ t.regs = s.regs ∧ t.seqs = s.seqs ∧ t.poison = []) ∧
     (form 4 → ∃ t, exec (.chamberAccess c cls load off 4 none waited [.corrected]) s = .next t ∧ counted t ∧ t.poison = [] ∧
       t.count (Reg.spdEccCorrCnt c.val) = sat (s.count (Reg.spdEccCorrCnt c.val) + 1) ∧ ∀ b, t.byte b = s.byte b) ∧
     (form 4 → ∃ t, exec (.chamberAccess c cls load off 4 none waited [.uncorrectable]) s = .next t ∧ counted t ∧
       t.poison = [a] ∧ t.count (Reg.spdEccUncorrCnt c.val) = sat (s.count (Reg.spdEccUncorrCnt c.val) + 1) ∧
       ∀ b, t.byte b = s.byte b) ∧
     (¬form len.val → exec (.chamberAccess c cls load off len none waited []) s = .next s)) ∧
  (∀ (c dst : Fin 800) (ch : Fin 4) (e : Ecc) (own : PacketOwner) (s : State), s.domUp 4 = true →
     let out := meshOut c.val dst.val
     let p : MeshPkt := ⟨dst.val, own, false⟩
     (dst ≠ c → s.vcRoom c.val ch.val p = true → ∃ t, exec (.meshPacketReceive c 4 ch dst e own) s = .next t ∧
       t = { s with mesh := t.mesh, cnt := t.cnt } ∧
       t.vcBuf c.val out ch.val = s.vcBuf c.val out ch.val ++ [{ p with poisoned := e == .uncorrectable }]) ∧
     (s.vcRoom c.val ch.val p = false → exec (.meshPacketReceive c 4 ch dst e own) s = .next s) ∧
     exec (.meshPacketReceive c 4 ch c .clean own) s = .next s ∧
     exec (.meshPacketReceive c 4 ch c .corrected own) s = .next (s.bump (Reg.nocLinkCorrCnt c.val) 1) ∧
     (∀ (u : SeqId) (h : BitVec 5), ∃ t, exec (.meshPacketReceive c 4 ch c .uncorrectable (.work u h)) s = .next t ∧
       t.count (Reg.nocLinkUncorrCnt c.val) = sat (s.count (Reg.nocLinkUncorrCnt c.val) + 1) ∧
       ∀ w ∈ (t.seq u).works, w.handle = h.toNat → Code.rank .ecc ≤ w.acc.rank) ∧
     (∀ (d : Fin 4) (n : Nat) (x : MeshPkt) (l : List MeshPkt), meshNext c.val d.val = some n →
       s.vcBuf n (meshBack d.val) ch.val = x :: l →
       (s.vcTurn n (meshBack d.val) = some ch.val → x.dst = c.val → x.poisoned = false →
         ∃ t, exec (.meshPacketReceive c d.castSucc ch dst .clean own) s = .next t ∧
           t = { s with mesh := t.mesh, meshTurn := t.meshTurn } ∧ t.vcBuf n (meshBack d.val) ch.val = l ∧
           SMap.get 3 t.meshTurn (4 * n + meshBack d.val) = ch.val) ∧
       (s.vcTurn n (meshBack d.val) ≠ some ch.val →
         exec (.meshPacketReceive c d.castSucc ch dst .clean own) s = .next s)))

/-- SIP_EMIT of one I8 element of a row-major source in a chamber copies the byte to the next position of the destination's
walk and no other byte; SIP_PAD of one element writes the fill there where the destination writes pads, and only passes the
position where it does not (R221, R222, R226). -/
def Obligations.SiphonEmitAndPad : Prop :=
  ∀ (n : Fin 216) (id : Nat) (s : State) (t : Transfer) (m : List Nat), s.xfer n.val id = some t → t.mode = .prog →
    t.ended = false → t.waiting = false → t.spoiled = false → t.drv = false → s.poison = [] → s.pools = [] →
    (∀ e ∈ s.upds, e.2.inv = none) →
    let w := t.prog.getD t.pc 0
    let a := td t.src
    let b := td t.dst
    let from_ := (a.elemBit m).toNat / 8
    let to_ := (b.elemBit (b.walkAt t.pos)).toNat / 8
    let inChamber (x : Nat) : Prop := ∃ c off, s.target x = .chamber c off
    (w.extractLsb' 0 24).toNat = 1 → b.fm = .i8 → b.lay = .rm → b.hasBlocks = false → t.pos < b.count → inChamber to_ →
    s.meets (t.access s true) to_ 1 = false →
    (a.fm = .i8 → a.lay = .rm → a.hasBlocks = false → (w.extractLsb' 58 6).toNat = 7 → inChamber from_ →
      s.meets (t.access s false) from_ 1 = false → t.mapped a (emitCoords s t (w.extractLsb' 55 3).toNat 0) = some m →
      ∃ s', exec (.sipEmit n id) s = .next s' ∧ s'.byte to_ = s.byte from_ ∧ (∀ x, x ≠ to_ → s'.byte x = s.byte x) ∧
        s'.xfer n.val id = some { t with pc := t.pc + 1, pos := t.pos + 1 }) ∧
    ((w.extractLsb' 58 6).toNat = 6 →
      ∃ s', exec (.sipPad n id) s = .next s' ∧
        s'.byte to_ = (if b.padw = true then BitVec.ofNat 8 (b.fillCode (w.extractLsb' 24 16).toNat) else s.byte to_) ∧
        (∀ x, x ≠ to_ → s'.byte x = s.byte x) ∧ s'.xfer n.val id = some { t with pc := t.pc + 1, pos := t.pos + 1 })

/-- TRANSFER_START of a PROG transfer that R217 accepts adds the transfer to the siphon at its program's first instruction, with
its barriers and targets from the parameter block, and its work runs; a program without END, or one that R217 refuses, ends the
work with 0x22. In mode PACK and UNPACK it moves the stream and has ended; in mode ROPE it stages the tile that it has read.
TRANSFER_COMPLETE of an ended transfer removes it and ends its work with its code; mode PACK and UNPACK write their result. -/
def Obligations.TransferLife : Prop :=
  ∀ (n : Fin 216) (u : SeqId) (s : State) (w : Work) (i : Issue) (fd r4 : SReg) (d1 d2 d3 : Slot) (siph : BitVec 8)
    (slot : BitVec 4) (drv : Bool),
    (nextXfr (s.seq u) n.val = some w → s.mayStart (s.seq u) w = true → s.sipActive n.val < 64 →
      s.domUp (sipDom n.val) = true → s.sipOff n.val = false → w.instr = .xfrProg i fd d1 d2 d3 r4 siph slot drv →
      let t0 := { newTransfer (s.siph n.val).nextId u.num w .prog with slot := slot.toNat, drv := drv }
      (∀ prog, sipProgram (s.sipSlot n.val slot.toNat) = some prog → progOk t0 prog = true →
        ∃ t, exec (.transferStart n u) s = .next t ∧ (∃ x ∈ (t.seq u).works, x.seq = w.seq ∧ x.status = .running) ∧
          (t.siph n.val).transfers = (s.siph n.val).transfers ++ [{ t0 with prog := prog }] ∧ ∀ a, t.byte a = s.byte a) ∧
      (sipProgram (s.sipSlot n.val slot.toNat) = none ∨
          (∃ prog, sipProgram (s.sipSlot n.val slot.toNat) = some prog ∧ progOk t0 prog = false) →
        ∃ t, exec (.transferStart n u) s = .next t ∧ claimEnded u w.seq .desc t ∧
          (t.siph n.val).transfers = (s.siph n.val).transfers)) ∧
    (nextXfr (s.seq u) n.val = some w → s.mayStart (s.seq u) w = true → s.sipActive n.val < 64 →
      s.domUp (sipDom n.val) = true → s.sipOff n.val = false →
      let pack (m : XMode) : Transfer := { newTransfer (s.siph n.val).nextId u.num w m with
        result := storeBase u + 4 * (w.vals.getD 0 0).toNat }
      let moved (m : XMode) : Prop := ∃ t x, exec (.transferStart n u) s = .next t ∧
        (t.siph n.val).transfers = (s.siph n.val).transfers ++ [x] ∧ x.id = (s.siph n.val).nextId ∧ x.mode = m ∧
        x.ended = true ∧ x.code = (s.movePacked n.val (pack m)).2.code ∧ t.mem = (s.movePacked n.val (pack m)).1.mem ∧
        ∃ y ∈ (t.seq u).works, y.seq = w.seq ∧ y.status = .running
      (w.instr = .xfrPack i fd d1 d2 d3 r4 siph → packOk (pack .pack) (r4 != 0) = true → moved .pack) ∧
      (w.instr = .xfrUnpack i fd d1 d2 d3 r4 siph → packOk (pack .unpack) (r4 != 0) = true → moved .unpack) ∧
      (∀ p, w.instr = .xfrRope i fd d1 d2 r4 siph → ropePass s.nextPass u.num w.seq (some n.val) (w.block.drop 0x20) = some p →
        let a := td (w.descs.getD 0 0)
        let r := s.sipRead n.val (w.access u.num false) a.base (128 * p.len)
        a.isRegion = true → a.size 0 = 128 * p.len → barsOk w.block = true → (s.launchBuffers n.val).length < 2 →
        r.fault = none →
        ∃ t c, exec (.transferStart n u) s = .next t ∧ (∀ b, t.byte b = s.byte b) ∧
          t.passes = s.passes ++ [{ p with data := r.bytes, code := c, fence := w.fence }] ∧
          ∃ y ∈ (t.seq u).works, y.seq = w.seq ∧ y.status = .running)) ∧
    (∀ id x k, s.xfer n.val id = some x → x.ended = true → k ∈ (s.seq (SeqId.ofNum x.unit)).works → k.seq = x.work →
      k.status = .running → s.poison = [] → s.acksOpen n.val x = false →
      ∃ t, exec (.transferComplete n id) s = .next t ∧ t.xfer n.val id = none ∧
        claimEnded (SeqId.ofNum x.unit) x.work x.code t ∧
        ((x.mode = .prog ∨ x.mode = .rope) → ∀ a, t.byte a = s.byte a) ∧
        ((x.mode = .pack ∨ x.mode = .unpack) → ∀ a, (a < x.result + 0x20 ∨ x.result + 0x30 ≤ a) →
          a < 0x4000_0000_0000 → x.result < 0x3FFF_0000_0000 → t.byte a = s.byte a))

/-- The registers of a siphon program change as R218 to R220 say: LOOP counts and branches while its counter is below the
count, ADD and MOD move one coordinate as an s32, REV and ROT change one dimension, END ends the program. WAITB advances its target
and goes on, or waits at a chamber's counter that has not reached it. TLB_INV empties the TLB of every siphon and nothing else; TLB_WALK_DONE of a siphon with a transfer, for an address that misses its TLB and whose walk
finds a leaf, puts the translation first and counts the miss. -/
def Obligations.SiphonRegistersTlb : Prop :=
  (∀ (n : Fin 216) (id : Nat) (s : State) (t : Transfer), s.xfer n.val id = some t → t.mode = .prog → t.ended = false →
     t.waiting = false → t.x.length = 6 → t.c.length = 6 → t.rot.length = 6 → t.rev.length = 6 →
     let w := t.prog.getD t.pc 0
     let d := (w.extractLsb' 55 3).toNat
     let imm := (w.extractLsb' 0 32).toNat
     let lvl := (w.extractLsb' 52 3).toNat
     let x := w.extractLsb' 46 1
     let op := (w.extractLsb' 58 6).toNat
     let as32 (z : Int) : Int := (BitVec.ofInt 32 z).toInt
     let becomes (c : Instr) (t' : Transfer) : Prop := ∃ s', exec c s = .next s' ∧ s'.xfer n.val id = some t' ∧
       s' = { s with siphons := s'.siphons } ∧ (∀ m, m ≠ n.val → s'.siph m = s.siph m) ∧ (s'.siph n.val).tlb = (s.siph n.val).tlb
     d < 6 → lvl < 6 →
     (op = 1 →
       let k := if x = 1 then t.operand else imm
       let c := (t.c.getD lvl 0 + 1) % 2 ^ 32
       (c < k → becomes (.sipLoop n id) { t with c := t.c.set lvl c, pc := (w.extractLsb' 47 5).toNat }) ∧
       (¬c < k → becomes (.sipLoop n id) { t with c := t.c.set lvl 0, pc := t.pc + 1 })) ∧
     (op = 2 → x = 0 →
       becomes (.sipAdd n id) { t with x := t.x.set d (as32 (t.x.getD d 0 + imm)), pc := t.pc + 1 }) ∧
     (op = 3 → becomes (.sipMod n id) { t with x := t.x.set d (as32 (t.x.getD d 0 % (imm : Int))), pc := t.pc + 1 }) ∧
     (op = 4 → becomes (.sipRev n id) { t with rev := t.rev.set d (1 - t.rev.getD d 0), pc := t.pc + 1 }) ∧
     (op = 5 → becomes (.sipRot n id) { t with
       rot := t.rot.set d (imm % (td (if t.drv then t.dst else t.src)).size d), pc := t.pc + 1 }) ∧
     (op = 0 → becomes (.sipEnd n id) { t with ended := true }) ∧
     (∀ (h k o : Nat),
       let va := t.bar.getD x.toNat 0 % 2 ^ 48
       let tg := t.t.getD x.toNat 0 + w.extractLsb' 0 32
       let t' := { t with t := t.t.set x.toNat tg }
       op = 8 → t.t.length = 2 → inChamberWindow va = true → s.translate 0 va 0 true false = .local_ h → h % 4 = 0 →
       s.target h = .chamber k o → s.poison = [] →
       (0 ≤ (s.word32 h - tg).toInt → becomes (.sipWaitb n id) { t' with pc := t.pc + 1 }) ∧
       ((s.word32 h - tg).toInt < 0 → ∃ s' y, exec (.sipWaitb n id) s = .next s' ∧
         s'.xfer n.val id = some { t' with waiting := true } ∧ s'.watches = s.watches ++ [y] ∧ y.home = h ∧ y.target = tg ∧
         y.who = .sip n id ∧ y.fired = false ∧ ∀ a, s'.byte a = s.byte a))) ∧
  (∀ (s : State),
     (∃ t, exec .tlbInv s = .next t ∧ t = { s with siphons := t.siphons } ∧ ∀ n, n < 216 →
       t.siph n = { s.siph n with tlb := [] }) ∧
     (∀ (n : Fin 216) (va : BitVec 48) (l : List Nat) (e : Word) (sh : Nat),
       let root := s.epReg (sipUnit n.val) Reg.sipPtRoot
       (s.siph n.val).transfers ≠ [] → inChamberWindow va.toNat = false → root.getLsbD 0 = true →
       (∀ x ∈ (s.siph n.val).tlb, x.vpage ≠ va.toNat >>> x.shift) → s.walk root va.toNat = (l, .leaf e sh) →
       ∃ t, exec (.tlbWalkDone n va) s = .next t ∧
         (t.siph n.val).tlb = (⟨va.toNat >>> sh, sh, e⟩ :: (s.siph n.val).tlb).take 256 ∧
         t.count (Reg.sipTlbMissCnt n.val) = sat (s.count (Reg.sipTlbMissCnt n.val) + 1) ∧ ∀ a, t.byte a = s.byte a))

/-- A rope pass: ROPE_LAUNCH puts a staged tile on its way, or that of a core's ROP, read from its chamber, whose work then runs;
ROPE_TAKE at a core whose take bit is set writes the tile at DEST in that core's chamber and no other byte (here without a counter
word), counting the beats that it held the rope, a core whose bit is clear only passes it on; after the last position
ROPE_PASS_REPORT completes the work with the pass's code (R248 to R253). -/
def Obligations.RopePasses : Prop :=
  (∀ (c : Fin 800) (h : BitVec 5) (s : State) (w : Work) (i : Issue) (fd : SReg) (a1 : AReg) (p : Pass),
    let u := SeqId.core c
    let a := 0x2000_0000_0000 + 0x40_0000 * c.val + p.src
    (s.seq u).works.find? (fun w => w.handle == h.toNat && w.status == .queued) = some w → w.instr = .rop i fd a1 →
    s.mayStart (s.seq u) w = true → ropePass s.nextPass c.val w.seq none w.block = some p → s.poison = [] →
    s.meets (w.access c.val false) a (128 * p.len) = false →
    ∃ t, exec (.ropeLaunch (.core c h)) s = .next t ∧ t.nextPass = s.nextPass + 1 ∧
      t.passes = s.passes ++ [{ p with data := s.rdBytes a (128 * p.len), code := .ok, fence := w.fence, launched := true }] ∧
      (∃ x ∈ (t.seq u).works, x.seq = w.seq ∧ x.status = .running) ∧ ∀ b, t.byte b = s.byte b) ∧
  (∀ (s : State) (x : Pass) (stall : BitVec 32), s.passes = [x] → s.poison = [] →
    (x.launched = false → ∃ t, exec (.ropeLaunch (.staged x.id)) s = .next t ∧ t.passes = [{ x with launched := true }] ∧
      t = { s with passes := t.passes }) ∧
    (x.launched = true → x.pos < x.span →
      (x.take.testBit x.pos = false → ∃ t, exec (.ropeTake x.id stall) s = .next t ∧ t.passes = [{ x with pos := x.pos + 1 }] ∧
        t = { s with passes := t.passes }) ∧
      (x.take.testBit x.pos = true → s.fwdOnly x.nextCore = false → x.ctr = none → x.nextCore < 800 →
        x.dest + x.data.length ≤ 0x20_0000 →
        let a := 0x2000_0000_0000 + 0x40_0000 * x.nextCore + x.dest
        s.meets ⟨x.unit, some (x.work, x.fence), true⟩ a x.data.length = false →
        ∃ t, exec (.ropeTake x.id stall) s = .next t ∧ t.passes = [{ x with pos := x.pos + 1 }] ∧
          (∀ k, k < x.data.length → t.byte (a + k) = x.data.getD k 0) ∧
          (∀ b, b < a ∨ a + x.data.length ≤ b → t.byte b = s.byte b) ∧
          t.count (Reg.nocRopeTakeCnt x.nextCore) = sat (s.count (Reg.nocRopeTakeCnt x.nextCore) + 1) ∧
          (s.count (Reg.nocRopeStallCnt x.nextCore) ≤ 2 ^ 48 - 1 →
            t.count (Reg.nocRopeStallCnt x.nextCore) = sat (s.count (Reg.nocRopeStallCnt x.nextCore) + stall.toNat))) ∧
      (x.take.testBit x.pos = true → s.fwdOnly x.nextCore = true → ∃ t, exec (.ropeTake x.id stall) s = .next t ∧
        t.passes = [{ x with pos := x.pos + 1, skips := x.skips + 1, code := x.code.max .counts }] ∧
        t.count (Reg.nocRopeSkipCnt x.nextCore) = sat (s.count (Reg.nocRopeSkipCnt x.nextCore) + 1) ∧
        ∀ b, t.byte b = s.byte b)) ∧
    (x.launched = true → x.span ≤ x.pos → ∀ w ∈ (s.seq (SeqId.ofNum x.unit)).works, w.seq = x.work → w.status = .running →
      ∃ t, exec (.ropePassReport x.id) s = .next t ∧ t.passes = [] ∧ claimEnded (SeqId.ofNum x.unit) x.work x.code t))

/-- Barriers: BAR_ARRIVAL_APPLY with its operations complete adds its increment to a counter of this device modulo 2^32 and ends
with 0x00; one for a counter at a peer leaves as a request, and its work runs. BAR.WAIT passes a counter whose signed difference from the target is not negative; otherwise it is registered at the
counter's home and waits. A released wait goes on behind its BAR.WAIT at BAR_NOTIFY, and at BAR_POLL_READ where it polls
(R255 to R259). -/
def Obligations.Barriers : Prop :=
  ∀ (u : SeqId) (s : State),
    (∀ (h : BitVec 5) (k : Work) (w : Issue) (fd r2 : SReg) (a1 : AReg) (opt : Opt) (a : Nat),
      (s.seq u).works = [k] → k.handle = h.toNat → k.status = .queued → k.instr = .barArrive w fd a1 r2 opt →
      k.after = [] → k.fence ≤ k.seq → s.paused = false → (k.vals.getD 0 0).toNat % 4 = 0 →
      s.storesOpen u k = false →
      let home := s.counterHome (s.epReg u.epochUnit Reg.sipPtRoot) (k.vals.getD 0 0).toNat 0 true
      (home = .local_ a → s.poison = [] → s.clearing a = false → s.training a 4 = false → a % 4 = 0 →
        ∃ t, exec (.barArrivalApply u h) s = .next t ∧ claimEnded u k.seq .ok t ∧
          t.word32 a = s.word32 a + (claimOpt opt 0 16).zeroExtend 32 ∧ ∀ b, b < a ∨ a + 4 ≤ b → t.byte b = s.byte b) ∧
      (∀ d, home = .remote d a → (s.linkTo d a).2.isSome = true →
        ∃ t, exec (.barArrivalApply u h) s = .next t ∧ (∃ x ∈ (t.seq u).works, x.seq = k.seq ∧ x.status = .running) ∧
          (∃ r ∈ t.reqs, r.dev = d ∧ r.purpose = .arrive u.num k.seq) ∧ ∀ b, t.byte b = s.byte b)) ∧
    (∀ (w : Issue) (a1 : AReg) (r2 : SReg) (a : Nat), w.u = u → Issues w s → s.poison = [] →
      let va := ((s.seq u).getA a1).toNat
      let target := ((s.seq u).getS r2).setWidth 32
      va % 4 = 0 → s.counterHome (s.epReg u.epochUnit Reg.sipPtRoot) va 0 false = .local_ a → s.clearing a = false → a % 4 = 0 →
      (0 ≤ (s.word32 a - target).toInt → ∃ t, exec (.barWait w a1 r2) s = .next t ∧ OnlySeq w s t ∧
        t.seq u = { s.seq u with run := .running, pc := (s.seq u).pc + 1 }) ∧
      ((s.word32 a - target).toInt < 0 → ∃ t x, exec (.barWait w a1 r2) s = .next t ∧
        t.seq u = { s.seq u with run := .waiting, barWait := some (a, target) } ∧ t.watches = s.watches ++ [x] ∧
        x.home = a ∧ x.target = target ∧ x.who = .seq u ∧ x.fired = false ∧ ∀ b, t.byte b = s.byte b)) ∧
    (∀ x, s.watches = [x] → x.who = .seq u → (s.seq u).barWait.isSome = true →
      (x.fired = true → ∃ t, exec (.barNotify (.seq u)) s = .next t ∧ t.watches = [] ∧
        t.seq u = { s.seq u with run := .running, pc := (s.seq u).pc + 1, barWait := none }) ∧
      (x.poll = true → s.poison = [] → s.clearing x.home = false → s.clearing (x.home + 3) = false →
        0 ≤ (s.counterAt x.home - x.target).toInt → ∃ t, exec (.barPollRead (.seq u)) s = .next t ∧ t.watches = [] ∧
        t.seq u = { s.seq u with run := .running, pc := (s.seq u).pc + 1, barWait := none }))

/-! ### Commands, queues, pools and epochs (spec/13_command_processing.md) -/

/-- The command of a queue and index that runs, with its operation (R326). -/
def claimRuns (q : Fin 64) (idx : BitVec 32) (op : Nat) (c : Cmd) (s : State) : Prop :=
  s.cmdOf q idx op = some c ∧ s.cmds.filter (fun x => x.q == q.val && x.idx == idx.toNat && !x.finished) = [c] ∧
  c.q = q.val ∧ c.idx = idx.toNat ∧ c.finished = false ∧ c.cancelled = false

/-- The command has ended with a code and INFO; its record waits behind those that ended before it (R331). -/
def claimDone (c : Cmd) (code : Code) (info : Nat) (s t : State) : Prop :=
  ∃ d, t.cmds = s.cmds.filter (fun x => !(x.q == c.q && x.idx == c.idx && !x.finished)) ++ [d] ∧ d.finished = true ∧
    d.code = c.code.max code ∧ d.info = info ∧ d.q = c.q ∧ d.idx = c.idx ∧ d.entry = c.entry

/-- SQ_DOORBELL: a tail ahead of the head and of the last tail, by no more than the ring holds, becomes the tail; one that does
not advance is ignored and counted; one past the ring stops the queue with REASON 1 (R323, R324). -/
def Obligations.DoorbellRules : Prop :=
  ∀ (q : Fin 64) (tl : BitVec 32) (s : State), s.domUp 4 = true →
    let head := (s.reg (Reg.ctlSqStat q.val)).setWidth 32
    let old := (s.reg (Reg.ctlSqDoorbell q.val)).setWidth 32
    let n := ringSize (s.reg (Reg.ctlSqCfg q.val))
    (0 < (tl - head).toInt → 0 ≤ (tl - old).toInt → (tl - head).toInt ≤ n →
      ∃ t, exec (.sqDoorbell q tl) s = .next t ∧ (t.reg (Reg.ctlSqDoorbell q.val)).setWidth 32 = tl ∧
        (∀ o, o ≠ Reg.ctlSqDoorbell q.val → t.reg o = s.reg o) ∧ t = { s with regs := t.regs }) ∧
    ((tl - head).toInt ≤ 0 ∨ (tl - old).toInt < 0 → exec (.sqDoorbell q tl) s = .next (s.bump Reg.ctlRingErrCnt 1)) ∧
    (0 < (tl - head).toInt → 0 ≤ (tl - old).toInt → n < (tl - head).toInt → s.bit (Reg.ctlSqStat q.val) 63 = false →
      ∃ t, exec (.sqDoorbell q tl) s = .next t ∧ t.bit (Reg.ctlSqStat q.val) 63 = true ∧
        t.fld (Reg.ctlSqStat q.val) 55 48 = 1 ∧ t.reg (Reg.ctlSqDoorbell q.val) = s.reg (Reg.ctlSqDoorbell q.val) ∧
        t.count Reg.ctlRingErrCnt = sat (s.count Reg.ctlRingErrCnt + 1))

/-- COMMAND_FETCH of the only ring of a control processor that holds an entry, in local memory: the entry joins the fetched
commands and HEAD rises by 1. COMMAND_START: the next command of a queue without FENCE runs under the control cluster's epoch;
an entry that R326 refuses ends at once with 0x22. -/
def Obligations.CommandLife : Prop :=
  ∀ (q : Fin 64) (s : State),
    (∀ (n : Fin 4) (k : Fin 16),
      let o := 16 * n.val + k.val
      let cfg := s.reg (Reg.ctlSqCfg o)
      let head := s.fld (Reg.ctlSqStat o) 31 0
      let a := ringBase cfg + 64 * (head % ringSize cfg)
      s.isOff 7 51 = false → (s.cmds.filter fun c => c.q / 16 == n.val).length < 1024 → s.cancels = [] →
      s.bit (Reg.ctlSqCfg o) 63 = true → s.bit (Reg.ctlSqStat o) 63 = false → 0 < dist32 (s.sqTail o) (s.sqHead o) →
      s.cqOn (s.sqCq o) = true → s.cqFull (s.sqCq o) = false →
      (∀ j : Fin 16, j ≠ k → s.bit (Reg.ctlSqCfg (16 * n.val + j.val)) 63 = false) →
      s.ringPlace a = true → s.accessFail a = none → s.training a 64 = false → s.rdBad a 64 = false →
      ∃ t, exec (.commandFetch n) s = .next t ∧ t.cmds = s.cmds ++ [newCmd o head (s.rdBytes a 64)] ∧
        t.sqHead o = (head + 1) % 2 ^ 32 ∧ (∀ b, t.byte b = s.byte b) ∧ t.out = s.out) ∧
    (∀ c, s.cmds.filter (fun x => x.q == q.val) = [c] → c.running = false → c.finished = false → c.cancelled = false →
      (c.ok = true → ∃ t, exec (.commandStart q) s = .next t ∧
        t.cmds.filter (fun x => x.q == q.val) =
          [{ c with running := true, epoch := (SMap.get 0 s.unitEpoch 1067).toNat }] ∧ t = { s with cmds := t.cmds }) ∧
      (c.ok = false → ∃ t d, exec (.commandStart q) s = .next t ∧ t.cmds.filter (fun x => x.q == q.val) = [d] ∧
        d.finished = true ∧ d.code = .desc ∧ t = { s with cmds := t.cmds }))

/-- NOP, POOL in its three actions, COMMIT without WAITALL and CANCEL of a queue with nothing in its range end at once, with
INFO as R326 says: 0 for NOP, the discarded entries, the new epoch, the number of commands cancelled. An opened or closed pool
keeps its entries where nothing waits there. CANCEL of a queue whose one command in the range has not started ends that command
with 0x11, and its own INFO is 1 (R328). -/
def Obligations.ImmediateCancel : Prop :=
  (∀ (q : Fin 64) (idx : BitVec 32) (c : Cmd) (s : State),
     let p := c.fld 8 1
     let ends (i : Instr) (info : Nat) (t : State) : Prop := exec i s = .next t ∧ claimDone c .ok info s t
     (claimRuns q idx 0 c s → ∃ t, ends (.cmdNop q idx) 0 t ∧ t = { s with cmds := t.cmds }) ∧
     (claimRuns q idx 4 c s → s.poolWaits p = [] →
       (c.fld 9 1 = 0 → ∃ t, ends (.poolOpen q idx) 0 t ∧ t.pool p = { s.pool p with isOpen := true } ∧
         t = { s with cmds := t.cmds, pools := t.pools }) ∧
       (c.fld 9 1 = 1 → ∃ t, ends (.poolClose q idx) 0 t ∧ t.pool p = { s.pool p with isOpen := false } ∧
         t = { s with cmds := t.cmds, pools := t.pools }) ∧
       (c.fld 9 1 = 2 → ∃ t, ends (.poolDiscard q idx) ((s.pool p).entries.length % 2 ^ 32) t ∧ t.pool p = {} ∧
         t = { s with cmds := t.cmds, pools := t.pools })) ∧
     (claimRuns q idx 6 c s → c.begun = false → (c.fld 1 1).testBit 2 = false →
       ∃ t, ends (.commitCmd q idx) (s.epoch + 1).toNat t ∧ t.epoch = s.epoch + 1 ∧
         SMap.get [] t.snaps t.epoch.toNat = epShadows s.regs ∧ t.unitEpoch = s.unitEpoch) ∧
     (claimRuns q idx 5 c s →
       (∀ x ∈ s.cmds, x.finished = true ∨ x.q ≠ c.fld 8 1 ∨ inCancel (c.fld 0xC 4) (c.fld 0x10 4) x.idx = false) →
       s.sqTail (c.fld 8 1) = s.sqHead (c.fld 8 1) →
       ∃ t, ends (.cancel q idx) 0 t ∧ t = { s with cmds := t.cmds })) ∧
  (∀ (q : Fin 64) (idx : BitVec 32) (c x : Cmd) (s : State), claimRuns q idx 5 c s →
     s.cmds.filter (fun y => y.q == c.fld 8 1 && inCancel (c.fld 0xC 4) (c.fld 0x10 4) y.idx && !y.finished) = [x] →
     s.cmds.filter (fun y => y.q == x.q && y.idx == x.idx && !y.finished) = [x] →
     x.running = false → (x.q ≠ q.val ∨ x.idx ≠ idx.toNat) → s.sqTail (c.fld 8 1) = s.sqHead (c.fld 8 1) →
     ∃ t d, exec (.cancel q idx) s = .next t ∧ d ∈ t.cmds ∧ d.q = x.q ∧ d.idx = x.idx ∧ d.finished = true ∧
       d.code = .cancelled ∧ ∃ e ∈ t.cmds, e.q = q.val ∧ e.idx = idx.toNat ∧ e.finished = true ∧ e.info = 1)

/-- PROG on an idle control processor without an argument block starts its program at ENTRY with every register 0 and the step
STEP0; CORES launches its block on idle cores with step 0, as RUN does; COPY of LEN bytes between local regions that do not
overlap, all reachable and without uncorrectable units, copies them and ends with INFO LEN (R326, R329). -/
def Obligations.WorkCommands : Prop :=
  ∀ (q : Fin 64) (idx : BitVec 32) (c : Cmd) (s : State), poisonOk s = true →
    (claimRuns q idx 1 c s → c.begun = false → c.fld 0x18 8 = 0 →
      ∀ n : Fin 4, n.val = q.val / 16 → (s.seq (.cp n)).run = .idle →
      ∃ t, exec (.prog q idx) s = .next t ∧ (t.seq (.cp n)).run = .running ∧ (t.seq (.cp n)).pc = c.fld 8 4 ∧
        (t.seq (.cp n)).step = BitVec.ofNat 64 (c.fld 0x10 8) ∧ (∀ r, (t.seq (.cp n)).getS r = 0) ∧
        (∀ h, (t.seq (.cp n)).getH h = .free) ∧ (t.seq (.cp n)).launcher = .cmd q.val idx.toNat ∧
        (∀ m, m < 16 → (t.upd m).rowStep = BitVec.ofNat 64 (c.fld 0x10 8)) ∧ ∀ u, u ≠ .cp n → t.seq u = s.seq u) ∧
    (claimRuns q idx 2 c s → c.begun = false → s.launches = [] →
      let b := s.rdBytes (0x3000_0000_0000 + 4 * c.fld 8 4) 256
      let named (k : Nat) : Prop := k < 800 ∧ (blockField b 0x88 100).testBit k = true
      c.fld 8 4 + 64 ≤ 16777216 → blockField b 0 4 < blockField b 4 4 → blockField b 4 4 ≤ 8192 →
      blockField b 8 8 + 2 * blockField b 4 4 ≤ 16777216 → (∃ k, named k) →
      (∀ k : Fin 800, named k.val → s.coreRefuses k.val = false ∧ (s.seq (.core k)).run = .idle) →
      ∃ t, exec (.cores q idx) s = .next t ∧
        (∀ k : Fin 800, named k.val → (t.seq (.core k)).run = .running ∧ (t.seq (.core k)).pc = blockField b 0 4 ∧
          (t.seq (.core k)).step = 0 ∧ (t.seq (.core k)).launcher = .cmd q.val idx.toNat) ∧
        (∀ k : Fin 800, ¬named k.val → t.seq (.core k) = s.seq (.core k)) ∧
        ∃ d ∈ t.cmds, d.q = q.val ∧ d.idx = idx.toNat ∧ d.begun = true ∧ d.finished = false ∧ ∀ k, k ∈ d.left ↔ named k) ∧
    (claimRuns q idx 3 c s →
      let a := c.fld 8 8
      let b := c.fld 0x10 8
      let n := c.fld 0x18 8
      s.sipRefuses (200 + q.val % 16) = false → n % 4 = 0 → a % 4 = 0 → b % 4 = 0 → a + n ≤ b ∨ b + n ≤ a →
      (∀ i, i < n → s.accessFail (a + i) = none ∧ s.accessFail (b + i) = none ∧ s.clearing (a + i) = false ∧
        (b + i < 0x3000_03FD_0000 ∨ 0x3000_03FE_0000 ≤ b + i)) → s.poison = [] →
      s.training a n = false → s.training b n = false → s.poolHit a n = [] → s.poolHit b n = [] →
      ∃ t, exec (.copy q idx) s = .next t ∧ claimDone c .ok (n % 2 ^ 32) s t ∧
        (∀ i, i < n → t.byte (b + i) = s.byte (a + i)) ∧ ∀ x, x < 2 ^ 48 → (x < b ∨ b + n ≤ x) → t.byte x = s.byte x)

/-- COMPLETION_RECORD_WRITE to an enabled completion ring with room writes the 32 bytes of the record at TAIL and no other byte,
raises TAIL by 1 and removes the command; the record carries the queue and index, the code, the epoch, the counts and INFO, and
the phase of TAIL's pass (R330, R331). -/
def Obligations.CompletionRecord : Prop :=
  ∀ (cq : Fin 64) (s : State) (c : Cmd),
    let cfg := s.reg (Reg.ctlCqCfg cq.val)
    let tail := s.fld (Reg.ctlCqTail cq.val) 31 0
    let n := ringSize cfg
    let a := ringBase cfg + 32 * (tail % n)
    s.cmds.find? (fun c => c.finished && s.sqCq c.q == cq.val) = some c → s.cqOn cq.val = true → s.cqFull cq.val = false →
    s.ringPlace a = true → s.accessFail a = none → s.training a 32 = false → s.poison = [] →
    (a + 32 ≤ 0x3000_03FD_0000 ∨ 0x3000_03FE_0000 ≤ a) →
    ∃ t, exec (.completionRecordWrite cq) s = .next t ∧ t.cmds = s.cmds.erase c ∧
      t.fld (Reg.ctlCqTail cq.val) 31 0 = (tail + 1) % 2 ^ 32 ∧ (∀ b, b < 2 ^ 48 → (b < a ∨ a + 32 ≤ b) → t.byte b = s.byte b) ∧
      t.word32 a = BitVec.ofNat 32 (c.q * 2 ^ 24 + c.idx % 2 ^ 24) ∧
      t.byte (a + 4) = BitVec.ofNat 8 c.code.toNat ∧ t.byte (a + 5) = (if tail / n % 2 = 0 then 1 else 0) ∧
      t.word32 (a + 8) = BitVec.ofNat 32 c.epoch ∧ t.word32 (a + 12) = BitVec.ofNat 32 (min c.counts.drops (2 ^ 32 - 1)) ∧
      t.word32 (a + 16) = BitVec.ofNat 32 (min c.counts.clips (2 ^ 32 - 1)) ∧
      t.word32 (a + 20) = BitVec.ofNat 32 (min c.counts.escapes (2 ^ 32 - 1)) ∧
      t.word32 (a + 24) = BitVec.ofNat 32 (min c.counts.retries (2 ^ 32 - 1)) ∧
      t.word32 (a + 28) = BitVec.ofNat 32 c.info

/-- CQ_HEAD_WRITE up to TAIL becomes the head, one past TAIL is ignored and counted; SQ_CFG_WRITE with EN stores the ring and
clears STOPPED and REASON; CQ_CFG_WRITE that disables a ring stops every submission ring directed into it with REASON 3 (R331,
R333). -/
def Obligations.RingRegisters : Prop :=
  ∀ (q : Fin 64) (v : Word) (s : State), s.domUp 4 = true →
    let tail := (s.reg (Reg.ctlCqTail q.val)).setWidth 32
    (rsvdBits (Reg.ctlCqHead q.val) v = 0 →
      (0 < (v.setWidth 32 - tail).toInt → exec (.cqHeadWrite q v) s = .next (s.bump Reg.ctlRingErrCnt 1)) ∧
      ((v.setWidth 32 - tail).toInt ≤ 0 → ∃ t, exec (.cqHeadWrite q v) s = .next t ∧
        t.fld (Reg.ctlCqHead q.val) 31 0 = (v.setWidth 32).toNat ∧ t = { s with regs := t.regs } ∧
        ∀ o, o ≠ Reg.ctlCqHead q.val → t.reg o = s.reg o)) ∧
    (rsvdBits (Reg.ctlSqCfg q.val) v = 0 →
      (v.getLsbD 63 = true → ∃ t, exec (.sqCfgWrite q v) s = .next t ∧ t.bit (Reg.ctlSqStat q.val) 63 = false ∧
        t.fld (Reg.ctlSqStat q.val) 55 48 = 0 ∧ t.fld (Reg.ctlSqStat q.val) 31 0 = s.fld (Reg.ctlSqStat q.val) 31 0 ∧
        t.bit (Reg.ctlSqCfg q.val) 63 = true) ∧
      (v.getLsbD 63 = false → exec (.sqCfgWrite q v) s = .next (s.storeReg (Reg.ctlSqCfg q.val) v allOnes))) ∧
    (rsvdBits (Reg.ctlCqCfg q.val) v = 0 →
      let s1 := s.storeReg (Reg.ctlCqCfg q.val) v allOnes
      (s1.cqOn q.val = true ∨ s.cqOn q.val = false → exec (.cqCfgWrite q v) s = .next s1) ∧
      (s1.cqOn q.val = false → s.cqOn q.val = true → ∃ t, exec (.cqCfgWrite q v) s = .next t ∧ t.cqOn q.val = false ∧
        ∀ i, i < 64 → s.sqCq i = q.val → s.bit (Reg.ctlSqStat i) 63 = false →
          t.bit (Reg.ctlSqStat i) 63 = true ∧ t.fld (Reg.ctlSqStat i) 55 48 = 3))

/-- EPOCH_SWITCH: an enabled unit at its safe boundary that is behind goes to the next epoch, a siphon dropping its TLB; a
unit in step, disabled or in the middle of work stays. A core stands there when nothing that it issued under its epoch is in
flight and, where the next epoch changes its COR.DENSE_CFG, a dense instruction has started since or nothing is in flight; a
siphon without transfers and staged tiles, a link without frames to replay, the control cluster outside its step loops (R341,
R342). An idle core, exchange unit, update engine or resilience unit may switch before its next work (the model's choice, log
entry 91). -/
def Obligations.EpochSwitch : Prop :=
  ∀ (u : Fin 1068) (s : State),
    let e := SMap.get 0 s.unitEpoch u.val
    let works := (s.seq (SeqId.ofNum u.val)).works
    let ready : Prop :=
      (u.val < 800 → (∀ w ∈ works, 0 < (w.epoch - e).toInt) ∧
        (s.cfgChanges u.val e = false ∨ works = [] ∨ 0 < ((s.core u.val).cfgEpoch - e).toInt)) ∧
      (800 ≤ u.val → u.val < 1016 → (s.siph (u.val - 800)).transfers = [] ∧ ∀ p ∈ s.passes, p.siphon ≠ some (u.val - 800)) ∧
      (1036 ≤ u.val → u.val < 1048 → (s.link (u.val - 1036)).retry = []) ∧
      (1048 ≤ u.val → u.val < 1050 → (∀ b ∈ s.xch.blocks, b.started = false) ∧ ∀ b ∈ s.xch.batches, b.live = false) ∧
      (1050 ≤ u.val → u.val < 1066 → (s.upd (u.val - 1050)).inv = none) ∧ (u.val = 1066 → s.rsl.cairn = none) ∧
      (u.val = 1067 → ∀ n : Fin 4, (s.seq (.cp n)).inLoop = false)
    (e ≠ s.epoch → s.unitOff u.val = false → ready → ∃ t, exec (.epochSwitch u) s = .next t ∧
      SMap.get 0 t.unitEpoch u.val = e + 1 ∧ (∀ x, x ≠ u.val → SMap.get 0 t.unitEpoch x = SMap.get 0 s.unitEpoch x) ∧
      t.epoch = s.epoch ∧ (800 ≤ u.val → u.val < 1016 → (t.siph (u.val - 800)).tlb = []) ∧ ∀ a, t.byte a = s.byte a) ∧
    (e = s.epoch ∨ s.unitOff u.val = true ∨ ¬ready → exec (.epochSwitch u) s = .next s)


/-! ### Parameter update (spec/14_parameter_update.md) -/

/-- The part of an invocation that an engine takes up for the work `w` of control processor `n`: its block, its copy of the
schedule row and the step. -/
def claimPart (s : State) (m : Nat) (n : Fin 4) (w : Work) (a : Nat) : Inv where
  unit := 0x3FC + n.val
  work := w.seq
  block := s.rdBytes a 512
  row := ((s.upd m).row).getD []
  step := (s.seq (.cp n)).step
  drip := (s.seq (.cp n)).stepNow.toNat
  maxIt := 0
  phase1 := false
  done := false
  gt := []
  news := []
  rows := []
  code := .ok

/-- UPD_ENGINE_START: the first engine to take up the only UPD of a control processor takes up its part of a well-formed invocation
without preconditioners, and the work runs; a block off its 32-word boundary or one that R347 refuses ends the whole invocation with
0x22, and no engine takes part. UPD_PHASE1_START waits for the cores of its grotto; a disabled one among them gives 0x10, and
otherwise the phase ends. UPD_ENGINE_DONE of the only engine ends the invocation; in phase 1 it waits (R314, R345 to R347, R361). -/
def Obligations.UpdateEngines : Prop :=
  ∀ (m : Fin 16) (n : Fin 4) (s : State) (w : Work) (iw : Issue) (fd : SReg) (a1 : AReg) (opt : Opt),
    let u := SeqId.cp n
    let i := (w.vals.getD 0 0).toNat
    let a := 0x3000_0000_0000 + 4 * i
    (s.seq u).works = [w] → w.instr = .upd iw fd a1 opt → s.poison = [] →
    (w.status = .queued → (claimOpt opt 0 16).getLsbD m.val = true → s.paused = false →
      (∀ j, (s.upd j).inv = none) → s.domUp 3 = true → s.isOff 7 (34 + m.val) = false →
      let v := claimPart s m.val n w a
      let placed : Prop := i % 32 = 0 ∧ i + 128 ≤ 16777216
      (placed → v.pcEn = false → v.ok (s.upd m.val).row.isSome false = true →
        ∃ t k, exec (.updEngineStart m n) s = .next t ∧
          (t.upd m.val).inv = some { v with maxIt := k, reads := v.readRuns, writes := v.writeRuns } ∧
          SMap.get 0 t.unitEpoch (1050 + m.val) = s.epoch ∧ (t.seq u).works = [{ w with status := .running }] ∧
          (∀ j, j ≠ m.val → t.upd j = s.upd j) ∧ ∀ b, t.byte b = s.byte b) ∧
      (¬placed ∨ (∀ allowed, v.ok (s.upd m.val).row.isSome allowed = false) →
        ∃ t, exec (.updEngineStart m n) s = .next t ∧ (∀ j, t.upd j = s.upd j) ∧
          (t.seq u).works = [{ w with status := .ended .desc }] ∧ ∀ b, t.byte b = s.byte b)) ∧
    (∀ v, (s.upd m.val).inv = some v →
      let g := v.fld (0x180 + m.val) 1
      (v.phase1 = true → v.done = false →
        ((∃ c : Fin 800, grottoOf c.val = g ∧ (s.seq (.core c)).run ≠ .idle) → exec (.updPhase1Start m) s = .next s) ∧
        (s.vaTraining (s.updRoot m.val) 2 v.reads = false → (∀ c : Fin 800, grottoOf c.val = g → (s.seq (.core c)).run = .idle) →
          ((∃ c : Fin 800, grottoOf c.val = g ∧ s.coreOff c.val = true) →
            ∃ t, exec (.updPhase1Start m) s = .next t ∧ t = { s with upds := t.upds } ∧
              (t.upd m.val).inv = some { v with phase1 := false, done := true, code := v.code.max .aborted }) ∧
          ((∀ c : Fin 800, grottoOf c.val = g → s.coreOff c.val = false) →
            ∃ t x, exec (.updPhase1Start m) s = .next t ∧ (t.upd m.val).inv = some x ∧ x.phase1 = false ∧
              ∀ c : Fin 800, grottoOf c.val = g → SMap.get 0 t.chGen c.val ≠ 0))) ∧
      (v.phase1 = true → exec (.updEngineDone m) s = .next s) ∧
      (v.phase1 = false → v.pcEn = false → v.done = false → v.unit = 0x3FC + n.val → v.work = w.seq → w.status = .running →
        (claimOpt opt 0 16).toNat = 2 ^ m.val → s.vaTraining (s.updRoot m.val) 2 (v.reads ++ v.writes) = false →
        ∃ t c, exec (.updEngineDone m) s = .next t ∧ (t.upd m.val).inv = none ∧ claimEnded u w.seq c t))

/-! ### The exchange unit (spec/15_expert_routing.md) -/

/-- No block of a ring and index is left. -/
def claimGone (ring idx : Nat) (t : State) : Prop := ∀ x ∈ t.xch.blocks, ¬(x.ring = ring ∧ x.idx = idx)

/-- A command ends the block of a ring and index: the block leaves the unit, and its code stands in the ring's status. -/
def claimEndsBlock (cmd : Instr) (ring idx : Nat) (code : Code) (s t : State) : Prop :=
  exec cmd s = .next t ∧ claimGone ring idx t ∧ t.fld (ringRegs ring).2 7 0 = code.toNat

/-- Writing EN as 1 sets NEXT of a work or collective ring to 0 and changes no other register than its configuration; a ring's
next block is read once and NEXT moves on, a block of a later step waits; a taken block starts once its START counter is reached,
a DISPATCH or COMBINE_B under the next tag and at the layer table of the unit's new epoch, and one that fails its checks ends with
their code; a wait at a peer's START counter is asked for there (R341, R364 to R367, R377, R379, R384, R427). -/
def Obligations.ExchangeRings : Prop :=
  ∀ (r : Fin 4) (v : BitVec 64) (s : State), s.domUp 4 = true →
    let cfgWrite (c : Instr) (cfg stat : Nat) : Prop :=
      rsvdBits cfg v = 0 → ∃ t, exec c s = .next t ∧ (∀ o, o ≠ cfg → o ≠ stat → t.reg o = s.reg o) ∧ t.fld stat 7 0 = s.fld stat 7 0 ∧
        t.fld stat 63 32 = (if v.getLsbD 63 then 0 else s.fld stat 63 32)
    cfgWrite (.wringCfgWrite r v) (Reg.xchWringCfg r.val) (Reg.xchWringStat r.val) ∧
    cfgWrite (.cringCfgWrite r v) (Reg.xchCringCfg r.val) (Reg.xchCringStat r.val) ∧
    (∀ i a, s.ringNext r.val = some (i, a) → s.poison = [] →
      let b := newBlock r.val i a (s.rdBytes a 256)
      ((∀ n, s.xch.step = some n → b.step ≤ n) → (b.op < 2 ∨ 4 < b.op) →
        ∃ t, exec (.xchBlockTake r) s = .next t ∧ t.xch.blocks = s.xch.blocks ++ [b] ∧
          t.xch.step = some (s.xch.step.getD b.step) ∧ t.fld (Reg.xchWringStat r.val) 63 32 = (i + 1) % 2 ^ 32 ∧
          ∀ x, t.byte x = s.byte x) ∧
      (∀ n, s.xch.step = some n → n < b.step → exec (.xchBlockTake r) s = .next s)) ∧
    (∀ i a, s.ringNext (4 + r.val) = some (i, a) → s.poison = [] →
      let y := s.takeColl (4 + r.val) i a
      let x := (chain y.1).members y.2
      (∀ d ∈ s.xch.doomed, ¬(d.1 = y.2.coll ∧ d.2.1 = y.2.step)) → x.1.fault = none → x.1.s.checkColl y.2 x.2 = true →
      ∃ t, exec (.collBlockTake r) s = .next t ∧
        t.xch.blocks = s.xch.blocks ++ [newBlock (4 + r.val) i a (s.rdBytes a 256)] ∧
        t.fld (Reg.xchCringStat r.val) 63 32 = (i + 1) % 2 ^ 32) ∧
    ∀ (k : Fin 8) (b : XBlock), s.paused = false → s.isOff 7 32 = false → s.isOff 7 33 = false →
      ((∀ x ∈ s.xch.blocks, x.ring = k.val → x.started = false → s.startX x = (none, false) ∧ (x.asked || !s.startAway x) = true) →
        exec (.xchBlockStart k) s = .next s) ∧
      (s.xch.blocks.find? (fun x => x.ring == k.val && !x.started) = some b →
        (∀ d a l u, (∀ x ∈ s.xch.blocks, x.ring = k.val → x.started = false → s.startX x = (none, false)) → b.asked = false →
          s.counterHome s.xchRoot (b.start % 2 ^ 48) 3 false = .remote d a → s.linkTo d a = (u, some l) →
          ∃ t, exec (.xchBlockStart k) s = .next t ∧ (∃ x ∈ t.xch.blocks, x = { b with asked := true }) ∧
            ∃ q ∈ t.reqs, q.id = s.nextReq ∧ q.dev = d ∧ q.purpose = .wait (.block k (BitVec.ofNat 32 b.idx))) ∧
        (s.startX b = (none, true) →
          let w := (s.switchAll 1048).switchAll 1049
          let at_ (s : State) : XBlock := { b with slot := s.layerAt b.layer }
          (4 ≤ k.val → ∃ t, exec (.xchBlockStart k) s = .next t ∧ t = { w with xch := t.xch } ∧
            ∃ x ∈ t.xch.blocks, x = { b with started := true }) ∧
          (k.val < 4 → b.op ≠ 1 → b.op ≠ 3 →
            (s.startFails (at_ s) = none → ∃ t, exec (.xchBlockStart k) s = .next t ∧ t = { s with xch := t.xch } ∧
              ∃ x ∈ t.xch.blocks, x = { at_ s with started := true }) ∧
            ∀ c, s.startFails (at_ s) = some c → ∃ t, claimEndsBlock (.xchBlockStart k) k.val b.idx c s t) ∧
          (k.val < 4 → b.op = 1 ∨ b.op = 3 → (s.xch.batches.filter (·.live)).length < 32 →
            (∀ x ∈ s.xch.batches, x.live = true → x.layer = b.layer → x.half = b.half → x.pending = false) →
            (w.startFails (at_ w) = none →
              ∃ t x y, exec (.xchBlockStart k) s = .next t ∧ y ∈ t.xch.blocks ∧
                y = { at_ w with started := true, tag := s.nextTag } ∧ t.xch.batches.head? = some x ∧ x.tag = s.nextTag ∧
                x.live = true ∧ x.sent = false ∧ x.layer = b.layer ∧ x.half = b.half ∧ x.tokens = b.t ∧ x.addr = b.addr ∧
                x.place = w.layerAt b.layer ∧ t.xch.lastTag = s.nextTag) ∧
            ∀ c, w.startFails (at_ w) = some c → ∃ t, claimEndsBlock (.xchBlockStart k) k.val b.idx c s t)))

/-- A started block runs to its end: it leaves the unit and its code stands in its ring's status. ROUTE counts the rows that it
made NaN and ends with 0x01 where there is one; DISPATCH sends the rows that it admits, COMBINE_B the gradient rows, each under
the batch's tag, and either ends with 0x01 where it counted something or lost an assignment, with 0x41 where this device refuses
its own batch; a block that meets a translation fault ends with its code and frees its tag. COMBINE and GATHER_B end with the
worst of their own code and the batch's losses and free the tag, and wait while the batch awaits answers. ROUTE gives NaN
throughout a row with a non-finite logit (R365, R366, R369, R371, R375, R376, R379, R382). -/
def Obligations.ExchangeOperations : Prop :=
  ∀ (r : Fin 4) (idx : BitVec 32) (s : State) (b : XBlock),
    let k := s.layerK b.slot
    let some_ (p : Prop) [Decidable p] : Code := if p then .counts else .ok
    (s.xOf r.val idx 0 = some b →
      let x := s.routeRun b
      ∃ t, claimEndsBlock (.route r idx) r.val idx.toNat (x.1.code.max (some_ (x.2 ≠ 0))) s t ∧
        t.count Reg.xchRouteNanCnt = sat (s.count Reg.xchRouteNanCnt + x.2)) ∧
    (s.xOf r.val idx 1 = some b →
      let y := s.selections b
      let adm := s.admitted b y.2
      let x := y.1.batchRows b k (inOrder (b.t * k) adm)
      (∀ c, x.1.fault = some c → ∃ t, claimEndsBlock (.dispatch r idx) r.val idx.toNat c.1 s t ∧
        ∀ bt ∈ t.xch.batches, bt.tag ≠ b.tag) ∧
      (x.1.fault = none → ∀ bt, s.batch b.tag = some bt →
        let n := s.tallies b y.2 adm
        ∃ t bt', claimEndsBlock (.dispatch r idx) r.val idx.toNat
            (((s.putRecord b y.2 adm x.1).code.max (t.sentCode b.tag)).max (some_ (counted n = true))) s t ∧
          t.batch b.tag = some bt' ∧ bt'.sent = true ∧ bt'.assigns.map (·.slot) = (inOrder (b.t * k) adm).map (·.1) ∧
          (∀ j, (adm.filter fun z => z.2 == j).length ≤ s.rdLE (b.slot + 4) 2) ∧
          (s.layerE b.slot ≤ 256 → t.count Reg.xchSkipTokenCnt = sat (s.count Reg.xchSkipTokenCnt + n.2.2)))) ∧
    (s.xOf r.val idx 3 = some b →
      let x := s.backRun b
      (∀ c, x.1.fault = some c → ∃ t, claimEndsBlock (.combineB r idx) r.val idx.toNat c.1 s t ∧
        ∀ bt ∈ t.xch.batches, bt.tag ≠ b.tag) ∧
      (x.1.fault = none → ∀ bt, s.batch b.tag = some bt →
        let rows := s.gradRows b x.2.1 x.2.2.1
        ∃ t bt', claimEndsBlock (.combineB r idx) r.val idx.toNat
            (((s.putGrads b x.2.2.2 x.1).code.max (t.sentCode b.tag)).max (some_ ((rows.map fun y => y.2.2).sum ≠ 0))) s t ∧
          t.batch b.tag = some bt' ∧ bt'.sent = true ∧ bt'.assigns.map (·.slot) = x.2.1.map (·.1))) ∧
    (s.xOf r.val idx 5 = some b →
      ∃ t, claimEndsBlock (.routeB r idx) r.val idx.toNat (s.routeBackRun b).code s t) ∧
    (s.linkBatch b.link = none →
      (s.xOf r.val idx 2 = some b → ∃ t, claimEndsBlock (.combine r idx) r.val idx.toNat .desc s t) ∧
      (s.xOf r.val idx 4 = some b → ∃ t, claimEndsBlock (.gatherB r idx) r.val idx.toNat .desc s t)) ∧
    (∀ bt, s.linkBatch b.link = some bt →
      let code (x : VaRes × Nat) : Code :=
        if x.1.fault.isSome then x.1.code else (x.1.code.max bt.lossCode).max (some_ (x.2 ≠ 0))
      (s.xOf r.val idx 2 = some b →
        (bt.pending = false → ∃ t, claimEndsBlock (.combine r idx) r.val idx.toNat (code (s.combineRun b bt true none)) s t ∧
          (bt.live = true → ∀ x ∈ t.xch.batches, x.tag ≠ bt.tag)) ∧
        (bt.pending = true → exec (.combine r idx) s = .next s)) ∧
      (s.xOf r.val idx 4 = some b →
        (bt.pending = false →
          let x := s.combineRun b bt false (some (s.dripKey b.db.drip b.step))
          ∃ t, claimEndsBlock (.gatherB r idx) r.val idx.toNat (code x) s t ∧
            (bt.live = true → ∀ x ∈ t.xch.batches, x.tag ≠ bt.tag)) ∧
        (bt.pending = true → exec (.gatherB r idx) s = .next s))) ∧
    ∀ l : List F32, (routeRow l = none ↔ ∃ x ∈ l, (F32.val x).isFin = false)

/-- What reaches the exchange unit from other devices, and what it sends: headers whose packets have arrived, under the step
agreement; the placing of a batch once every live member's header is there; answers once the counter stands; answer rows at their
source (a retired tag's are counted and discarded) and refusals; the step of the bias loop, which moves every bias and clears its
load; and the retirement of tags (R373, R374, R377, R380 to R382, R426). -/
def Obligations.ExchangeTraffic : Prop :=
  ∀ (l : Fin 12) (layer : Fin 64) (half : Bool) (tag : BitVec 16) (src : BitVec 12) (s : State),
    (∀ (hd : XHead) (u : State), s.linkState l.val = 3 → s.holdsRows = false → hd.src.toNat ≠ s.devId →
      s.dropped hd.src.toNat = false →
      let ms := arrived (XHead.msgs hd (s.expertsOf (s.layerAt hd.layer.val) s.devId).length)
      s.takeXch l.val hd.src.toNat hd.tag.toNat ms.length (· == ms) = some u →
      (s.stepAgrees hd.step.toNat = true → exec (.xchHeaderReceive l hd) s =
        .next { u with xch := { u.xch with inbound := addHead hd (s.layerAt hd.layer.val) s.xch.inbound } }) ∧
      (s.stepAgrees hd.step.toNat = false → exec (.xchHeaderReceive l hd) s =
        .next ((u.bump Reg.cslStepRefuseCnt 1).refusePeer hd.src.toNat "refuse" [hd.tag.toNat]))) ∧
    (∀ g, s.oldest layer.val half.toNat false = some g →
      (s.headsIn g = true → s.paused = false → s.layerOk g.place = true →
        ∃ t x, exec (.xchExpertPost layer half) s = .next t ∧ t.oldest layer.val half.toNat true = some x ∧
          x.heads = g.heads ∧ x.step = g.step ∧ x.dir = g.dir ∧ x.target =
            s.ctrValue (s.rdLE (g.place + 0x40 + 8 * half.toNat) 8) + BitVec.ofNat 32 (s.entriesOf g).length) ∧
      (s.headsIn g = false → exec (.xchExpertPost layer half) s = .next s)) ∧
    (∀ g, s.oldest layer.val half.toNat true = some g →
      let reached := ahead (s.ctrValue (s.rdLE (g.place + 0x40 + 8 * half.toNat) 8)) g.target
      (g.left = [] → reached = true → ∃ t, exec (.xchAnswersSend layer half) s = .next t ∧
        t.xch.inbound = onOldest layer.val half.toNat (fun _ => none) s.xch.inbound) ∧
      (g.left ≠ [] ∨ reached = false → exec (.xchAnswersSend layer half) s = .next s)) ∧
    (∀ b, s.linkState l.val = 3 → s.holdsRows = false → s.batch tag.toNat = some b →
      (∀ slot bs u, s.takeAnswer l.val tag.toNat slot bs = some u →
        (b.live = false → exec (.xchAnswerReceive l tag (.row slot bs)) s = .next (u.bump Reg.xchStaleReturnCnt 1)) ∧
        (b.live = true → (∃ a ∈ b.assigns, a.slot = slot ∧ a.st = .pending) →
          ∃ t x, exec (.xchAnswerReceive l tag (.row slot bs)) s = .next t ∧ t.batch tag.toNat = some x ∧
            ∀ a ∈ x.assigns, a.slot = slot → a.st ≠ .pending)) ∧
      (∀ u, s.takeNote src.toNat "refuse" [tag.toNat] = some u → b.live = true →
        ∃ t x, exec (.xchAnswerReceive l tag (.refused src)) s = .next t ∧ t.batch tag.toNat = some x ∧
          src.toNat ∈ x.refused ∧ ∀ a ∈ x.assigns, a.dev = src.toNat → a.st ≠ .pending)) ∧
    (∀ n i a others, s.xch.step = some n → s.ringNext 0 = some (i, a) →
      (∀ (r : Fin 4) x, s.ringNext r.val = some x → n < blockField (s.rdBytes x.2 256) 8 8) →
      (∀ b ∈ s.xch.blocks, 4 ≤ b.ring) →
      let moved (y : State) : Prop := ∀ (m : Fin 64) (e : Nat), e < min 256 (s.layerE (s.layerAt m.val)) → s.poison = [] →
        (∀ i : Fin 16, s.bit (Reg.memStat i.val) 2 = false) → (∀ k : Fin 64, s.accessFail (s.layerAt k.val) = none) →
        (s.live.filter fun d => d != s.devId) = [] →
        let at_ := s.layerAt m.val
        let num (o : Nat) : F32 := BitVec.ofNat 32 (s.rdLE (at_ + o) 4)
        y.rdLE (at_ + 0x680 + 4 * e) 4 = 0 ∧ y.rdLE (at_ + 0x280 + 4 * e) 4 =
          (biasStep (num (0x280 + 4 * e)) (num 8) (num 0xC) (num 0x10) (s.rdLE (at_ + 0x680 + 4 * e) 4)).toNat
      ∃ t, exec (.xchBiasUpdate others) s = .next t ∧ t.xch.step = some (blockField (s.rdBytes a 256) 8 8) ∧
        t.xch.blocks = s.xch.blocks ∧ moved t) ∧
    (∀ b, s.batch tag.toNat = some b →
      (b.live = true → b.due = true → ∃ t x, exec (.tagRetire tag) s = .next t ∧ t.batch tag.toNat = some x ∧
        x.live = false ∧ x.due = false ∧ x.acks = b.dests.filter (fun d => d != s.devId && !s.dropped d) ∧
        ∀ d ∈ x.acks, Sent.notice d "retire" [b.tag] ∈ t.out) ∧
      (b.live = false ∨ b.due = false → exec (.tagRetire tag) s = .next s)) ∧
    (∀ u, s.domUp 4 = true → s.takeNote src.toNat "retire" [tag.toNat] = some u →
      ∃ t, exec (.retireNotice src tag) s = .next t ∧ Sent.notice src.toNat "retired" [tag.toNat] ∈ t.out ∧
        (∀ a, t.byte a = s.byte a) ∧
        ∀ g ∈ t.xch.inbound, ∀ h ∈ g.heads, h.src = src.toNat → h.tag = tag.toNat → h.mute = true) ∧
    ∀ u, s.takeNote src.toNat "retired" [tag.toNat] = some u →
      ∃ t, exec (.retireAck src tag) s = .next t ∧ t = { u with xch := t.xch } ∧
        ∀ b ∈ t.xch.batches, b.tag = tag.toNat → src.toNat ∉ b.acks

/-- A collective whose contributions have left and all arrived (each member's, or the member is dropped; of an ALL_REDUCE in both
phases) ends: its block and the staged contributions go, and its code stands in the ring's status: 0x01 where an element
saturated or a member is missing. While one is awaited it stays, with its own contributions sent; under a step that is not this
device's it ends with 0x41. A contribution of an agreed step whose packets have arrived is staged, another is refused; a
cancellation or refusal ends the block, or is kept for it (R426, R428, R429, R432). -/
def Obligations.Collectives : Prop :=
  ∀ (r : Fin 4) (idx : BitVec 32) (s : State) (b : XBlock) (op : Fin 4),
    let cmd : Instr := match op.val with
      | 0 => .allReduce r idx | 1 => .reduceScatter r idx | 2 => .allGather r idx | _ => .allToAll r idx
    let x := (chain s).members b
    let here (second : Bool) (d : Nat) : Prop := s.dropped d = true ∨ (s.partOf b second d).isSome = true
    (s.xOf (4 + r.val) idx op.val = some b → x.1.fault = none →
      (b.sent = (if op.val = 0 then 2 else 1) → (∀ d ∈ x.2, here false d ∧ (op.val = 0 → here true d)) → b.code ≠ .peer →
        let ps := x.2.filterMap (s.partOf b false)
        ∃ t, claimEndsBlock cmd (4 + r.val) idx.toNat (((x.1.s.collRun b x.2 ps).touch b ps).code b) s t ∧
          ∀ p ∈ t.xch.parts, ¬(p.coll.toNat = b.coll ∧ p.step.toNat = b.step)) ∧
      (b.code = .peer → b.sent ≠ 0 → ∃ t, claimEndsBlock cmd (4 + r.val) idx.toNat .peer s t) ∧
      (b.sent = 0 → b.code ≠ .peer → s.stepAgrees b.step = true → (∃ d ∈ x.2, d ≠ s.devId ∧ ¬here false d) →
        ∃ t, exec cmd s = .next t ∧ ∃ y ∈ t.xch.blocks, y.ring = 4 + r.val ∧ y.idx = idx.toNat ∧ y.sent = 1)) ∧
    (∀ (l : Fin 12) (p : CollPart) (u : State), s.linkState l.val = 3 → s.holdsRows = false → p.src.toNat ≠ s.devId →
      s.dropped p.src.toNat = false →
      let ms := arrived [partWire p]
      s.takeXch l.val p.src.toNat (p.coll.toNat % 65536) ms.length (· == ms) = some u →
      (s.stepAgrees p.step.toNat = true →
        (∀ q ∈ s.xch.parts, ¬(q.src = p.src ∧ q.coll = p.coll ∧ q.step = p.step ∧ q.second = p.second)) →
        exec (.collContribution l (.part p)) s = .next { u with xch := { u.xch with parts := s.xch.parts ++ [p] } }) ∧
      (s.stepAgrees p.step.toNat = false → exec (.collContribution l (.part p)) s =
        .next ((u.bump Reg.cslStepRefuseCnt 1).refusePeer p.src.toNat "collRefuse" [p.coll.toNat, p.step.toNat]))) ∧
    ∀ (l : Fin 12) (coll : BitVec 32) (step : BitVec 64) (refused : Bool) (u : State),
      let cmd : Instr := if refused then .collContribution l (.refused coll step) else .collCancelNotice coll step
      let c : Code := if refused then .peer else .cancelled
      let kind : String := if refused then "collRefuse" else "collCancel"
      (if refused then s.linkState l.val = 3 ∧ s.holdsRows = false else s.domUp 4 = true) →
      (s.takeAny fun p => p.kind == 6 && p.body == pad4 (noteBytes kind [coll.toNat, step.toNat])) = some u →
      ((∀ y ∈ s.xch.blocks, 4 ≤ y.ring → ¬(y.coll = coll.toNat ∧ y.step = step.toNat)) →
        s.collPast coll.toNat step.toNat = false → exec cmd s =
          .next { u with xch := { u.xch with doomed := s.xch.doomed ++ [(coll.toNat, step.toNat, c)] } }) ∧
      (s.xch.blocks.find? (fun y => decide (4 ≤ y.ring) && y.coll == coll.toNat && y.step == step.toNat) = some b →
        b.ring < 8 → ∃ t, claimEndsBlock cmd b.ring b.idx c s t)

/-! ### The memory tiers (spec/16_memory_tiers.md) -/

/-- A command that only writes the register `o`. -/
def claimOnlyReg (o : Nat) (s t : State) : Prop := t = { s with regs := t.regs } ∧ ∀ x, x ≠ o → t.reg x = s.reg x

/-- GDDR7_ACCESS to a pair that serves: its repeats are counted, a clean codeword is delivered as it is, a corrected one counts, an
uncorrectable one is counted and stays so; a write of a whole codeword stores it and makes it correctable; a sixth burst failure
disables the pair and loses its contents alone. Retraining slices, patrol scrub, clears and die marks act as R392, R396, R397 and
R401 say; a write of CLEAR.GO during a clear is ignored (R390 to R395). -/
def Obligations.MemoryCommands : Prop :=
  ∀ (a : BitVec 40) (e : CodeErr) (crc : Fin 7) (m : Fin 16) (k : Fin 8) (v : BitVec 64) (s : State) (c : Nat), s.domUp 3 = true →
    let u := a.toNat / 128 * 128
    let st := Reg.memStat m.val
    let pair := gddrPair u
    let mark := Reg.memDieMark k.val
    let retried (t : State) : Prop :=
      t.count (Reg.memCrcRetryCnt m.val) = sat (s.count (Reg.memCrcRetryCnt m.val) + crc.val)
    (s.target u = .gddr m.val c → s.bit st 0 = true → s.bit st (40 + pair) = false → s.bit st (32 + pair) = false →
      (crc.val < 5 → s.poison.contains u = false →
        (decodeWord (s.mark m.val) e = .clean → ∃ t, exec (.gddr7Access a none e crc) s = .next t ∧ retried t ∧
          t = { s with cnt := t.cnt }) ∧
        (decodeWord (s.mark m.val) e = .symbols → ∃ t, exec (.gddr7Access a none e crc) s = .next t ∧ retried t ∧
          t = { s with cnt := t.cnt } ∧
          t.count (Reg.memEccCorrCnt m.val) = sat (s.count (Reg.memEccCorrCnt m.val) + 1)) ∧
        (decodeWord (s.mark m.val) e = .bad → s.fresh.contains u = false →
          ∃ t, exec (.gddr7Access a none e crc) s = .next t ∧ retried t ∧ u ∈ t.poison ∧
          t.count (Reg.memEccUncorrCnt m.val) = sat (s.count (Reg.memEccUncorrCnt m.val) + 1) ∧ ∀ b, t.byte b = s.byte b)) ∧
      (crc.val < 6 → ∀ bs : List Byte, bs.length = 128 →
        ∃ t, exec (.gddr7Access a (some ⟨0, bs⟩) e crc) s = .next t ∧ (∀ i, i < 128 → t.byte (u + i) = bs.getD i 0) ∧
          (∀ b, b < u ∨ u + 128 ≤ b → t.byte b = s.byte b) ∧ t.poison.contains u = false) ∧
      (crc.val = 6 → ∃ t, exec (.gddr7Access a none e crc) s = .next t ∧ t.bit st (40 + pair) = true ∧
        ∀ b, (b < 0x100_0000_0000 → ¬(gddrCtl b = m.val ∧ gddrPair b = pair)) → t.byte b = s.byte b)) ∧
    (let i := SMap.get 0 s.sliceAt m.val;
      s.epFld (1016 + m.val) (Reg.memRetrainCfg m.val) 16 16 = 1 → s.bit st 0 = true → s.fld st 39 32 = 0 → i < 8 →
      s.bit st (40 + i) = false →
      ∃ t, exec (.retrainSlice m) s = .next t ∧ t.bit st (32 + i) = true ∧ SMap.get 0 t.sliceAt m.val = (i + 1) % 8 ∧
        t.count (Reg.memRetrainCnt m.val) = sat (s.count (Reg.memRetrainCnt m.val) + 1)) ∧
    (s.fld st 39 32 ≠ 0 → s.mgt.func = none →
      ∃ t, exec (.retrainSliceEnd m) s = .next t ∧ claimOnlyReg st s t ∧ t.fld st 39 32 = 0) ∧
    (let i := SMap.get 0 s.scrubAt m.val;
      s.epFld (1016 + m.val) (Reg.memScrubCfg m.val) 16 16 = 1 → s.bit st 0 = true →
      s.bit st (32 + gddrPair (scrubAddr m.val i)) = false → i + 1 < 2 ^ 28 → s.poison.contains (scrubAddr m.val i) = false →
      decodeWord (s.mark m.val) e = .clean →
      exec (.scrubRead m e) s = .next { s with scrubAt := SMap.put 0 s.scrubAt m.val (i + 1) }) ∧
    (rsvdBits (Reg.memClear m.val) v = 0 → v.getLsbD 0 = true → s.bit st 2 = false →
      ∃ t, exec (.memClear m v) s = .next t ∧ claimOnlyReg st s t ∧ t.bit st 2 = true) ∧
    (rsvdBits (Reg.memClear m.val) v = 0 → v.getLsbD 0 = false ∨ s.bit st 2 = true → exec (.memClear m v) s = .next s) ∧
    (s.bit st 2 = true → ∃ t, exec (.memClearDone m) s = .next t ∧ t.bit st 2 = false ∧
      (∀ b, b < 0x100_0000_0000 → gddrCtl b = m.val → t.byte b = 0 ∧ b ∉ t.poison) ∧
      ∀ b, (b < 0x100_0000_0000 → gddrCtl b ≠ m.val) → t.byte b = s.byte b) ∧
    (s.bit mark 63 = true → v.getLsbD 63 = false → rsvdBits mark v = 0 →
      ∃ t, exec (.dieMarkWrite k v) s = .next t ∧ t.bit mark 63 = false ∧ t.fld mark 15 0 = 0 ∧
        t.fld mark 31 16 = (v.extractLsb' 16 16).toNat ∧ (∀ d, d < 16 → SMap.get 0 t.dieCnt (16 * k.val + d) = 0) ∧
        ∀ x, x ≠ mark → t.reg x = s.reg x)

/-- HDM_COMMIT commits a decoder that may be, refuses another with ERR, and uncommits one while its port is idle. A configuration
request goes out and is BUSY until it completes with data or with ERR. A CXL access writes its bytes, a line that the device
returns as poisoned is uncorrectable and counted, one without a decoder, link or enabled port fails. Links and ports go down and
up (R403 to R408). -/
def Obligations.CxlCommands : Prop :=
  ∀ (p : Fin 4) (n : Fin 8) (v : BitVec 64) (l : Bool) (s : State), s.domUp 4 = true →
    let ctl := Reg.cxmHdmCtl p.val n.val
    let req := Reg.cxmCfgAddr p.val
    let cfg := Reg.cxmPortCfg p.val
    let st := Reg.cxmPortStat p.val
    (rsvdBits ctl v = 0 → let s1 := s.storeReg ctl v allOnes;
      (s1.bit ctl 0 = true → ∃ t, exec (.hdmCommit p n v) s = .next t ∧ (∀ x, x ≠ ctl → t.reg x = s.reg x) ∧
        t.bit ctl 63 = (s1.setFld ctl 63 63 0).hdmOk p.val n.val ∧ t.bit ctl 62 = !(s1.setFld ctl 63 63 0).hdmOk p.val n.val) ∧
      (s1.bit ctl 0 = false → s.bit st 0 = true → ∃ t, exec (.hdmCommit p n v) s = .next t ∧ t.bit ctl 63 = false ∧
        ∀ x, x ≠ ctl → t.reg x = s.reg x)) ∧
    (s.bit req 63 = false → rsvdBits req v = 0 → ∃ t, exec (.cxlCfgRequest p v) s = .next t ∧ t.bit req 63 = true ∧
      t.out = s.out ++ [.cxlCfg p.val (t.fld req 61 0) (if t.bit req 61 then s.fld (Reg.cxmCfgData p.val) 31 0 else 0)] ∧
      ∀ y, y ≠ req → t.reg y = s.reg y) ∧
    (s.bit req 63 = true → exec (.cxlCfgRequest p v) s = .next s ∧
      (∃ t, exec (.cxlCfgComplete p none) s = .next t ∧ claimOnlyReg req s t ∧ t.bit req 63 = false ∧ t.bit req 62 = true) ∧
      ∀ d, s.bit req 61 = false → ∃ t, exec (.cxlCfgComplete p (some d)) s = .next t ∧ t.bit req 63 = false ∧
        t.bit req 62 = false ∧ t.fld (Reg.cxmCfgData p.val) 31 0 = d.toNat) ∧
    (∀ (a : BitVec 48) (w : Piece) (off : Nat), s.target (a.toNat / 64 * 64) = .cxl p.val off →
      let u := a.toNat / 64 * 64
      (∀ c, s.accessFail u = some c → exec (.cxlAccess a (some w) l) s = .next (s.noteAccessFail u)) ∧
      (s.accessFail u = none →
        (w.bytes ≠ [] → w.off + w.bytes.length ≤ 64 → ∃ t, exec (.cxlAccess a (some w) l) s = .next t ∧
          (∀ i, i < w.bytes.length → t.byte (u + w.off + i) = w.bytes.getD i 0) ∧
          ∀ b, b < u + w.off ∨ u + w.off + w.bytes.length ≤ b → t.byte b = s.byte b) ∧
        (s.poison = [] → exec (.cxlAccess a none false) s = .next s ∧
          (s.fresh.contains u = false → ∃ t, exec (.cxlAccess a none true) s = .next t ∧ t.poison = [u] ∧ (∀ b, t.byte b = s.byte b) ∧
            t.count (Reg.cxmPoisonCnt p.val) = sat (s.count (Reg.cxmPoisonCnt p.val) + 1))))) ∧
    (s.bit st (1 + l.toNat) = true → ∃ t, exec (.cxlLinkDown p l) s = .next t ∧ t.bit st (1 + l.toNat) = false ∧
      t.fld st (31 + 8 * l.toNat) (24 + 8 * l.toNat) = 0 ∧
      t.count (Reg.cxmLinkDownCnt p.val) = sat (s.count (Reg.cxmLinkDownCnt p.val) + 1)) ∧
    (∀ (width : BitVec 8) (rate : BitVec 4), s.bit cfg 63 = true → s.isOff 5 p.val = false → s.bit st (1 + l.toNat) = false →
      (l = true → s.fld cfg 3 2 = 1) → width.toNat = (if s.fld cfg 3 2 = 1 then 8 else 16) →
      s.fld cfg 1 0 ≤ rate.toNat → rate.toNat ≤ 3 →
      ∃ t, exec (.cxlLinkUp p l width rate) s = .next t ∧ claimOnlyReg st s t ∧ t.bit st (1 + l.toNat) = true ∧
        t.fld st (31 + 8 * l.toNat) (24 + 8 * l.toNat) = width.toNat ∧
        t.fld st (19 + 4 * l.toNat) (16 + 4 * l.toNat) = rate.toNat) ∧
    (rsvdBits cfg v = 0 → let s1 := s.storeReg cfg v allOnes;
      (s1.bit cfg 63 = true → exec (.cxlPortCfgWrite p v) s = .next s1) ∧
      (s1.bit cfg 63 = false → ∃ t, exec (.cxlPortCfgWrite p v) s = .next t ∧ t.fld st 2 1 = 0 ∧ t.fld st 39 24 = 0))

/-! ### Cascade links (spec/17_cascade_links.md) -/

/-- A link on whose loss nothing else depends: no request is outstanding, no route names it, no request of R512 runs. -/
def claimCalm (l : Nat) (s : State) : Prop := s.reqs = [] ∧ s.routedBy l = [] ∧ s.mgt.func = none

/-- A cascade link: training ends in QUARANTINE with a new session; a hello makes an attested link ACTIVE, fails a check into
QUARANTINE with its reason, loses the link by a new session, and ends a retrain; a retrain ends at a width or loses the link;
reports, software's writes and quarantine notes act as R414 to R420 and R433 say. A good frame with the expected SEQ is
acknowledged and a bad one gets one NAK; a control frame frees the frames it acknowledges and a NAK replays from there (R413). -/
def Obligations.LinkLife : Prop :=
  ∀ (l : Fin 12) (w : Fin 3) (v : BitVec 64) (h : Hello) (s : State),
    let o := Reg.cslLinkStat l.val
    let st := s.linkState l.val
    let k := s.link l.val
    (s.domUp 4 = true → st = 1 → k.prior = 0 → s.isOff 4 l.val = false →
      ∃ t, exec (.linkTrained l w) s = .next t ∧ t.linkState l.val = 2 ∧ t.fld o 59 56 = 4 ∧
        t.fld o 52 48 = lanes (max w.val (s.maxw l.val)) ∧ (t.link l.val).session = k.session + 1 ∧
        (t.link l.val).retry = [] ∧ t.out = s.out ++ [.frame l.val 3
          [s.devId, l.val, (k.session + 1).toNat, s.fwVersion.toNat, profileVersion.toNat, s.digestOf.toNat]]) ∧
    (st = 2 → k.hello = none → s.helloReason h = 0 → k.attest = .pending →
      ∃ t, exec (.helloReceive l h) s = .next t ∧ t.linkState l.val = 2 ∧ t.fld o 59 56 = 4 ∧ (t.link l.val).hello = some h ∧
        (t.link l.val).nonce.length = 4) ∧
    ((st = 2 ∨ st = 3) → (∀ x, k.hello = some x → x.session = h.session) → s.helloReason h ≠ 0 →
      ∃ t, exec (.helloReceive l h) s = .next t ∧ t.linkState l.val = 2 ∧ t.fld o 59 56 = s.helloReason h) ∧
    (∀ x, k.hello = some x → s.linkGone l.val = false →
      (x.session ≠ h.session → exec (.helloReceive l h) s = .next (s.loseLink l.val)) ∧
      (st = 2 → x.session = h.session → s.helloReason h = 0 → k.attest = .verified →
        ∃ t, exec (.helloReceive l h) s = .next t ∧ t.linkState l.val = 3 ∧ (t.link l.val).hello = some h) ∧
      (x = h → st = 1 → k.prior < 16 → ∃ t, exec (.helloReceive l h) s = .next t ∧ t.linkState l.val = k.prior ∧
        (t.link l.val).prior = 0)) ∧
    (st = 1 → k.prior ≠ 0 → s.mgt.func = none →
      let n := lanes (max w.val (s.maxw l.val))
      let n := if k.asked then n else min n (s.fld o 52 48)
      (∃ t, exec (.linkRetrain l (some w)) s = .next t ∧ t.fld o 52 48 = n ∧
        (n < s.fld o 52 48 → t.count (Reg.cslDegradeCnt l.val) = sat (s.count (Reg.cslDegradeCnt l.val) + 1)) ∧
        (t.link l.val).retry = k.retry.map (fun f => { f with replays := 0 }) ∧
        ∀ f ∈ k.retry, Sent.data l.val f.body (frameWord 0 f.seq f.body) ∈ t.out) ∧
      exec (.linkRetrain l none) s = .next (s.loseLink l.val)) ∧
    (s.linkGone l.val = false → claimCalm l.val s → ∃ t, exec (.linkLoss l) s = .next t ∧
      t.linkState l.val = (if s.bit (Reg.cslLinkCfg l.val) 63 then 1 else 0) ∧ t.link l.val = { session := k.session } ∧
      t.count (Reg.cslDownCnt l.val) = sat (s.count (Reg.cslDownCnt l.val) + 1)) ∧
    (∀ r dev mid root, st = 2 ∨ st = 3 → k.attest ≠ .failed →
      (s.reportOk l.val r dev mid root = false → ∀ other, ∃ t, exec (.peerReportVerify l r dev mid root other) s = .next t ∧
        (t.link l.val).attest = .failed) ∧
      (s.reportOk l.val r dev mid root = true → ∃ t, exec (.peerReportVerify l r dev mid root true) s = .next t ∧
        (t.link l.val).attest = .verified ∧ ∀ x, k.hello = some x → s.helloReason x = 0 → t.linkState l.val = 3)) ∧
    (∀ (reporter peer : BitVec 12) (reason : BitVec 4) (u : State), s.isMaster = true → s.domUp 4 = true →
      s.bit Reg.cslQlog 63 = false → s.takeNote reporter.toNat "quarantine" [l.val, peer.toNat, reason.toNat] = some u →
      ∃ t, exec (.quarantineReport reporter l peer reason) s = .next t ∧ t.bit Reg.cslQlog 63 = true ∧
        t.fld Reg.cslQlog 59 56 = reason.toNat ∧ t.fld Reg.cslQlog 55 52 = l.val ∧ t.fld Reg.cslQlog 39 28 = reporter.toNat ∧
        t.fld Reg.cslQlog 11 0 = peer.toNat) ∧
    (s.domUp 4 = true →
      (rsvdBits (Reg.cslLinkCfg l.val) v = 0 → let s1 := s.storeReg (Reg.cslLinkCfg l.val) v allOnes;
        (s1.bit (Reg.cslLinkCfg l.val) 63 = true → st = 0 → s.isOff 4 l.val = false →
          ∃ t, exec (.linkCfgWrite l v) s = .next t ∧ t.linkState l.val = 1) ∧
        (s1.bit (Reg.cslLinkCfg l.val) 63 = false → ∃ t, exec (.linkCfgWrite l v) s = .next t ∧ t.linkState l.val = 0)) ∧
      (claimCalm l.val s → ∃ t, exec (.linkExclude l) s = .next t ∧ t.linkState l.val = 4 ∧
        t.link l.val = { session := k.session })) ∧
    (st = 2 ∨ st = 3 →
      (k.attest ≠ .failed → ∃ t, exec (.linkRecheck l) s = .next t ∧ (t.link l.val).attest = .pending ∧
        Sent.frame l.val 3 [s.devId, l.val, k.session.toNat, s.fwVersion.toNat, profileVersion.toNat, s.digestOf.toNat] ∈ t.out) ∧
      (∃ t, exec (.linkRetrainRequest l) s = .next t ∧ t.linkState l.val = 1 ∧ (t.link l.val).prior = st ∧
        (t.link l.val).asked = true) ∧
      (∀ (body : List Byte) (x : BitVec 32),
        (body.length = 256 → frameCrc body x = x.setWidth 16 → x.extractLsb' 28 4 = 0 →
          (x.extractLsb' 16 12).toNat = k.rxSeq →
          ∃ t, exec (.dataFrameReceive l body x .clean) s = .next t ∧
            (t.link l.val).rxSeq = (k.rxSeq + 1) % 4096 ∧ (t.link l.val).naked = false ∧
            (t.link l.val).inbox = k.inbox ++
              (parsePackets 65 (k.rx ++ body)).1.filter (fun p => decide (p.dev = s.devId) || p.isRequest) ∧
            Sent.frame l.val 1 [(k.rxSeq + 1) % 4096, 0] ∈ t.out) ∧
        (k.naked = false → ∃ t, exec (.dataFrameReceive l body x .uncorrectable) s = .next t ∧ (t.link l.val).naked = true ∧
          (t.link l.val).rxSeq = k.rxSeq ∧ t.out = s.out ++ [.frame l.val 1 [k.rxSeq, 1]] ∧
          t.count (Reg.cslFecUncorrCnt l.val) = sat (s.count (Reg.cslFecUncorrCnt l.val) + 1))) ∧
      ∀ (ack : BitVec 12) (f : Frame) (fs : List Frame), k.retry = f :: fs → k.waiting = [] →
        let d := (ack.toNat + 4096 - f.seq) % 4096
        let again := (k.retry.drop d).map fun g => { g with replays := g.replays + 1 }
        d ≤ k.retry.length →
        (∃ t, exec (.controlFrameReceive l ack false) s = .next t ∧ t = { s with links := t.links } ∧
          (t.link l.val).retry = k.retry.drop d) ∧
        (again ≠ [] → ∃ t, exec (.controlFrameReceive l ack true) s = .next t ∧ (t.link l.val).retry = again ∧
          t.out = s.out ++ again.map (fun g => .data l.val g.body (frameWord 0 g.seq g.body)) ∧
          t.count (Reg.cslReplayCnt l.val) = sat (s.count (Reg.cslReplayCnt l.val) + 1) ∧
          ((∃ g ∈ again, 8 ≤ g.replays) → t.linkState l.val = 1)))

/-- A remote request for this device whose packet has arrived on an ACTIVE link is refused or served: a write stores its bytes,
a read answers with the bytes and changes none, an arrival adds to its counter, a wait at a counter behind its target is
registered. An answer ends an arrival's work or releases a waiter, or ends it with the code it carries. The group's step, losses
and drops are kept as R426, R435 and R436 say. -/
def Obligations.RemoteAndGroup : Prop :=
  ∀ (l : Fin 12) (r : Remote) (s u : State),
    let a := r.addr.toNat % 2 ^ 48
    let v := u.poolTouch a (RemoteOp.reach r.op)
    (s.linkState l.val = 3 → r.addr.toNat >>> 48 % 4096 = s.devId → s.takeIn l.val (Remote.isIn r) = some u →
      RemoteOp.managed r.op = false →
      (∀ c, s.remoteRefuse r.addr.toNat = some c → exec (.remoteRequest l r) s = .next (u.answer r 7 c.toNat [])) ∧
      (s.remoteRefuse r.addr.toNat = none → s.paused = false → s.training a (RemoteOp.reach r.op) = false →
        (∀ bs, r.op = .write bs → a + bs.length ≤ 0x2000_C800_0000 → ∃ t, exec (.remoteRequest l r) s = .next t ∧
          (∀ i, i < bs.length → t.byte (a + i) = bs.getD i 0) ∧
          ∀ b, b < a ∨ a + bs.length ≤ b → t.byte b = s.byte b) ∧
        (∀ n, r.op = .read n → ∃ t, exec (.remoteRequest l r) s = .next t ∧ (∀ b, t.byte b = s.byte b) ∧
          (s.poison = [] → t = v.answer r 1 0 (v.rdBytes a n.val))) ∧
        (a % 4 = 0 → s.poison = [] → s.clearing a = false →
          (∀ inc, r.op = .add inc → ∃ t, exec (.remoteRequest l r) s = .next t ∧ t.word32 a = s.word32 a + inc ∧
            ∀ b, b < a ∨ a + 4 ≤ b → t.byte b = s.byte b) ∧
          (∀ x, r.op = .wait x → (s.word32 a - x).toInt < 0 → ∃ t y, exec (.remoteRequest l r) s = .next t ∧
            t = { v with watches := s.watches ++ [y] } ∧ y.home = a ∧ y.target = x ∧ y.who = .remote l r.src r.tag ∧
            y.fired = false)))) ∧
    (∀ (tag : BitVec 16) (q : Req) (x : RemoteAns), s.reqs.find? (fun y => y.id % 65536 == tag.toNat) = some q →
      s.takeAny (s.isAnswer tag.toNat x) = some u →
      (∀ m n k, q.purpose = .arrive m n → k ∈ (s.seq (SeqId.ofNum m)).works → k.seq = n → k.status = .running →
        let c : Code := match x with | .ack => .ok | .neg c => Code.ofByte c.toNat
        ∃ t, exec (.remoteResponse tag x) s = .next t ∧ claimEnded (SeqId.ofNum m) n c t ∧ ∀ y ∈ t.reqs, y.id ≠ q.id) ∧
      (∀ m, q.purpose = .wait (.seq m) → (s.seq m).barWait.isSome = true → x = .ack →
        ∃ t, exec (.remoteResponse tag x) s = .next t ∧ (∀ y ∈ t.reqs, y.id ≠ q.id) ∧
          t.seq m = { s.seq m with run := .running, pc := (s.seq m).pc + 1, barWait := none })) ∧
    (s.domUp 4 = true → ∀ (v : BitVec 64) (f reporter : BitVec 12),
      (s.isMaster = false →
        (s.takeNote 0 "gstep" [v.toNat] = some u → exec (.gstepNotice v) s = .next (u.setReg Reg.cslGstep v)) ∧
        (s.takeNote reporter.toNat "lost" [f.toNat] = some u → exec (.lostReport f reporter) s = .next u) ∧
        (rsvdBits Reg.rslDrop v = 0 → exec (.rslDrop v) s = .next s)) ∧
      (s.isMaster = true → f ≠ 0 → s.isLive f.toNat = true →
        (s.bit Reg.rslPolicy 0 = false → s.bit Reg.rslPending 63 = false →
          s.takeNote reporter.toNat "lost" [f.toNat] = some u →
          ∃ t, exec (.lostReport f reporter) s = .next t ∧ claimOnlyReg Reg.rslPending u t ∧
            t.bit Reg.rslPending 63 = true ∧ t.fld Reg.rslPending 35 24 = reporter.toNat ∧
            t.fld Reg.rslPending 11 0 = f.toNat) ∧
        (rsvdBits Reg.rslDrop v = 0 → v.extractLsb' 0 12 = f →
          ∃ t, exec (.rslDrop v) s = .next t ∧ SMap.get 0 t.dropStep f.toNat = (s.reg Reg.cslGstep).toNat + 1 ∧
            ∀ d, s.isLive d = true → d ≠ s.devId →
              Sent.notice d "drop" [f.toNat, (s.reg Reg.cslGstep).toNat] ∈ t.out)) ∧
      (s.takeNote 0 "drop" [f.toNat, v.toNat] = some u → s.bit Reg.rslDropLog 63 = false →
        ∃ t, exec (.dropNotice f v) s = .next t ∧ SMap.get 0 t.dropStep f.toNat = v.toNat + 1 ∧
          t.bit Reg.rslDropLog 63 = true ∧ t.fld Reg.rslDropLog 59 48 = f.toNat ∧
          t.fld Reg.rslDropLog 47 0 = v.toNat % 2 ^ 48))

/-! ### Surviving failures (spec/18_resilience_cairns.md) -/

/-- A cairn block at a word index of the control-cluster SRAM, with its segment list behind it (R445). -/
def claimCairn (s : State) (i : Nat) : Cairn :=
  let b := s.rdBytes (0x3000_0000_0000 + 4 * i) 128
  ⟨b ++ s.rdBytes (0x3000_0000_0000 + 4 * blockField b 0x18 4) (16 * blockField b 0x1C 4)⟩

/-- CAIRN in both rows takes its handle and pauses the device at once where nothing holds it back; once everything is quiet its
image is written and counted, or restored, and the work has ended; a drain's end writes its code. Holds, restores and rejoins run
as R441 to R444 say: a hold stands until its release or a refusal, a restore counts its pieces and ends with 0x40 where its
device cannot be reached, a rejoined device is dropped no longer. -/
def Obligations.Resilience : Prop :=
  ∀ (s : State),
    (∀ (n : Fin 4) (w : Issue) (fd : SReg) (a1 : AReg) (h : Nat) (restore : Bool), w.u = .cp n → claimIssuesTensor w h s →
      let q := s.seq w.u
      let i := (q.getA a1).toNat
      let c := claimCairn s i
      let cmd (r : Bool) : Instr := if r then .cairnRestore w fd a1 else .cairn w fd a1
      (∀ k : Fin 4, (s.seq (.cp k)).works = []) → i % 32 = 0 → i + 32 ≤ 16777216 → s.poison = [] → 1 ≤ c.nseg → c.nseg ≤ 224 →
      c.fld 0x18 4 + 4 * c.nseg ≤ 16777216 → s.cairnOk c = true → c.restore = restore →
      (exec (cmd (!restore)) s = .next s) ∧
      (s.isOff 7 50 = false → s.rsl.drains = [] → (restore = true → s.restoreOk c = true) →
        ∃ t k, exec (cmd restore) s = .next t ∧ (t.seq w.u).getH h = .busy ∧ (t.seq w.u).works = [k] ∧ k.status = .running ∧
          k.handle = h ∧ t.rsl.cairn = some (0x3FC + n.val, q.nseq) ∧ t.fld Reg.rslCairnStat 63 62 = 1 ∧
          t.fld Reg.rslCairnStat 31 0 = c.id ∧ (t.seq w.u).pc = q.pc + 1 ∧ ∀ b, t.byte b = s.byte b)) ∧
    (∀ (n : Fin 4) (w : Work), s.rsl.cairn = some (0x3FC + n.val, w.seq) → s.seqs = [(0x3FC + n.val, s.seq (.cp n))] →
      (s.seq (.cp n)).works = [w] → w.status = .running →
      let c : Cairn := ⟨w.block⟩
      (s.quiet = true → c.restore = false → s.imageLen c ≤ c.snapLen → c.drain = false →
        ∃ t, exec .cairnResume s = .next t ∧ t.rsl.cairn = none ∧ claimEnded (.cp n) w.seq .ok t ∧
          t.count Reg.rslCairnCnt = sat (s.count Reg.rslCairnCnt + 1)) ∧
      (s.quiet = true → c.restore = true →
        ∃ t, exec .cairnResume s = .next t ∧ t.rsl.cairn = none ∧ claimEnded (.cp n) w.seq .ok t ∧
          (t.seq (.cp n)).step = BitVec.ofNat 64 (s.rdLE (c.snap + 0x10) 8)) ∧
      (s.quiet = false → exec .cairnResume s = .next s)) ∧
    (∀ d ds lost, s.rsl.drains = d :: ds → ∃ t, exec (.cairnDrainEnd lost) s = .next t ∧ t.rsl.drains = ds ∧
      t.fld Reg.rslCairnStat 39 32 = ((s.drainRun d lost).code.max (if lost then .link else .ok)).toNat) ∧
    (s.domUp 4 = true → s.isMaster = true → ∀ (v : BitVec 64) (d : BitVec 12),
      let h := (s.storeReg Reg.rslHold v allOnes).fld Reg.rslHold 47 0
      let ovr_ (code : Nat) (t : State) : Prop :=
        t.bit Reg.rslHold 62 = false ∧ t.fld Reg.rslHold 55 48 = code ∧ t.rsl.hold = none ∧
        ∀ x, s.isLive x = true → x ≠ s.devId → Sent.notice x "release" [] ∈ t.out
      (v.getLsbD 63 = false → rsvdBits Reg.rslHold v = 0 → s.loopStep ≤ h → ∃ t, exec (.holdStart v) s = .next t ∧ t.bit Reg.rslHold 62 = true ∧
        t.rsl.hold = some h ∧ t.rsl.reports = [] ∧ ∀ x, s.isLive x = true → x ≠ s.devId → Sent.notice x "hold" [h] ∈ t.out) ∧
      (v.getLsbD 63 = false → rsvdBits Reg.rslHold v = 0 → h < s.loopStep → ∃ t, exec (.holdStart v) s = .next t ∧ ovr_ 0x41 t) ∧
      (∃ t, exec .holdRelease s = .next t ∧ ovr_ 0 t) ∧
      (∀ u, s.bit Reg.rslHold 62 = true →
        (s.takeNote d.toNat "holdReport" [1] = some u → ∃ t, exec (.holdReport d true) s = .next t ∧ (∀ x, x ∈ t.rsl.reports ↔ x = d.toNat ∨ x ∈ s.rsl.reports) ∧
          ((∀ x, s.isLive x = true → x = d.toNat ∨ x ∈ s.rsl.reports) → t.bit Reg.rslStat 2 = true)) ∧
        (s.takeNote d.toNat "holdReport" [0] = some u → ∃ t, exec (.holdReport d false) s = .next t ∧ ovr_ 0x41 t))) ∧
    (s.domUp 4 = true → s.isMaster = false → ∀ (h : BitVec 48) (u : State),
      (s.takeNote 0 "hold" [h.toNat] = some u →
        (s.loopStep ≤ h.toNat → exec (.holdNotice (some h)) s =
          .next { u with rsl := { s.rsl with hold := some h.toNat, told := false } }) ∧
        (h.toNat < s.loopStep → exec (.holdNotice (some h)) s = .next (u.notify 0 "holdReport" [0]))) ∧
      (s.takeNote 0 "release" [] = some u →
        exec (.holdNotice none) s = .next { u with rsl := { s.rsl with hold := none, told := false } })) ∧
    (s.domUp 4 = true → s.bit Reg.rslRestoreStat 63 = false → ∀ (i : BitVec 32) (confirmed : Bool),
      let b := s.rdBytes (0x3000_0000_0000 + 4 * i.toNat) 64
      let x : Restore := ⟨b, s.rdBytes (0x3000_0000_0000 + 4 * blockField b 0x10 4) (32 * blockField b 0 4), 0, 0, false⟩
      (16777216 < i.toNat + 16 → ∃ t, exec (.restoreStart i confirmed) s = .next t ∧ t.rsl = s.rsl ∧
        t.fld Reg.rslRestoreStat 39 32 = 0x22) ∧
      (i.toNat + 16 ≤ 16777216 → blockField b 0x10 4 + 8 * blockField b 0 4 ≤ 16777216 → x.ok s = true → x.len 0 ≠ 0 →
        (∃ t, exec (.restoreStart i false) s = .next t ∧ t.rsl = s.rsl ∧ t.fld Reg.rslRestoreStat 39 32 = 0x41) ∧
        (x.sources.all s.linksUp = false → ∃ t, exec (.restoreStart i true) s = .next t ∧ t.rsl = s.rsl ∧
          t.fld Reg.rslRestoreStat 39 32 = 0x40) ∧
        (x.sources.all s.linksUp = true → ∃ t, exec (.restoreStart i true) s = .next t ∧ t.rsl.restore = some x ∧
          t.bit Reg.rslRestoreStat 63 = true ∧ t.bit Reg.rslStat 3 = true ∧ t.rsl.cut = false))) ∧
    (∀ x, s.rsl.restore = some x →
      (∀ d b, ∃ t, exec (.restorePiece none d b) s = .next t ∧ t.rsl.restore = none ∧ t.bit Reg.rslRestoreStat 63 = false ∧
        t.fld Reg.rslRestoreStat 39 32 = 0x40) ∧
      (∀ bs, bs.length = x.pieceLen → s.linksUp x.devA = true → x.seg < x.nseg →
        x.dst x.seg + x.off + x.pieceLen ≤ 0x100_0000_0000 →
        let stored (t : State) : Prop := (∀ k, k < bs.length → t.byte (x.dst x.seg + x.off + k) = bs.getD k 0) ∧
          t.count Reg.rslRestorePieceCnt = sat (s.count Reg.rslRestorePieceCnt + 1)
        (x.devB = 0xFFFF → ({ x with noted := true } : Restore).advance.more = true →
          ∃ t, exec (.restorePiece (some bs) none none) s = .next t ∧ stored t ∧
            t.count Reg.rslUnverifiedCnt = sat (s.count Reg.rslUnverifiedCnt + 1) ∧
            t.rsl.restore = some ({ x with noted := true } : Restore).advance) ∧
        (x.devB ≠ 0xFFFF → s.linksUp x.devB = true → x.advance.more = true →
          ∃ t, exec (.restorePiece (some bs) (some (shake256 bs 64)) none) s = .next t ∧ stored t ∧
            t.rsl.restore = some x.advance))) ∧
    (s.domUp 4 = true → ∀ (src f : BitVec 12) (a : BitVec 48) (len : BitVec 31) (v : BitVec 64) (u : State),
      let plain : Prop := s.fld Reg.rslRoster 47 0 + 1024 ≤ sramBase + 0x03FD_0000
      (s.takeNote src.toNat "digestAsk" [a.toNat, 1, len.toNat] = some u →
        exec (.restoreDigestRequest src (some a) len) s = .next (u.notify src.toNat "digest"
          ((shake256 (s.rdBytes a.toNat (min len.toNat (2 ^ 30))) 64).map BitVec.toNat))) ∧
      (s.isMaster = true → plain → s.takeNote f.toNat "rejoin" [v.toNat] = some u →
        ∃ t, exec (.rejoin f v) s = .next t ∧ SMap.get 0 t.dropStep f.toNat = 0 ∧ t.dropped f.toNat = false ∧
          ∀ d, t.isLive d = true → d ≠ s.devId → Sent.notice d "rejoin" [f.toNat, v.toNat + 1] ∈ t.out) ∧
      (plain → s.takeNote 0 "rejoin" [f.toNat, v.toNat] = some u →
        ∃ t, exec (.rejoinNotice f v) s = .next t ∧ SMap.get 0 t.dropStep f.toNat = 0 ∧ t.dropped f.toNat = false ∧
          t = { u with mem := t.mem, regs := t.regs, dropStep := t.dropStep }))


/-! ### The host interface (spec/19_host_interface.md) -/

/-- A host access within one aligned row of BAR4 that meets no poison writes its bytes and no other, or answers the bytes that
stand there; one that misses returns all ones or is discarded, is counted, and the first is recorded. A failed access to host
memory ends its requester and is counted. The link's state and the MSI-X masks change as R464 and R465 say, a waiting or pending
message being sent once it can; the DOE mailbox answers discovery with 4 bytes and drops the object in progress (R458 to R466). -/
def Obligations.HostInterface : Prop :=
  ∀ (s : State), s.domUp 2 = true →
    (∀ (off : BitVec 40) (x : HostAcc),
      let a := s.windowAddr off.toNat
      let n := HostAcc.len x
      s.bit Reg.hifLinkStat 0 = true → 0 < n → off.toNat % 128 + n ≤ 128 → off.toNat + n ≤ 2 ^ s.bar4 →
      let u := s.poolTouch a n
      (s.windowMiss a = false → s.windowWaits a n = false → s.poison = [] → (∀ i, i < n → s.clearing (a + i) = false) →
        (∀ m, x = .read m → exec (.hostWindowAccess off x) s =
          .next { u with out := s.out ++ [.answer "hostRead" ((List.range n).map fun i => s.byte (a + i))] }) ∧
        (∀ bs, x = .write bs → (a + n ≤ 0x3000_03FD_0000 ∨ 0x3000_03FE_0000 ≤ a) →
          ∃ t, exec (.hostWindowAccess off x) s = .next t ∧ t = { u with mem := t.mem } ∧
            (∀ i, i < n → t.byte (a + i) = bs.getD i 0) ∧
            ∀ b, b < 2 ^ 48 → (b < a ∨ a + n ≤ b) → t.byte b = s.byte b)) ∧
      (s.windowMiss a = true → ∃ t, exec (.hostWindowAccess off x) s = .next t ∧
        t.count Reg.hifBadAccessCnt = sat (s.count Reg.hifBadAccessCnt + 1) ∧ (∀ b, t.byte b = s.byte b) ∧
        t.out = s.out ++ (if HostAcc.isWrite x then [] else [.answer "hostRead" (List.replicate n 0xFF)]))) ∧
    (∀ (bar : Bar) (off : BitVec 40) (n : Fin 65) (wr : Bool), s.bit Reg.hifLinkStat 0 = true →
      s.hostMisses bar off.toNat = true → ∃ t, exec (.hostAccessMiss bar off n wr) s = .next t ∧
        t.count Reg.hifBadAccessCnt = sat (s.count Reg.hifBadAccessCnt + 1) ∧ (∀ b, t.byte b = s.byte b) ∧
        t.out = s.out ++ (if wr then [] else [.answer "hostRead" (List.replicate n.val 0xFF)]) ∧
        (s.bit Reg.hifBadAddr 63 = true → t.bit Reg.hifBadAddr 62 = true) ∧
        (s.bit Reg.hifBadAddr 63 = false → t.bit Reg.hifBadAddr 63 = true ∧ t.fld Reg.hifBadAddr 39 0 = off.toNat ∧
          t.bit Reg.hifBadAddr 61 = wr ∧ t.fld Reg.hifBadAddr 51 48 = (if bar = .bar0 then 0 else if bar = .bar2 then 2 else 4))) ∧
    (∀ q : Fin 64,
      let o := Reg.ctlSqStat q.val
      let cfg := s.reg (Reg.ctlSqCfg q.val)
      s.bit (Reg.ctlSqCfg q.val) 63 = true → s.bit o 63 = false → 0 < dist32 (s.sqTail q.val) (s.sqHead q.val) →
      s.hostAt (ringBase cfg + 64 * (s.sqHead q.val % ringSize cfg)) = true → ∀ p,
      ∃ t, exec (.hostDmaFail (.fetch q) p) s = .next t ∧ t.bit o 63 = true ∧ t.fld o 55 48 = 2 ∧
        t.count Reg.hifDmaErrCnt = sat (s.count Reg.hifDmaErrCnt + 1) ∧ t = { s with regs := t.regs, cnt := t.cnt }) ∧
    (∀ (q : Fin 64) (idx : BitVec 32) (c : Cmd) (p : Bool), claimRuns q idx 1 c s → c.begun = false →
      s.hostAt (c.fld 0x18 8) = true → ∃ t, exec (.hostDmaFail (.args q idx) p) s = .next t ∧
        claimDone c (if p then .ecc else .prot) 0 s t ∧ t = { s with cmds := t.cmds, cnt := t.cnt }) ∧
    (∀ (n : Fin 216) (id : Nat) (va : BitVec 48) (wr p : Bool) (x : Transfer), s.xfer n.val id = some x → x.ended = false →
      s.hostVa (s.epReg (sipUnit n.val) Reg.sipPtRoot) va.toNat (sipEng n.val) wr = true →
      ∃ t, exec (.hostDmaFail (.transfer n id va wr) p) s = .next t ∧ t.bit (Reg.sipFault n.val) 63 = true ∧
        (∀ b, t.byte b = s.byte b) ∧ t.count Reg.hifDmaErrCnt = sat (s.count Reg.hifDmaErrCnt + 1)) ∧
    (∀ (u : SeqId) (va : BitVec 48) (wr p : Bool), (s.seq u).run = .running →
      s.hostVa (s.epReg u.epochUnit Reg.sipPtRoot) va.toNat 0 wr = true →
      ∃ t, exec (.hostDmaFail (.global u va wr) p) s = .next t ∧
        claimFault u (if p then .ecc else .prot) (if p then 0x87 else if wr then 0x11 else 0x10) va.toNat s t) ∧
    (∀ c : HostCfg, ∃ t, exec (.hostLinkUp c) s = .next t ∧ t.bit Reg.hifLinkStat 0 = true ∧
      t.bit Reg.hifLinkStat 1 = c.bme ∧ t.bar4 = 30 + c.bar4.val ∧ t.fnMask = c.fnMask ∧ (∀ u, t.seq u = s.seq u) ∧
      (c.bme = false → t.msixWait = s.msixWait ∧ t.out = s.out) ∧
      (c.bme = true → c.fnMask = false → (∀ v ∈ s.msixWait, s.bit (Reg.hifMsixData v) 32 = false) →
        (∀ v ∈ s.msixWait, v < 2048) → t.msixWait = [] ∧ t.out = s.out ++ s.msixWait.map fun v =>
          .msix v (s.reg (Reg.hifMsixAddr v)).toNat (s.fld (Reg.hifMsixData v) 31 0))) ∧
    (∀ b : Bool, ∃ t, exec (.hostLinkDown b) s = .next t ∧ t = { s with regs := t.regs } ∧ t.bit Reg.hifLinkStat 1 = false ∧
      t.bit Reg.hifLinkStat 0 = (b && s.bit Reg.hifLinkStat 0) ∧ ∀ o, o ≠ Reg.hifLinkStat → t.reg o = s.reg o) ∧
    (∀ v : Fin 2048, ∃ t, exec (.msixUnmask (some v)) s = .next t ∧ t.bit (Reg.hifMsixData v.val) 32 = false ∧
      (s.bit (Reg.hifPba (v.val / 64)) (v.val % 64) = false → t.out = s.out) ∧
      (s.bit (Reg.hifPba (v.val / 64)) (v.val % 64) = true → s.fnMask = false → s.hostUp = true →
        t.bit (Reg.hifPba (v.val / 64)) (v.val % 64) = false ∧ t.out = s.out ++
          [.msix v.val (s.reg (Reg.hifMsixAddr v.val)).toNat (s.fld (Reg.hifMsixData v.val) 31 0)])) ∧
    (∃ t, exec (.msixUnmask none) s = .next t ∧ t.fnMask = false ∧
      ∀ v : Fin 2048, s.bit (Reg.hifMsixData v.val) 32 = false → t.bit (Reg.hifPba (v.val / 64)) (v.val % 64) = false) ∧
    (∀ i : BitVec 8, s.booted = true → s.bit Reg.hifLinkStat 0 = true → s.doeBusy = false →
      let v := s.fuses.vendor % 2 ^ 16
      exec (.doeDiscovery i) s = .next { s with out := s.out ++ [.answer "doe" (natLE 4
        (if i = 0 then 0x0100_0001 else if i = 1 then v + 0x0201_0000 else if i = 2 then v + 0x0002_0000 else 0xFFFF))] }) ∧
    (∃ t, exec .doeAbort s = .next t ∧ t = { s with sec := t.sec } ∧ (∀ r ∈ t.sec.reports, r.reply ≠ .doe) ∧
      t.sec.reports.map (fun r => (r.reply, r.nonce)) =
        (s.sec.reports.filter fun r => r.reply != .doe).map fun r => (r.reply, r.nonce))

/-! ### Security and management (spec/20_security_identity.md, spec/22_management_selftest_errors.md) -/

/-- A management message that the processor takes up now: it arrives by `v`, is well-formed, and its answer goes to `to`. -/
def claimAsked (v : Via) (m : Msg) (to_ : ReplyTo) (s : State) : Prop :=
  s.recovery = false ∧ s.domUp 1 = true ∧ s.mgt.serving = none ∧ (v = .mailbox → s.mgt.asked = true) ∧
    (s.request_ v).1 = to_ ∧ parseMsg (s.request_ v).2 = some m

/-- The ROM starts the first slot whose image passes every check, or the other, or enters recovery with both failure codes; the
anti-rollback counter rises to the value written, within the running SVN; the debug unlock follows its nonce, tokens and lock.
Each management message is answered as R507 says, reports and certificates as R480 says, sensors by their latest sample, and the
watchdog's key clears STAGE1 (R473 to R483, R505 to R511). -/
def Obligations.SecurityManagement : Prop :=
  ∀ (s : State),
    (∀ r0 r1 : Bool, s.domUp 0 = true → s.fld Reg.secBootStat 63 60 = 0 →
      let f (k : Nat) := s.imageFail k (if k = 0 then r0 else r1)
      let a := s.firstSlot
      let b := 1 - a
      ∃ t, exec (.firmwareBoot r0 r1) s = .next t ∧
        (∀ k, ((f a = 0 ∧ k = a) ∨ (f a ≠ 0 ∧ f b = 0 ∧ k = b)) → t.fld Reg.secBootStat 63 60 = 1 ∧
          t.fld Reg.secBootStat 59 56 = k ∧ t.fld Reg.secBootStat 31 0 = s.imageFld k 4 4 ∧
          t.bit Reg.secBootStat 32 = (k == b) ∧ t.sec.svn = s.imageFld k 8 4 ∧ t.bit Reg.rstReady 1 = true) ∧
        (f a ≠ 0 → f b ≠ 0 → t.fld Reg.secBootStat 63 60 = 2 ∧ t.fld Reg.secBootStat 59 56 = 15 ∧
          t.fld Reg.secBootStat 55 48 = f 0 ∧ t.fld Reg.secBootStat 47 40 = f 1 ∧
          ∀ o, o ≠ Reg.secBootStat → t.reg o = s.reg o)) ∧
    (∀ v : BitVec 64, s.domUp 0 = true → s.booted = true → rsvdBits Reg.secRollbackAdv v = 0 →
      let n := (v.extractLsb' 0 7).toNat
      (s.fuses.rollback < n → n ≤ s.sec.svn →
        exec (.rollbackAdv v) s = .next { s with fuses := { s.fuses with rollback := n } }) ∧
      (n ≤ s.fuses.rollback ∨ s.sec.svn < n → exec (.rollbackAdv v) s = .next s)) ∧
    (s.domUp 0 = true →
      (∃ t, exec .debugNewnonce s = .next t ∧ t.sec = { s.sec with nonceLive := true } ∧
        ∀ o, (∀ k, k < 4 → o ≠ Reg.secDebugNonce k) → t.reg o = s.reg o) ∧
      (∃ t, exec .debugLock s = .next t ∧ claimOnlyReg Reg.secDebugStat s t ∧ t.fld Reg.secDebugStat 2 0 = 0 ∧
        t.bit Reg.secDebugStat 63 = s.bit Reg.secDebugStat 63) ∧
      ∀ b, s.booted = true →
        (s.tokenOk b = true → ∃ t, exec (.debugToken (.tap b)) s = .next t ∧ t.sec = { s.sec with nonceLive := false } ∧
          t.bit Reg.secDebugStat 63 = true ∧ (∀ o, o ≠ Reg.secDebugStat → t.reg o = s.reg o) ∧
          t.fld Reg.secDebugStat 2 0 = Nat.lor (s.fld Reg.secDebugStat 2 0) (blockField b 0x48 8 % 8)) ∧
        (s.tokenOk b = false →
          exec (.debugToken (.tap b)) s = .next { s with sec := { s.sec with nonceLive := false } })) ∧
    (∀ (v : Via) (m : Msg) (to_ : ReplyTo), claimAsked v m to_ s →
      (m.ty = 1 → m.addr % 8 = 0 → m.body = [] → exec (.readReg v) s = .next (s.respond to_ 0 (natLE 8
        (match s.msgReg m.addr with | some (r, ix) => (s.regRead r ix m.addr).toNat | none => 2 ^ 64 - 1)))) ∧
      (m.ty = 2 → m.addr % 8 = 0 → m.body.length = 8 → s.msgReg m.addr = none →
        exec (.writeReg v) s = .next (s.respond to_ 0 [])) ∧
      (m.ty = 2 → m.addr % 8 = 0 → m.body.length = 8 → ∀ r ix, s.msgReg m.addr = some (r, ix) →
        let t := s.regWrite r ix m.addr (BitVec.ofNat 64 (leNat m.body)) allOnes
        exec (.writeReg v) s = .next (if t.domUp 1 then t.respond to_ 0 [] else t)) ∧
      (m.ty = 3 → m.body = [] → ∀ r ix, s.msgReg m.addr = some (r, ix) → r.isCnt = true →
        exec (.peek v) s = .next (s.respond to_ 0 (natLE 8 (s.count m.addr % 2 ^ 64)))) ∧
      (m.ty = 4 → m.body.length = 8 → s.bit Reg.mgtFuncStat 63 = false → exec (.func v) s =
        .next ((s.onMgt fun g => { g with serving := some to_ }).startFunc (BitVec.ofNat 64 (leNat m.body)) (some to_))) ∧
      (m.ty = 5 → m.body.length ≤ 0x1_0000 → m.addr + m.body.length ≤ 0x100_0000 →
        let slot := 0x80_0000 * s.fld Reg.secBootStat 59 56
        (m.addr + m.body.length ≤ slot ∨ slot + 0x80_0000 ≤ m.addr → ∃ t : State, exec (.flashWrite v) s = .next (t.respond to_ 0 []) ∧
          t = { s with sec := { s.sec with flash := t.sec.flash } } ∧ ∀ a, t.flash a =
            (if m.addr ≤ a ∧ a < m.addr + m.body.length then m.body.getD (a - m.addr) 0 else s.flash a)) ∧
        (slot < m.addr + m.body.length ∧ m.addr < slot + 0x80_0000 → exec (.flashWrite v) s = .next (s.respond to_ 0x20 []))) ∧
      (m.ty = 7 → m.body = [] → exec (.certs (.msg v)) s = .next (s.respond to_ 0 s.certs)) ∧
      (m.ty = 8 → s.tokenOk m.body = false → exec (.debugToken (.msg v)) s =
        .next (({ s with sec := { s.sec with nonceLive := false } } : State).respond to_ 0x20 []))) ∧
    (∀ b : List Byte, s.booted = true → s.domUp 2 = true → s.bit Reg.hifLinkStat 0 = true → s.doeBusy = false →
      exec (.certs (.doe [])) s = .next { s with out := s.out ++ [.answer "doe" s.certs] } ∧
      (b.length = 32 → s.sec.reports = [] → exec (.attest (.doe b)) s =
        .next { s with sec := { s.sec with reports := [⟨.doe, b, some (s.reportBody b)⟩] } }) ∧
      (b.length = 32 → 16 ≤ s.sec.reports.length → ∃ t, exec (.attest (.doe b)) s = .next t ∧ t.sec = s.sec ∧
        t.count Reg.secAttestBusyCnt = sat (s.count Reg.secAttestBusyCnt + 1))) ∧
    (∀ (r : ReplyTo) (n b : List Byte), s.sec.reports = [⟨r, n, some b⟩] → exec .attestSigned s =
      .next (({ s with sec := { s.sec with reports := [] } } : State).respond r 0 (b ++ Config.slhSign s.fuses.idSeed b))) ∧
    (s.domUp 1 = true → s.recovery = false →
      (∀ e : BitVec 8, ∃ t, exec (.setEndpointId e) s = .next t ∧ t.mgt = { s.mgt with eid := e.toNat } ∧
        t.out = s.out ++ [.answer "mctpControl" [e]]) ∧
      (∀ i : BitVec 16, ∃ bs, exec (.pldmSensorRead i) s = .next { s with out := s.out ++ [.answer "pldm" bs] } ∧
        (0x01 ≤ i.toNat → i.toNat ≤ 0x40 → bs = natLE 8 (s.reg (Reg.mgtTemp (i.toNat - 1))).toNat) ∧
        (i.toNat = 0x41 → bs = natLE 8 (s.fld Reg.pwrStat 31 16)) ∧
        (0x50 ≤ i.toNat → i.toNat ≤ 0xB3 → bs = natLE 8 (s.reg (Reg.mgtRateG (i.toNat - 0x50))).toNat))) ∧
    (s.domUp 1 = true → ∀ v : BitVec 64,
      (rsvdBits Reg.mgtWdogKick v = 0 → v.extractLsb' 32 32 = 0x4B49434B → ∃ t, exec (.wdogKick v) s = .next t ∧ claimOnlyReg Reg.mgtWdog s t ∧
        t.bit Reg.mgtWdog 62 = false) ∧
      (rsvdBits Reg.mgtWdogKick v = 0 → v.extractLsb' 32 32 ≠ 0x4B49434B → exec (.wdogKick v) s = .next s) ∧
      (s.bit Reg.mgtWdog 63 = true → s.bit Reg.mgtWdog 62 = false → ∃ t, exec .wdogStage1 s = .next t ∧
        t.bit Reg.mgtWdog 62 = true ∧ t.bit Reg.mgtEvent 0 = true))

/-! ### Functions, power and resets (spec/22_management_selftest_errors.md, spec/21_power_reset_pins.md) -/

/-- The four requests of R512 by their ACTION. -/
def claimFunc (action : Nat) (i : BitVec 64 → Instr) : Prop :=
  (action = 1 ∧ i = .funcDisable) ∨ (action = 2 ∧ i = .funcEnable) ∨ (action = 3 ∧ i = .funcSelfTest) ∨
    (action = 4 ∧ i = .funcRetrain)

/-- A write of MGT.FUNC_REQ is ignored and counted while a request runs, ends with RESULT 1 where it is rejected, and otherwise
runs: a disable or self-test refuses new work, an enable or a retrain of an idle pair begins. The drain's end or its abort powers
the function down; tests end with the target in service, its stores clear, or disabled; an enable ends in service. An internal
fault is recorded, ends its work with 0x7F, and disables the unit for a control structure (R512 to R517). The governor steps
VCORE by one step, and samples are stored (R30, R487, R488). -/
def Obligations.FunctionsPower : Prop :=
  ∀ (s : State),
    (s.domUp 1 = true → ∀ (n : Nat) (req : BitVec 64 → Instr), claimFunc n req → ∀ v : BitVec 64,
      let kind := (v.extractLsb' 24 4).toNat
      let i := (v.extractLsb' 0 16).toNat
      let st := Reg.mgtFuncStat
      let bad := funcAllowed n kind = false ∨ funcCount kind ≤ i ∨ (n = 1 ∧ s.funcOff kind i = true) ∨
        (n = 2 ∧ s.funcOff kind i = false)
      ((v.extractLsb' 28 4).toNat ≠ n → exec (req v) s = .next s) ∧
      ((v.extractLsb' 28 4).toNat = n → rsvdBits Reg.mgtFuncReq v = 0 →
        (s.bit st 63 = true → exec (req v) s = .next (s.bump Reg.mgtReqRejectCnt 1)) ∧
        (s.bit st 63 = false → bad → ∃ t, exec (req v) s = .next t ∧ t.bit st 63 = false ∧ t.fld st 55 48 = 1 ∧
          t.mgt.func = none ∧ t.offline = s.offline ∧ t.refusing = s.refusing) ∧
        (s.bit st 63 = false → ¬bad → (n ≠ 4 ∨ kind = 6) →
          (n = 4 → s.isOff 6 i = false ∧ s.domUp 3 = true ∧ s.bit (Reg.memStat (i / 8)) 0 = true ∧
            s.fld (Reg.memStat (i / 8)) 39 32 = 0) →
          ∃ t, exec (req v) s = .next t ∧ t.bit st 63 = true ∧ t.fld st 31 28 = n ∧ t.fld st 27 24 = kind ∧
            t.fld st 15 0 = i ∧ t.mgt.func = some ⟨n, kind, i, decide (n = 2 ∨ n = 4), none⟩ ∧
            (n = 1 ∨ n = 3 → t.refuses kind i = true) ∧
            (n = 4 → t.bit (Reg.memStat (i / 8)) (32 + i % 8) = true)))) ∧
    (∀ f : FuncRun, s.mgt.func = some f → f.kind ≤ 6 → f.index < funcCount f.kind →
      let ended (i : Instr) (res : Nat) (t : State) : Prop :=
        exec i s = .next t ∧ t.mgt.func = none ∧ t.bit Reg.mgtFuncStat 63 = false ∧ t.fld Reg.mgtFuncStat 55 48 = res
      (f.going = false → f.action = 1 → s.funcIdle f.kind f.index = true →
        ∃ t, ended .funcDrainEnd 0 t ∧ t.isOff f.kind f.index = true) ∧
      (f.going = false → f.action = 3 → s.funcIdle f.kind f.index = true →
        ∃ t, exec .funcDrainEnd s = .next t ∧ t.mgt.func = some { f with going := true } ∧
          1024 * f.kind + f.index ∈ t.testing ∧ t = { s with mgt := t.mgt, testing := t.testing }) ∧
      (f.going = true ∨ s.funcIdle f.kind f.index = false → exec .funcDrainEnd s = .next s) ∧
      (f.going = false → f.action = 1 → let n := (s.abortFunc f.kind f.index).2
        ∃ t, ended .funcAbort 0 t ∧ t.isOff f.kind f.index = true ∧
        t.fld Reg.mgtFuncStat 47 32 = n % 2 ^ 16 ∧ t.count Reg.mgtAbortCnt = sat (s.count Reg.mgtAbortCnt + n)) ∧
      (f.going = false → f.action = 3 → ∃ t, ended .funcAbort 3 t ∧ 1024 * f.kind + f.index ∉ t.refusing) ∧
      (f.going = true → f.action = 3 → f.kind ≤ 1 →
        (∃ t, ended (.selfTestDone none) 0 t ∧ 1024 * f.kind + f.index ∉ t.refusing ∧
          ∀ c k, c ∈ funcCores f.kind f.index → k < 0x20_0000 → t.byte (chamberBase c + k) = 0) ∧
        ∀ d, ∃ t, ended (.selfTestDone (some d)) 2 t ∧ t.isOff f.kind f.index = true ∧
          t.fld Reg.mgtFuncStat 47 32 = d.val + 1 ∧
          t.count Reg.mgtTestFailCnt = sat (s.count Reg.mgtTestFailCnt + 1)) ∧
      (f.going = true → f.action = 2 → (∃ t, ended (.funcEnableDone true) 0 t ∧ t.isOff f.kind f.index = false) ∧
        ∃ t, ended (.funcEnableDone false) 2 t ∧ t.offline = s.offline)) ∧
    (∀ (unit : Fin 1068) (u : SeqId) (h : BitVec 5) (w : Work), s.domUp 4 = true →
      (s.seq u).works.find? (fun x => x.handle == h.toNat) = some w → w.status = .running → w.acc = .ok →
      ∃ t, exec (.internalFault unit false (some (u, h))) s = .next t ∧ claimEnded u w.seq .internal t ∧
        t.bit Reg.mgtInternal 63 = true ∧ (∀ a, t.byte a = s.byte a) ∧
        (s.bit Reg.mgtInternal 63 = false → t.fld Reg.mgtInternal 55 48 = 3 ∧ t.fld Reg.mgtInternal 42 32 = unit.val)) ∧
    (∀ unit : Fin 1068, s.domUp 4 = true → unit.val < 800 →
      ∃ t, exec (.internalFault unit true none) s = .next t ∧ t.isOff 0 unit.val = true) ∧
    (∀ (g : Fin 100) (r : BitVec 16),
      let o := Reg.mgtRateG g.val
      (s.domUp 1 = true → s.domUp (5 + g.val) = true → s.isOff 1 g.val = false → ∃ t, exec (.rateSample g r) s = .next t ∧
        claimOnlyReg o s t ∧ t.fld o 15 0 = r.toNat ∧ t.bit o 31 = true ∧ t.fld o 47 32 = (s.fld o 47 32 + 1) % 2 ^ 16) ∧
      (s.domUp 1 = false ∨ s.domUp (5 + g.val) = false ∨ s.isOff 1 g.val = true →
        exec (.rateSample g r) s = .next s)) ∧
    (s.domUp 0 = true → ∀ x : Sensors, x.temps.length = 64 →
      let v := s.fld Reg.pwrStat 15 0
      let clamp (n : Nat) : Nat := max s.vmin (min s.vmax n)
      let hot := ∃ c ∈ x.temps, 95 * 16 < c.toInt
      ∃ t, exec (.governorInterval x) s = .next t ∧ t.fld Reg.pwrStat 31 16 = x.power.toNat ∧
        (v = 0 → t.fld Reg.pwrStat 15 0 = 0) ∧
        (v ≠ 0 → hot → t.fld Reg.pwrStat 15 0 = clamp (v - 5) ∧
          t.count Reg.pwrThermStepCnt = sat (s.count Reg.pwrThermStepCnt + 1)) ∧
        (v ≠ 0 → ¬hot → s.envelope < x.power.toNat → t.fld Reg.pwrStat 15 0 = clamp (v - 5) ∧
          t.count Reg.pwrEnvStepCnt = sat (s.count Reg.pwrEnvStepCnt + 1)) ∧
        (v ≠ 0 → 100 * x.power.toNat < 98 * s.envelope → (∀ c ∈ x.temps, c.toInt < 94 * 16) →
          t.fld Reg.pwrStat 15 0 = clamp (v + 5))) ∧
    (s.domUp 0 = true → ∀ d : Fin 12, ∃ t, exec (.conversionDieFault d) s = .next t ∧ claimOnlyReg Reg.pwrStat s t ∧
      t.bit Reg.pwrStat (40 + d.val) = false ∧ ∀ e : Fin 12, e ≠ d →
        t.bit Reg.pwrStat (40 + e.val) = s.bit Reg.pwrStat (40 + e.val))

/-- A reset by a source (R493 to R496): the domains it clears are in reset and held, the others stay as they are; no work of the
memory, fabric and core domains is left; the GDDR7 contents stay, or are undefined after bits 0 to 2 and 6. -/
def claimReset (src : Nat) (s t : State) : Prop :=
  let gone (d : Nat) : Prop := d < 105 ∧ (src ≤ 4 ∨ (src = 6 ∧ 2 ≤ d) ∨ 3 ≤ d)
  src ∈ t.rst.joined ∧ (∀ d, gone d → t.domUp d = false ∧ d ∈ t.rst.holding) ∧ (∀ d, ¬gone d → t.domUp d = s.domUp d) ∧
    t.seqs = [] ∧ t.launches = [] ∧ t.siphons = [] ∧ t.passes = [] ∧ t.cmds = [] ∧ t.xch = {} ∧ t.epoch = 0 ∧
    t.unitEpoch = [] ∧ (4 < src → t.reg Reg.secBootStat = s.reg Reg.secBootStat) ∧
    (src ≤ 2 ∨ src = 6 → ∀ u ∈ t.poison, 0x100_0000_0000 ≤ u) ∧
    (¬(src ≤ 2 ∨ src = 6) → ∀ a, a < 0x100_0000_0000 → t.byte a = s.byte a)

/-- Each reset source starts its reset where R491 lets it, and not where its condition fails. The hold ends once no source is
active, and the cause is recorded; domains are released one by one in order, a grotto with its cores' chambers zero and their
programs gone. The trip collapses every rail and stays latched. Reading a counter returns and clears it; a write of W1C bits
clears them, an access to no register is counted, and the mailbox buffer takes writes (R10, R11, R14, R459, R490 to R498). -/
def Obligations.ResetsRegisters : Prop :=
  ∀ (s : State), s.rst.powered = true →
    let starts (i : Instr) (src : Nat) : Prop := ∃ t, exec i s = .next t ∧ claimReset src s t
    (s.rst.tripped = false → starts .powerOnReset 0) ∧ (s.rst.tripped = true → exec .powerOnReset s = .next s) ∧
    (∀ ov, starts (.brownOut ov) 1) ∧
    (∀ p : Bool, (p = true ∨ s.rst.joined = [] → starts (.pinReset p) 2) ∧
      (p = false → s.rst.joined ≠ [] → exec (.pinReset p) s = .next s)) ∧
    (let on := s.domUp 1 = true ∧ s.bit Reg.mgtWdog 63 = true ∧ s.bit Reg.mgtWdog 62 = true;
      (on → starts .watchdogReset 3) ∧ (¬on → exec .watchdogReset s = .next s)) ∧
    (∀ v : BitVec 64, rsvdBits Reg.rstSwReset v = 0 →
      let on := s.domUp 0 = true ∧ v.extractLsb' 32 32 = 0x52535457 ∧ v.getLsbD 0 = true;
      (on → starts (.softwareReset (some v)) 4) ∧ (¬on → exec (.softwareReset (some v)) s = .next s)) ∧
    (s.domUp 2 = true → starts (.softwareReset none) 4) ∧
    (let on := s.domUp 0 = true ∧ s.bit Reg.secDebugStat 2 = true;
      (on → starts .debugReset 5) ∧ (¬on → exec .debugReset s = .next s)) ∧
    (∀ k, starts (.clockFailure k) 6) ∧
    (∀ u : SeqId, s.domUp (match u with | .core c => 5 + grottoOf c.val | .cp _ => 4) = true →
      ((s.seq u).barWait = none → ∃ t, exec (.lockupReset u) s = .next t ∧ claimReset 7 s t ∧ t.bit Reg.rstLockup 63 = true) ∧
      ((s.seq u).barWait.isSome = true → exec (.lockupReset u) s = .next s)) ∧
    (∀ (src : Fin 8) (k : Fin 3), ∃ t, exec (.resetSourceEnd src k) s = .next t ∧
      t = { s with rst := { s.rst with active := t.rst.active } } ∧
      ∀ x, x ∈ t.rst.active ↔ x ∈ s.rst.active ∧ x ≠ (src.val, k.val)) ∧
    (∀ (x : Straps) (src : Fin 8), s.rst.joined = [src.val] → s.rst.active = [] →
      ∃ t, exec (.resetHoldEnd x) s = .next t ∧ t.rst.joined = [] ∧ t.rst.holding = [] ∧ t.held = s.held ∧
        t.fld Reg.rstCause 7 0 = 2 ^ src.val ∧
        (src ≠ 0 → t.fld Reg.rstCause 23 16 = Nat.lor (s.fld Reg.rstCause 23 16) (2 ^ src.val) ∧
          t.fld Reg.rstCause 47 32 = min 0xFFFF (s.fld Reg.rstCause 47 32 + 1))) ∧
    (∀ x : Straps, s.rst.active ≠ [] → exec (.resetHoldEnd x) s = .next s) ∧
    (∀ k, ∃ t, exec (.thermtrip k) s = .next t ∧ t.rst.tripped = true ∧ t.rst.powered = false ∧ t.seqs = [] ∧
      ∀ d, d < 105 → t.domUp d = false) ∧
    (∀ b, s.rst.tripped = true →
      exec (.thermtripRelease b) s = .next { s with rst := { s.rst with tripped := false, tripNote := b } }) ∧
    (∀ (d : Nat) (rest : List Nat), s.held = d :: rest → s.rst.holding.contains d = false → (d = 0 ∨ s.booted = true) →
      ∃ t, exec (.domainRelease []) s = .next t ∧ t.held = rest ∧
        (d = 3 → ∀ m, m < 16 → t.bit (Reg.memStat m) 0 = true) ∧
        (d = 4 → ∀ k, k < 0x400_0000 → t.byte (0x3000_0000_0000 + k) = 0) ∧
        ∀ c : Fin 800, d = 5 + grottoOf c.val → t.seq (.core c) = {} ∧
          (∀ k, k < 0x20_0000 → t.byte (chamberBase c.val + k) = 0) ∧
          (s.isOff 0 c.val = false → s.isOff 1 (d - 5) = false → s.fuses.offCores.contains c.val = false →
            t.bit (Reg.rstReadyCore (c.val / 64)) (c.val % 64) = true)) ∧
    (∀ (d : Nat) (rest : List Nat), s.held = d :: rest → (s.rst.holding.contains d = true ∨ (d ≠ 0 ∧ s.booted = false)) →
      exec (.domainRelease []) s = .next s) ∧
    (∀ (o : BitVec 33) (r : RegDef) (ix : List Nat), findReg o.toNat = some (r, ix) → inMbox o.toNat = false →
      s.regUp r o.toNat ix = true →
      (r.isCnt = true → ∃ t, exec (.counterRead o .whole) s = .next t ∧
        t.out = s.out ++ [.answer "register" (natLE 8 (s.count o.toNat % 2 ^ 64))] ∧ t.count o.toNat = 0 ∧
        (∀ x, x ≠ o.toNat → t.count x = s.count x) ∧ t = { s with cnt := t.cnt, out := t.out }) ∧
      (r.isCnt = false → exec (.counterRead o .whole) s =
        .next { s with out := s.out ++ [.answer "register" (natLE 8 (s.regRead r ix o.toNat).toNat)] })) ∧
    (∀ v : BitVec 64, s.domUp 1 = true → v.toNat < 256 →
      (∃ t, exec (.registerWrite 0x200000 .whole v) s = .next t ∧ claimOnlyReg Reg.mgtEvent s t ∧
        t.reg Reg.mgtEvent = s.reg Reg.mgtEvent &&& ~~~v) ∧
      ∃ t, exec (.registerWrite 0x1_0100_0000 .whole v) s = .next t ∧ t = { s with mgt := { s.mgt with req := t.mgt.req } } ∧
        SMap.get 0 t.mgt.req 0 = v.setWidth 8) ∧
    (∀ (o : BitVec 33) (v : BitVec 64), s.domUp 2 = true → findReg o.toNat = none →
      (o.toNat < 0x1_0100_0000 ∨ 0x1_0110_0000 ≤ o.toNat) → ∃ t, exec (.registerWrite o .whole v) s = .next t ∧
        t.count Reg.hifBadAccessCnt = sat (s.count Reg.hifBadAccessCnt + 1) ∧ ∀ a, t.byte a = s.byte a)

/-- RST.CAUSE and RST.LOCKUP survive every reset but power-on, which sets LAST and HIST to 0x01 and COUNT to 0 and clears LOCKUP;
the hold's end after any other reset replaces LAST, ORs it into HIST and increments COUNT by one, saturating, however many
sources joined (R494). -/
def Obligations.ResetCauseRecord : Prop :=
  ∀ (s : State), s.rst.powered = true →
    let keeps (i : Instr) : Prop := ∃ t, exec i s = .next t ∧ t.reg Reg.rstCause = s.reg Reg.rstCause ∧
      t.reg Reg.rstLockup = s.reg Reg.rstLockup
    (∀ ov, keeps (.brownOut ov)) ∧ (∀ p, keeps (.pinReset p)) ∧ keeps .watchdogReset ∧ (∀ v, keeps (.softwareReset v)) ∧
    keeps .debugReset ∧ (∀ k, keeps (.clockFailure k)) ∧
    (∀ u, ∃ t, exec (.lockupReset u) s = .next t ∧ t.reg Reg.rstCause = s.reg Reg.rstCause ∧
      (s.bit Reg.rstLockup 63 = true → t.bit Reg.rstLockup 63 = true ∧
        t.fld Reg.rstLockup 10 0 = s.fld Reg.rstLockup 10 0)) ∧
    (s.rst.tripped = false → ∃ t, exec .powerOnReset s = .next t ∧ t.reg Reg.rstLockup = 0) ∧
    (∀ x : Straps, s.rst.active = [] →
      (s.rst.joined = [0] → ∃ t, exec (.resetHoldEnd x) s = .next t ∧ t.fld Reg.rstCause 7 0 = 1 ∧
        t.fld Reg.rstCause 23 16 = 1 ∧ t.fld Reg.rstCause 47 32 = 0) ∧
      (s.rst.joined ≠ [] → s.rst.joined.Nodup → (∀ b ∈ s.rst.joined, 0 < b ∧ b < 8) →
        let last := (s.rst.joined.map fun b => 2 ^ b).sum
        ∃ t, exec (.resetHoldEnd x) s = .next t ∧ t.fld Reg.rstCause 7 0 = last ∧
          t.fld Reg.rstCause 23 16 = Nat.lor (s.fld Reg.rstCause 23 16) last ∧
          t.fld Reg.rstCause 47 32 = min 0xFFFF (s.fld Reg.rstCause 47 32 + 1) ∧
          t.reg Reg.rstLockup = s.reg Reg.rstLockup))

/-! ### The whole block -/

/-- A step runs the command at the front of the queue with the queue's rest; on an empty queue the block idles (the model's
choice, log entry 4). -/
def Obligations.StepRunsFront : Prop :=
  (∀ (c : Instr) (q : List Instr) (s : State), s.pending = c :: q → step s = exec c { s with pending := q }) ∧
  ∀ s : State, s.pending = [] → step s = .next s

/-- Every command completes from every state with a next state, and leaves the queue as it is. -/
def Obligations.EveryCommandCompletes : Prop :=
  ∀ (c : Instr) (s : State), ∃ t, exec c s = .next t ∧ t.pending = s.pending

/-- From every state that meets the invariant, a step that answers a next state keeps it. -/
def Obligations.StepKeepsInvariant : Prop := ∀ s t : State, StateOk s = true → step s = .next t → StateOk t = true

/-- The reset state meets the invariant, stands in the hold of a power-on reset with every domain in reset and nothing queued,
every register holds its reset value, and the values that the tables of R10, R465, R475, R487 and R504 give stand in it. -/
def Obligations.ResetMeetsInvariant : Prop :=
  let s := State.reset
  StateOk s = true ∧ s.pending = [] ∧ s.rst.joined = [0] ∧ (∀ d, d < 105 → s.domUp d = false) ∧ (∀ o, s.reg o = regReset o) ∧
    (∀ o, s.count o = 0) ∧ s.reg Reg.rstCause = 0x1_0001 ∧ s.reg Reg.pwrEnvelope = 0xC80 ∧ s.fld Reg.pwrStat 51 40 = 0xFFF ∧
    s.fld Reg.secBootStat 59 56 = 0xF ∧ s.bit (Reg.hifMsixData 0) 32 = true ∧ s.bit (Reg.hifMsixData 2047) 32 = true
end

