-- ==== Sys2Proof/Laws/Map.lean ====
section
/-! SUPPORT. The laws of sparse maps: a read after a write, and that a write keeps the canonical form. -/

namespace Sys2Proof

variable {α : Type}

theorem SMap.get_keep (p : Nat → Bool) (d : α) (m : SMap α) (k : Nat) (h : p k = true) :
    SMap.get d (SMap.keep p m) k = SMap.get d m k := by
  induction m with
  | nil => rfl
  | cons x m ih =>
    obtain ⟨k', v⟩ := x
    unfold SMap.keep at ih ⊢
    by_cases hp : p k' = true
    · simp [List.filter, hp, SMap.get, ih]
    · have hne : k' ≠ k := fun e => hp (e ▸ h)
      simp [List.filter, hp, SMap.get, ih, hne]

theorem SMap.get_ins_ne (d v : α) (m : SMap α) (k j : Nat) (h : j ≠ k) :
    SMap.get d (SMap.ins k v m) j = SMap.get d m j := by
  induction m with
  | nil => simp [SMap.ins, SMap.get, Ne.symm h]
  | cons x m ih =>
    obtain ⟨k', w⟩ := x
    unfold SMap.ins
    split
    · simp [SMap.get, Ne.symm h]
    · simp [SMap.get, ih]

theorem SMap.get_ins_same (d v : α) (m : SMap α) (k : Nat) (h : ∀ x ∈ m, x.1 ≠ k) :
    SMap.get d (SMap.ins k v m) k = v := by
  induction m with
  | nil => simp [SMap.ins, SMap.get]
  | cons x m ih =>
    obtain ⟨k', w⟩ := x
    have hne : k' ≠ k := h (k', w) (by simp)
    unfold SMap.ins
    split
    · simp [SMap.get]
    · simp only [SMap.get, hne, if_false]
      exact ih fun y hy => h y (by simp [hy])

theorem SMap.get_none (d : α) (m : SMap α) (k : Nat) (h : ∀ x ∈ m, x.1 ≠ k) : SMap.get d m k = d := by
  induction m with
  | nil => rfl
  | cons x m ih =>
    obtain ⟨k', w⟩ := x
    have hne : k' ≠ k := h (k', w) (by simp)
    simp only [SMap.get, hne, if_false]
    exact ih fun y hy => h y (by simp [hy])

theorem SMap.keep_ne (m : SMap α) (k : Nat) : ∀ x ∈ SMap.keep (fun j => !(j == k)) m, x.1 ≠ k := by
  intro x hx
  unfold SMap.keep at hx
  simpa using (List.mem_filter.mp hx).2

variable [DecidableEq α]

/-- A read after a write of the same key gives the value written. -/
@[simp] theorem SMap.get_put_same (d v : α) (m : SMap α) (k : Nat) : SMap.get d (SMap.put d m k v) k = v := by
  unfold SMap.put
  split
  · next h => rw [SMap.get_none _ _ _ (SMap.keep_ne m k), h]
  · exact SMap.get_ins_same _ _ _ _ (SMap.keep_ne m k)

/-- A write leaves every other key alone, whatever the defaults of the two keys. -/
theorem SMap.get_put_ne (d e v : α) (m : SMap α) (k j : Nat) (h : j ≠ k) :
    SMap.get e (SMap.put d m k v) j = SMap.get e m j := by
  have hk : SMap.get e (SMap.keep (fun i => !(i == k)) m) j = SMap.get e m j :=
    SMap.get_keep _ _ _ _ (by simpa using h)
  unfold SMap.put
  split
  · exact hk
  · rw [SMap.get_ins_ne _ _ _ _ _ h, hk]

/-! ### The canonical form -/

theorem SMap.wfFrom_mono (d : Nat → α) (lo lo' : Option Nat) (m : SMap α)
    (h : ∀ b, lo' = some b → ∃ a, lo = some a ∧ b ≤ a) (hw : SMap.wfFrom d lo m = true) : SMap.wfFrom d lo' m = true := by
  cases m with
  | nil => rfl
  | cons x m =>
    obtain ⟨k, v⟩ := x
    simp only [SMap.wfFrom, Bool.and_eq_true] at hw ⊢
    refine ⟨⟨?_, hw.1.2⟩, hw.2⟩
    cases lo' with
    | none => rfl
    | some b =>
      obtain ⟨a, rfl, hb⟩ := h b rfl
      have hk : a < k := by simpa using hw.1.1
      simpa using Nat.lt_of_le_of_lt hb hk

theorem SMap.wfFrom_keep (d : Nat → α) (p : Nat → Bool) (m : SMap α) :
    ∀ lo, SMap.wfFrom d lo m = true → SMap.wfFrom d lo (SMap.keep p m) = true := by
  induction m with
  | nil => intro lo _; rfl
  | cons x m ih =>
    obtain ⟨k, v⟩ := x
    intro lo hw
    simp only [SMap.wfFrom, Bool.and_eq_true] at hw
    unfold SMap.keep at ih ⊢
    by_cases hp : p k = true
    · simp only [List.filter, hp, SMap.wfFrom, Bool.and_eq_true]
      exact ⟨hw.1, ih _ hw.2⟩
    · simp only [List.filter, hp]
      refine SMap.wfFrom_mono d (some k) lo _ ?_ (ih _ hw.2)
      intro b hb
      subst hb
      have hk : b < k := by simpa using hw.1.1
      exact ⟨k, rfl, Nat.le_of_lt hk⟩

theorem SMap.wfFrom_ins (d : Nat → α) (k : Nat) (v : α) (hv : v ≠ d k) (m : SMap α) :
    ∀ lo, (∀ b, lo = some b → b < k) → (∀ x ∈ m, x.1 ≠ k) → SMap.wfFrom d lo m = true →
      SMap.wfFrom d lo (SMap.ins k v m) = true := by
  induction m with
  | nil =>
    intro lo hlo _ _
    simp only [SMap.ins, SMap.wfFrom, Bool.and_true, Bool.and_eq_true]
    refine ⟨?_, by simpa using hv⟩
    cases lo with
    | none => rfl
    | some b => simpa using hlo b rfl
  | cons x m ih =>
    obtain ⟨k', w⟩ := x
    intro lo hlo hne hw
    simp only [SMap.wfFrom, Bool.and_eq_true] at hw
    have hne' : k' ≠ k := hne (k', w) (by simp)
    unfold SMap.ins
    split
    · next hlt =>
      simp only [SMap.wfFrom, Bool.and_eq_true]
      refine ⟨⟨?_, by simpa using hv⟩, ⟨by simpa using hlt, hw.1.2⟩, hw.2⟩
      cases lo with
      | none => rfl
      | some b => simpa using hlo b rfl
    · next hlt =>
      simp only [SMap.wfFrom, Bool.and_eq_true]
      refine ⟨hw.1, ih (some k') ?_ (fun y hy => hne y (by simp [hy])) hw.2⟩
      intro b hb
      cases hb
      omega

/-- A write keeps the canonical form, where it uses the key's own default. -/
theorem SMap.wf_put (d : Nat → α) (m : SMap α) (k : Nat) (v : α) (h : SMap.wf d m = true) :
    SMap.wf d (SMap.put (d k) m k v) = true := by
  unfold SMap.wf at h ⊢
  have hk := SMap.wfFrom_keep d (fun j => !(j == k)) m none h
  unfold SMap.put
  split
  · exact hk
  · next hv => exact SMap.wfFrom_ins d k v hv _ none (by simp) (SMap.keep_ne m k) hk

/-- Dropping entries keeps the canonical form. -/
theorem SMap.wf_keep (d : Nat → α) (p : Nat → Bool) (m : SMap α) (h : SMap.wf d m = true) :
    SMap.wf d (SMap.keep p m) = true := SMap.wfFrom_keep d p m none h

end Sys2Proof
end

