-- ==== Sys2Proof/Laws/State.lean ====
section
/-! SUPPORT. What the named updates of the state leave alone: one lemma per field per update, true by definition, so that no
proof unfolds a record update. -/

namespace Sys2Proof.Machine
open Sys2Proof

/-! ### State.setReg -/

@[simp] theorem State.setReg_pending (s : State) (off : Nat) (v : Word) : (s.setReg off v).pending = s.pending := rfl
@[simp] theorem State.setReg_cnt (s : State) (off : Nat) (v : Word) : (s.setReg off v).cnt = s.cnt := rfl
@[simp] theorem State.setReg_mem (s : State) (off : Nat) (v : Word) : (s.setReg off v).mem = s.mem := rfl
@[simp] theorem State.setReg_poison (s : State) (off : Nat) (v : Word) : (s.setReg off v).poison = s.poison := rfl
@[simp] theorem State.setReg_fresh (s : State) (off : Nat) (v : Word) : (s.setReg off v).fresh = s.fresh := rfl
@[simp] theorem State.setReg_seqs (s : State) (off : Nat) (v : Word) : (s.setReg off v).seqs = s.seqs := rfl
@[simp] theorem State.setReg_launches (s : State) (off : Nat) (v : Word) : (s.setReg off v).launches = s.launches := rfl
@[simp] theorem State.setReg_siphons (s : State) (off : Nat) (v : Word) : (s.setReg off v).siphons = s.siphons := rfl
@[simp] theorem State.setReg_passes (s : State) (off : Nat) (v : Word) : (s.setReg off v).passes = s.passes := rfl
@[simp] theorem State.setReg_nextPass (s : State) (off : Nat) (v : Word) : (s.setReg off v).nextPass = s.nextPass := rfl
@[simp] theorem State.setReg_mesh (s : State) (off : Nat) (v : Word) : (s.setReg off v).mesh = s.mesh := rfl
@[simp] theorem State.setReg_meshTurn (s : State) (off : Nat) (v : Word) : (s.setReg off v).meshTurn = s.meshTurn := rfl
@[simp] theorem State.setReg_watches (s : State) (off : Nat) (v : Word) : (s.setReg off v).watches = s.watches := rfl
@[simp] theorem State.setReg_cmds (s : State) (off : Nat) (v : Word) : (s.setReg off v).cmds = s.cmds := rfl
@[simp] theorem State.setReg_turn (s : State) (off : Nat) (v : Word) : (s.setReg off v).turn = s.turn := rfl
@[simp] theorem State.setReg_sinceMsg (s : State) (off : Nat) (v : Word) : (s.setReg off v).sinceMsg = s.sinceMsg := rfl
@[simp] theorem State.setReg_pools (s : State) (off : Nat) (v : Word) : (s.setReg off v).pools = s.pools := rfl
@[simp] theorem State.setReg_epoch (s : State) (off : Nat) (v : Word) : (s.setReg off v).epoch = s.epoch := rfl
@[simp] theorem State.setReg_snaps (s : State) (off : Nat) (v : Word) : (s.setReg off v).snaps = s.snaps := rfl
@[simp] theorem State.setReg_unitEpoch (s : State) (off : Nat) (v : Word) : (s.setReg off v).unitEpoch = s.unitEpoch := rfl
@[simp] theorem State.setReg_fuses (s : State) (off : Nat) (v : Word) : (s.setReg off v).fuses = s.fuses := rfl
@[simp] theorem State.setReg_held (s : State) (off : Nat) (v : Word) : (s.setReg off v).held = s.held := rfl
@[simp] theorem State.setReg_offline (s : State) (off : Nat) (v : Word) : (s.setReg off v).offline = s.offline := rfl
@[simp] theorem State.setReg_refusing (s : State) (off : Nat) (v : Word) : (s.setReg off v).refusing = s.refusing := rfl
@[simp] theorem State.setReg_testing (s : State) (off : Nat) (v : Word) : (s.setReg off v).testing = s.testing := rfl
@[simp] theorem State.setReg_cores (s : State) (off : Nat) (v : Word) : (s.setReg off v).cores = s.cores := rfl
@[simp] theorem State.setReg_out (s : State) (off : Nat) (v : Word) : (s.setReg off v).out = s.out := rfl
@[simp] theorem State.setReg_reqs (s : State) (off : Nat) (v : Word) : (s.setReg off v).reqs = s.reqs := rfl
@[simp] theorem State.setReg_nextReq (s : State) (off : Nat) (v : Word) : (s.setReg off v).nextReq = s.nextReq := rfl
@[simp] theorem State.setReg_fnMask (s : State) (off : Nat) (v : Word) : (s.setReg off v).fnMask = s.fnMask := rfl
@[simp] theorem State.setReg_msixWait (s : State) (off : Nat) (v : Word) : (s.setReg off v).msixWait = s.msixWait := rfl
@[simp] theorem State.setReg_cancels (s : State) (off : Nat) (v : Word) : (s.setReg off v).cancels = s.cancels := rfl
@[simp] theorem State.setReg_upds (s : State) (off : Nat) (v : Word) : (s.setReg off v).upds = s.upds := rfl
@[simp] theorem State.setReg_links (s : State) (off : Nat) (v : Word) : (s.setReg off v).links = s.links := rfl
@[simp] theorem State.setReg_dropStep (s : State) (off : Nat) (v : Word) : (s.setReg off v).dropStep = s.dropStep := rfl
@[simp] theorem State.setReg_chGen (s : State) (off : Nat) (v : Word) : (s.setReg off v).chGen = s.chGen := rfl
@[simp] theorem State.setReg_xch (s : State) (off : Nat) (v : Word) : (s.setReg off v).xch = s.xch := rfl
@[simp] theorem State.setReg_rsl (s : State) (off : Nat) (v : Word) : (s.setReg off v).rsl = s.rsl := rfl
@[simp] theorem State.setReg_mgt (s : State) (off : Nat) (v : Word) : (s.setReg off v).mgt = s.mgt := rfl
@[simp] theorem State.setReg_sec (s : State) (off : Nat) (v : Word) : (s.setReg off v).sec = s.sec := rfl
@[simp] theorem State.setReg_rst (s : State) (off : Nat) (v : Word) : (s.setReg off v).rst = s.rst := rfl
@[simp] theorem State.setReg_gate (s : State) (off : Nat) (v : Word) : (s.setReg off v).gate = s.gate := rfl
@[simp] theorem State.setReg_bar4 (s : State) (off : Nat) (v : Word) : (s.setReg off v).bar4 = s.bar4 := rfl
@[simp] theorem State.setReg_freeCtr (s : State) (off : Nat) (v : Word) : (s.setReg off v).freeCtr = s.freeCtr := rfl
@[simp] theorem State.setReg_memGen (s : State) (off : Nat) (v : Word) : (s.setReg off v).memGen = s.memGen := rfl
@[simp] theorem State.setReg_dieCnt (s : State) (off : Nat) (v : Word) : (s.setReg off v).dieCnt = s.dieCnt := rfl
@[simp] theorem State.setReg_scrubAt (s : State) (off : Nat) (v : Word) : (s.setReg off v).scrubAt = s.scrubAt := rfl
@[simp] theorem State.setReg_sliceAt (s : State) (off : Nat) (v : Word) : (s.setReg off v).sliceAt = s.sliceAt := rfl

/-! ### State.setFld -/

@[simp] theorem State.setFld_pending (s : State) (off hi lo x : Nat) : (s.setFld off hi lo x).pending = s.pending := rfl
@[simp] theorem State.setFld_cnt (s : State) (off hi lo x : Nat) : (s.setFld off hi lo x).cnt = s.cnt := rfl
@[simp] theorem State.setFld_mem (s : State) (off hi lo x : Nat) : (s.setFld off hi lo x).mem = s.mem := rfl
@[simp] theorem State.setFld_poison (s : State) (off hi lo x : Nat) : (s.setFld off hi lo x).poison = s.poison := rfl
@[simp] theorem State.setFld_fresh (s : State) (off hi lo x : Nat) : (s.setFld off hi lo x).fresh = s.fresh := rfl
@[simp] theorem State.setFld_seqs (s : State) (off hi lo x : Nat) : (s.setFld off hi lo x).seqs = s.seqs := rfl
@[simp] theorem State.setFld_launches (s : State) (off hi lo x : Nat) : (s.setFld off hi lo x).launches = s.launches := rfl
@[simp] theorem State.setFld_siphons (s : State) (off hi lo x : Nat) : (s.setFld off hi lo x).siphons = s.siphons := rfl
@[simp] theorem State.setFld_passes (s : State) (off hi lo x : Nat) : (s.setFld off hi lo x).passes = s.passes := rfl
@[simp] theorem State.setFld_nextPass (s : State) (off hi lo x : Nat) : (s.setFld off hi lo x).nextPass = s.nextPass := rfl
@[simp] theorem State.setFld_mesh (s : State) (off hi lo x : Nat) : (s.setFld off hi lo x).mesh = s.mesh := rfl
@[simp] theorem State.setFld_meshTurn (s : State) (off hi lo x : Nat) : (s.setFld off hi lo x).meshTurn = s.meshTurn := rfl
@[simp] theorem State.setFld_watches (s : State) (off hi lo x : Nat) : (s.setFld off hi lo x).watches = s.watches := rfl
@[simp] theorem State.setFld_cmds (s : State) (off hi lo x : Nat) : (s.setFld off hi lo x).cmds = s.cmds := rfl
@[simp] theorem State.setFld_turn (s : State) (off hi lo x : Nat) : (s.setFld off hi lo x).turn = s.turn := rfl
@[simp] theorem State.setFld_sinceMsg (s : State) (off hi lo x : Nat) : (s.setFld off hi lo x).sinceMsg = s.sinceMsg := rfl
@[simp] theorem State.setFld_pools (s : State) (off hi lo x : Nat) : (s.setFld off hi lo x).pools = s.pools := rfl
@[simp] theorem State.setFld_epoch (s : State) (off hi lo x : Nat) : (s.setFld off hi lo x).epoch = s.epoch := rfl
@[simp] theorem State.setFld_snaps (s : State) (off hi lo x : Nat) : (s.setFld off hi lo x).snaps = s.snaps := rfl
@[simp] theorem State.setFld_unitEpoch (s : State) (off hi lo x : Nat) : (s.setFld off hi lo x).unitEpoch = s.unitEpoch := rfl
@[simp] theorem State.setFld_fuses (s : State) (off hi lo x : Nat) : (s.setFld off hi lo x).fuses = s.fuses := rfl
@[simp] theorem State.setFld_held (s : State) (off hi lo x : Nat) : (s.setFld off hi lo x).held = s.held := rfl
@[simp] theorem State.setFld_offline (s : State) (off hi lo x : Nat) : (s.setFld off hi lo x).offline = s.offline := rfl
@[simp] theorem State.setFld_refusing (s : State) (off hi lo x : Nat) : (s.setFld off hi lo x).refusing = s.refusing := rfl
@[simp] theorem State.setFld_testing (s : State) (off hi lo x : Nat) : (s.setFld off hi lo x).testing = s.testing := rfl
@[simp] theorem State.setFld_cores (s : State) (off hi lo x : Nat) : (s.setFld off hi lo x).cores = s.cores := rfl
@[simp] theorem State.setFld_out (s : State) (off hi lo x : Nat) : (s.setFld off hi lo x).out = s.out := rfl
@[simp] theorem State.setFld_reqs (s : State) (off hi lo x : Nat) : (s.setFld off hi lo x).reqs = s.reqs := rfl
@[simp] theorem State.setFld_nextReq (s : State) (off hi lo x : Nat) : (s.setFld off hi lo x).nextReq = s.nextReq := rfl
@[simp] theorem State.setFld_fnMask (s : State) (off hi lo x : Nat) : (s.setFld off hi lo x).fnMask = s.fnMask := rfl
@[simp] theorem State.setFld_msixWait (s : State) (off hi lo x : Nat) : (s.setFld off hi lo x).msixWait = s.msixWait := rfl
@[simp] theorem State.setFld_cancels (s : State) (off hi lo x : Nat) : (s.setFld off hi lo x).cancels = s.cancels := rfl
@[simp] theorem State.setFld_upds (s : State) (off hi lo x : Nat) : (s.setFld off hi lo x).upds = s.upds := rfl
@[simp] theorem State.setFld_links (s : State) (off hi lo x : Nat) : (s.setFld off hi lo x).links = s.links := rfl
@[simp] theorem State.setFld_dropStep (s : State) (off hi lo x : Nat) : (s.setFld off hi lo x).dropStep = s.dropStep := rfl
@[simp] theorem State.setFld_chGen (s : State) (off hi lo x : Nat) : (s.setFld off hi lo x).chGen = s.chGen := rfl
@[simp] theorem State.setFld_xch (s : State) (off hi lo x : Nat) : (s.setFld off hi lo x).xch = s.xch := rfl
@[simp] theorem State.setFld_rsl (s : State) (off hi lo x : Nat) : (s.setFld off hi lo x).rsl = s.rsl := rfl
@[simp] theorem State.setFld_mgt (s : State) (off hi lo x : Nat) : (s.setFld off hi lo x).mgt = s.mgt := rfl
@[simp] theorem State.setFld_sec (s : State) (off hi lo x : Nat) : (s.setFld off hi lo x).sec = s.sec := rfl
@[simp] theorem State.setFld_rst (s : State) (off hi lo x : Nat) : (s.setFld off hi lo x).rst = s.rst := rfl
@[simp] theorem State.setFld_gate (s : State) (off hi lo x : Nat) : (s.setFld off hi lo x).gate = s.gate := rfl
@[simp] theorem State.setFld_bar4 (s : State) (off hi lo x : Nat) : (s.setFld off hi lo x).bar4 = s.bar4 := rfl
@[simp] theorem State.setFld_freeCtr (s : State) (off hi lo x : Nat) : (s.setFld off hi lo x).freeCtr = s.freeCtr := rfl
@[simp] theorem State.setFld_memGen (s : State) (off hi lo x : Nat) : (s.setFld off hi lo x).memGen = s.memGen := rfl
@[simp] theorem State.setFld_dieCnt (s : State) (off hi lo x : Nat) : (s.setFld off hi lo x).dieCnt = s.dieCnt := rfl
@[simp] theorem State.setFld_scrubAt (s : State) (off hi lo x : Nat) : (s.setFld off hi lo x).scrubAt = s.scrubAt := rfl
@[simp] theorem State.setFld_sliceAt (s : State) (off hi lo x : Nat) : (s.setFld off hi lo x).sliceAt = s.sliceAt := rfl

/-! ### State.bump -/

@[simp] theorem State.bump_pending (s : State) (off n : Nat) : (s.bump off n).pending = s.pending := rfl
@[simp] theorem State.bump_regs (s : State) (off n : Nat) : (s.bump off n).regs = s.regs := rfl
@[simp] theorem State.bump_mem (s : State) (off n : Nat) : (s.bump off n).mem = s.mem := rfl
@[simp] theorem State.bump_poison (s : State) (off n : Nat) : (s.bump off n).poison = s.poison := rfl
@[simp] theorem State.bump_fresh (s : State) (off n : Nat) : (s.bump off n).fresh = s.fresh := rfl
@[simp] theorem State.bump_seqs (s : State) (off n : Nat) : (s.bump off n).seqs = s.seqs := rfl
@[simp] theorem State.bump_launches (s : State) (off n : Nat) : (s.bump off n).launches = s.launches := rfl
@[simp] theorem State.bump_siphons (s : State) (off n : Nat) : (s.bump off n).siphons = s.siphons := rfl
@[simp] theorem State.bump_passes (s : State) (off n : Nat) : (s.bump off n).passes = s.passes := rfl
@[simp] theorem State.bump_nextPass (s : State) (off n : Nat) : (s.bump off n).nextPass = s.nextPass := rfl
@[simp] theorem State.bump_mesh (s : State) (off n : Nat) : (s.bump off n).mesh = s.mesh := rfl
@[simp] theorem State.bump_meshTurn (s : State) (off n : Nat) : (s.bump off n).meshTurn = s.meshTurn := rfl
@[simp] theorem State.bump_watches (s : State) (off n : Nat) : (s.bump off n).watches = s.watches := rfl
@[simp] theorem State.bump_cmds (s : State) (off n : Nat) : (s.bump off n).cmds = s.cmds := rfl
@[simp] theorem State.bump_turn (s : State) (off n : Nat) : (s.bump off n).turn = s.turn := rfl
@[simp] theorem State.bump_sinceMsg (s : State) (off n : Nat) : (s.bump off n).sinceMsg = s.sinceMsg := rfl
@[simp] theorem State.bump_pools (s : State) (off n : Nat) : (s.bump off n).pools = s.pools := rfl
@[simp] theorem State.bump_epoch (s : State) (off n : Nat) : (s.bump off n).epoch = s.epoch := rfl
@[simp] theorem State.bump_snaps (s : State) (off n : Nat) : (s.bump off n).snaps = s.snaps := rfl
@[simp] theorem State.bump_unitEpoch (s : State) (off n : Nat) : (s.bump off n).unitEpoch = s.unitEpoch := rfl
@[simp] theorem State.bump_fuses (s : State) (off n : Nat) : (s.bump off n).fuses = s.fuses := rfl
@[simp] theorem State.bump_held (s : State) (off n : Nat) : (s.bump off n).held = s.held := rfl
@[simp] theorem State.bump_offline (s : State) (off n : Nat) : (s.bump off n).offline = s.offline := rfl
@[simp] theorem State.bump_refusing (s : State) (off n : Nat) : (s.bump off n).refusing = s.refusing := rfl
@[simp] theorem State.bump_testing (s : State) (off n : Nat) : (s.bump off n).testing = s.testing := rfl
@[simp] theorem State.bump_cores (s : State) (off n : Nat) : (s.bump off n).cores = s.cores := rfl
@[simp] theorem State.bump_out (s : State) (off n : Nat) : (s.bump off n).out = s.out := rfl
@[simp] theorem State.bump_reqs (s : State) (off n : Nat) : (s.bump off n).reqs = s.reqs := rfl
@[simp] theorem State.bump_nextReq (s : State) (off n : Nat) : (s.bump off n).nextReq = s.nextReq := rfl
@[simp] theorem State.bump_fnMask (s : State) (off n : Nat) : (s.bump off n).fnMask = s.fnMask := rfl
@[simp] theorem State.bump_msixWait (s : State) (off n : Nat) : (s.bump off n).msixWait = s.msixWait := rfl
@[simp] theorem State.bump_cancels (s : State) (off n : Nat) : (s.bump off n).cancels = s.cancels := rfl
@[simp] theorem State.bump_upds (s : State) (off n : Nat) : (s.bump off n).upds = s.upds := rfl
@[simp] theorem State.bump_links (s : State) (off n : Nat) : (s.bump off n).links = s.links := rfl
@[simp] theorem State.bump_dropStep (s : State) (off n : Nat) : (s.bump off n).dropStep = s.dropStep := rfl
@[simp] theorem State.bump_chGen (s : State) (off n : Nat) : (s.bump off n).chGen = s.chGen := rfl
@[simp] theorem State.bump_xch (s : State) (off n : Nat) : (s.bump off n).xch = s.xch := rfl
@[simp] theorem State.bump_rsl (s : State) (off n : Nat) : (s.bump off n).rsl = s.rsl := rfl
@[simp] theorem State.bump_mgt (s : State) (off n : Nat) : (s.bump off n).mgt = s.mgt := rfl
@[simp] theorem State.bump_sec (s : State) (off n : Nat) : (s.bump off n).sec = s.sec := rfl
@[simp] theorem State.bump_rst (s : State) (off n : Nat) : (s.bump off n).rst = s.rst := rfl
@[simp] theorem State.bump_gate (s : State) (off n : Nat) : (s.bump off n).gate = s.gate := rfl
@[simp] theorem State.bump_bar4 (s : State) (off n : Nat) : (s.bump off n).bar4 = s.bar4 := rfl
@[simp] theorem State.bump_freeCtr (s : State) (off n : Nat) : (s.bump off n).freeCtr = s.freeCtr := rfl
@[simp] theorem State.bump_memGen (s : State) (off n : Nat) : (s.bump off n).memGen = s.memGen := rfl
@[simp] theorem State.bump_dieCnt (s : State) (off n : Nat) : (s.bump off n).dieCnt = s.dieCnt := rfl
@[simp] theorem State.bump_scrubAt (s : State) (off n : Nat) : (s.bump off n).scrubAt = s.scrubAt := rfl
@[simp] theorem State.bump_sliceAt (s : State) (off n : Nat) : (s.bump off n).sliceAt = s.sliceAt := rfl

/-! ### State.drawn -/

@[simp] theorem State.drawn_pending (s : State) : (s.drawn).pending = s.pending := rfl
@[simp] theorem State.drawn_regs (s : State) : (s.drawn).regs = s.regs := rfl
@[simp] theorem State.drawn_cnt (s : State) : (s.drawn).cnt = s.cnt := rfl
@[simp] theorem State.drawn_mem (s : State) : (s.drawn).mem = s.mem := rfl
@[simp] theorem State.drawn_poison (s : State) : (s.drawn).poison = s.poison := rfl
@[simp] theorem State.drawn_fresh (s : State) : (s.drawn).fresh = s.fresh := rfl
@[simp] theorem State.drawn_seqs (s : State) : (s.drawn).seqs = s.seqs := rfl
@[simp] theorem State.drawn_launches (s : State) : (s.drawn).launches = s.launches := rfl
@[simp] theorem State.drawn_siphons (s : State) : (s.drawn).siphons = s.siphons := rfl
@[simp] theorem State.drawn_passes (s : State) : (s.drawn).passes = s.passes := rfl
@[simp] theorem State.drawn_nextPass (s : State) : (s.drawn).nextPass = s.nextPass := rfl
@[simp] theorem State.drawn_mesh (s : State) : (s.drawn).mesh = s.mesh := rfl
@[simp] theorem State.drawn_meshTurn (s : State) : (s.drawn).meshTurn = s.meshTurn := rfl
@[simp] theorem State.drawn_watches (s : State) : (s.drawn).watches = s.watches := rfl
@[simp] theorem State.drawn_cmds (s : State) : (s.drawn).cmds = s.cmds := rfl
@[simp] theorem State.drawn_turn (s : State) : (s.drawn).turn = s.turn := rfl
@[simp] theorem State.drawn_sinceMsg (s : State) : (s.drawn).sinceMsg = s.sinceMsg := rfl
@[simp] theorem State.drawn_pools (s : State) : (s.drawn).pools = s.pools := rfl
@[simp] theorem State.drawn_epoch (s : State) : (s.drawn).epoch = s.epoch := rfl
@[simp] theorem State.drawn_snaps (s : State) : (s.drawn).snaps = s.snaps := rfl
@[simp] theorem State.drawn_unitEpoch (s : State) : (s.drawn).unitEpoch = s.unitEpoch := rfl
@[simp] theorem State.drawn_fuses (s : State) : (s.drawn).fuses = s.fuses := rfl
@[simp] theorem State.drawn_held (s : State) : (s.drawn).held = s.held := rfl
@[simp] theorem State.drawn_offline (s : State) : (s.drawn).offline = s.offline := rfl
@[simp] theorem State.drawn_refusing (s : State) : (s.drawn).refusing = s.refusing := rfl
@[simp] theorem State.drawn_testing (s : State) : (s.drawn).testing = s.testing := rfl
@[simp] theorem State.drawn_cores (s : State) : (s.drawn).cores = s.cores := rfl
@[simp] theorem State.drawn_out (s : State) : (s.drawn).out = s.out := rfl
@[simp] theorem State.drawn_reqs (s : State) : (s.drawn).reqs = s.reqs := rfl
@[simp] theorem State.drawn_nextReq (s : State) : (s.drawn).nextReq = s.nextReq := rfl
@[simp] theorem State.drawn_fnMask (s : State) : (s.drawn).fnMask = s.fnMask := rfl
@[simp] theorem State.drawn_msixWait (s : State) : (s.drawn).msixWait = s.msixWait := rfl
@[simp] theorem State.drawn_cancels (s : State) : (s.drawn).cancels = s.cancels := rfl
@[simp] theorem State.drawn_upds (s : State) : (s.drawn).upds = s.upds := rfl
@[simp] theorem State.drawn_links (s : State) : (s.drawn).links = s.links := rfl
@[simp] theorem State.drawn_dropStep (s : State) : (s.drawn).dropStep = s.dropStep := rfl
@[simp] theorem State.drawn_chGen (s : State) : (s.drawn).chGen = s.chGen := rfl
@[simp] theorem State.drawn_xch (s : State) : (s.drawn).xch = s.xch := rfl
@[simp] theorem State.drawn_rsl (s : State) : (s.drawn).rsl = s.rsl := rfl
@[simp] theorem State.drawn_mgt (s : State) : (s.drawn).mgt = s.mgt := rfl
@[simp] theorem State.drawn_sec (s : State) : (s.drawn).sec = s.sec := rfl
@[simp] theorem State.drawn_rst (s : State) : (s.drawn).rst = s.rst := rfl
@[simp] theorem State.drawn_gate (s : State) : (s.drawn).gate = s.gate := rfl
@[simp] theorem State.drawn_bar4 (s : State) : (s.drawn).bar4 = s.bar4 := rfl
@[simp] theorem State.drawn_memGen (s : State) : (s.drawn).memGen = s.memGen := rfl
@[simp] theorem State.drawn_dieCnt (s : State) : (s.drawn).dieCnt = s.dieCnt := rfl
@[simp] theorem State.drawn_scrubAt (s : State) : (s.drawn).scrubAt = s.scrubAt := rfl
@[simp] theorem State.drawn_sliceAt (s : State) : (s.drawn).sliceAt = s.sliceAt := rfl

/-! ### State.send -/

@[simp] theorem State.send_pending (s : State) (m : Sent) : (s.send m).pending = s.pending := rfl
@[simp] theorem State.send_regs (s : State) (m : Sent) : (s.send m).regs = s.regs := rfl
@[simp] theorem State.send_cnt (s : State) (m : Sent) : (s.send m).cnt = s.cnt := rfl
@[simp] theorem State.send_mem (s : State) (m : Sent) : (s.send m).mem = s.mem := rfl
@[simp] theorem State.send_poison (s : State) (m : Sent) : (s.send m).poison = s.poison := rfl
@[simp] theorem State.send_fresh (s : State) (m : Sent) : (s.send m).fresh = s.fresh := rfl
@[simp] theorem State.send_seqs (s : State) (m : Sent) : (s.send m).seqs = s.seqs := rfl
@[simp] theorem State.send_launches (s : State) (m : Sent) : (s.send m).launches = s.launches := rfl
@[simp] theorem State.send_siphons (s : State) (m : Sent) : (s.send m).siphons = s.siphons := rfl
@[simp] theorem State.send_passes (s : State) (m : Sent) : (s.send m).passes = s.passes := rfl
@[simp] theorem State.send_nextPass (s : State) (m : Sent) : (s.send m).nextPass = s.nextPass := rfl
@[simp] theorem State.send_mesh (s : State) (m : Sent) : (s.send m).mesh = s.mesh := rfl
@[simp] theorem State.send_meshTurn (s : State) (m : Sent) : (s.send m).meshTurn = s.meshTurn := rfl
@[simp] theorem State.send_watches (s : State) (m : Sent) : (s.send m).watches = s.watches := rfl
@[simp] theorem State.send_cmds (s : State) (m : Sent) : (s.send m).cmds = s.cmds := rfl
@[simp] theorem State.send_turn (s : State) (m : Sent) : (s.send m).turn = s.turn := rfl
@[simp] theorem State.send_sinceMsg (s : State) (m : Sent) : (s.send m).sinceMsg = s.sinceMsg := rfl
@[simp] theorem State.send_pools (s : State) (m : Sent) : (s.send m).pools = s.pools := rfl
@[simp] theorem State.send_epoch (s : State) (m : Sent) : (s.send m).epoch = s.epoch := rfl
@[simp] theorem State.send_snaps (s : State) (m : Sent) : (s.send m).snaps = s.snaps := rfl
@[simp] theorem State.send_unitEpoch (s : State) (m : Sent) : (s.send m).unitEpoch = s.unitEpoch := rfl
@[simp] theorem State.send_fuses (s : State) (m : Sent) : (s.send m).fuses = s.fuses := rfl
@[simp] theorem State.send_held (s : State) (m : Sent) : (s.send m).held = s.held := rfl
@[simp] theorem State.send_offline (s : State) (m : Sent) : (s.send m).offline = s.offline := rfl
@[simp] theorem State.send_refusing (s : State) (m : Sent) : (s.send m).refusing = s.refusing := rfl
@[simp] theorem State.send_testing (s : State) (m : Sent) : (s.send m).testing = s.testing := rfl
@[simp] theorem State.send_cores (s : State) (m : Sent) : (s.send m).cores = s.cores := rfl
@[simp] theorem State.send_reqs (s : State) (m : Sent) : (s.send m).reqs = s.reqs := rfl
@[simp] theorem State.send_nextReq (s : State) (m : Sent) : (s.send m).nextReq = s.nextReq := rfl
@[simp] theorem State.send_fnMask (s : State) (m : Sent) : (s.send m).fnMask = s.fnMask := rfl
@[simp] theorem State.send_msixWait (s : State) (m : Sent) : (s.send m).msixWait = s.msixWait := rfl
@[simp] theorem State.send_cancels (s : State) (m : Sent) : (s.send m).cancels = s.cancels := rfl
@[simp] theorem State.send_upds (s : State) (m : Sent) : (s.send m).upds = s.upds := rfl
@[simp] theorem State.send_links (s : State) (m : Sent) : (s.send m).links = s.links := rfl
@[simp] theorem State.send_dropStep (s : State) (m : Sent) : (s.send m).dropStep = s.dropStep := rfl
@[simp] theorem State.send_chGen (s : State) (m : Sent) : (s.send m).chGen = s.chGen := rfl
@[simp] theorem State.send_xch (s : State) (m : Sent) : (s.send m).xch = s.xch := rfl
@[simp] theorem State.send_rsl (s : State) (m : Sent) : (s.send m).rsl = s.rsl := rfl
@[simp] theorem State.send_mgt (s : State) (m : Sent) : (s.send m).mgt = s.mgt := rfl
@[simp] theorem State.send_sec (s : State) (m : Sent) : (s.send m).sec = s.sec := rfl
@[simp] theorem State.send_rst (s : State) (m : Sent) : (s.send m).rst = s.rst := rfl
@[simp] theorem State.send_gate (s : State) (m : Sent) : (s.send m).gate = s.gate := rfl
@[simp] theorem State.send_bar4 (s : State) (m : Sent) : (s.send m).bar4 = s.bar4 := rfl
@[simp] theorem State.send_freeCtr (s : State) (m : Sent) : (s.send m).freeCtr = s.freeCtr := rfl
@[simp] theorem State.send_memGen (s : State) (m : Sent) : (s.send m).memGen = s.memGen := rfl
@[simp] theorem State.send_dieCnt (s : State) (m : Sent) : (s.send m).dieCnt = s.dieCnt := rfl
@[simp] theorem State.send_scrubAt (s : State) (m : Sent) : (s.send m).scrubAt = s.scrubAt := rfl
@[simp] theorem State.send_sliceAt (s : State) (m : Sent) : (s.send m).sliceAt = s.sliceAt := rfl

/-! ### State.onMgt -/

@[simp] theorem State.onMgt_pending (s : State) (f : Mgt → Mgt) : (s.onMgt f).pending = s.pending := rfl
@[simp] theorem State.onMgt_regs (s : State) (f : Mgt → Mgt) : (s.onMgt f).regs = s.regs := rfl
@[simp] theorem State.onMgt_cnt (s : State) (f : Mgt → Mgt) : (s.onMgt f).cnt = s.cnt := rfl
@[simp] theorem State.onMgt_mem (s : State) (f : Mgt → Mgt) : (s.onMgt f).mem = s.mem := rfl
@[simp] theorem State.onMgt_poison (s : State) (f : Mgt → Mgt) : (s.onMgt f).poison = s.poison := rfl
@[simp] theorem State.onMgt_fresh (s : State) (f : Mgt → Mgt) : (s.onMgt f).fresh = s.fresh := rfl
@[simp] theorem State.onMgt_seqs (s : State) (f : Mgt → Mgt) : (s.onMgt f).seqs = s.seqs := rfl
@[simp] theorem State.onMgt_launches (s : State) (f : Mgt → Mgt) : (s.onMgt f).launches = s.launches := rfl
@[simp] theorem State.onMgt_siphons (s : State) (f : Mgt → Mgt) : (s.onMgt f).siphons = s.siphons := rfl
@[simp] theorem State.onMgt_passes (s : State) (f : Mgt → Mgt) : (s.onMgt f).passes = s.passes := rfl
@[simp] theorem State.onMgt_nextPass (s : State) (f : Mgt → Mgt) : (s.onMgt f).nextPass = s.nextPass := rfl
@[simp] theorem State.onMgt_mesh (s : State) (f : Mgt → Mgt) : (s.onMgt f).mesh = s.mesh := rfl
@[simp] theorem State.onMgt_meshTurn (s : State) (f : Mgt → Mgt) : (s.onMgt f).meshTurn = s.meshTurn := rfl
@[simp] theorem State.onMgt_watches (s : State) (f : Mgt → Mgt) : (s.onMgt f).watches = s.watches := rfl
@[simp] theorem State.onMgt_cmds (s : State) (f : Mgt → Mgt) : (s.onMgt f).cmds = s.cmds := rfl
@[simp] theorem State.onMgt_turn (s : State) (f : Mgt → Mgt) : (s.onMgt f).turn = s.turn := rfl
@[simp] theorem State.onMgt_sinceMsg (s : State) (f : Mgt → Mgt) : (s.onMgt f).sinceMsg = s.sinceMsg := rfl
@[simp] theorem State.onMgt_pools (s : State) (f : Mgt → Mgt) : (s.onMgt f).pools = s.pools := rfl
@[simp] theorem State.onMgt_epoch (s : State) (f : Mgt → Mgt) : (s.onMgt f).epoch = s.epoch := rfl
@[simp] theorem State.onMgt_snaps (s : State) (f : Mgt → Mgt) : (s.onMgt f).snaps = s.snaps := rfl
@[simp] theorem State.onMgt_unitEpoch (s : State) (f : Mgt → Mgt) : (s.onMgt f).unitEpoch = s.unitEpoch := rfl
@[simp] theorem State.onMgt_fuses (s : State) (f : Mgt → Mgt) : (s.onMgt f).fuses = s.fuses := rfl
@[simp] theorem State.onMgt_held (s : State) (f : Mgt → Mgt) : (s.onMgt f).held = s.held := rfl
@[simp] theorem State.onMgt_offline (s : State) (f : Mgt → Mgt) : (s.onMgt f).offline = s.offline := rfl
@[simp] theorem State.onMgt_refusing (s : State) (f : Mgt → Mgt) : (s.onMgt f).refusing = s.refusing := rfl
@[simp] theorem State.onMgt_testing (s : State) (f : Mgt → Mgt) : (s.onMgt f).testing = s.testing := rfl
@[simp] theorem State.onMgt_cores (s : State) (f : Mgt → Mgt) : (s.onMgt f).cores = s.cores := rfl
@[simp] theorem State.onMgt_out (s : State) (f : Mgt → Mgt) : (s.onMgt f).out = s.out := rfl
@[simp] theorem State.onMgt_reqs (s : State) (f : Mgt → Mgt) : (s.onMgt f).reqs = s.reqs := rfl
@[simp] theorem State.onMgt_nextReq (s : State) (f : Mgt → Mgt) : (s.onMgt f).nextReq = s.nextReq := rfl
@[simp] theorem State.onMgt_fnMask (s : State) (f : Mgt → Mgt) : (s.onMgt f).fnMask = s.fnMask := rfl
@[simp] theorem State.onMgt_msixWait (s : State) (f : Mgt → Mgt) : (s.onMgt f).msixWait = s.msixWait := rfl
@[simp] theorem State.onMgt_cancels (s : State) (f : Mgt → Mgt) : (s.onMgt f).cancels = s.cancels := rfl
@[simp] theorem State.onMgt_upds (s : State) (f : Mgt → Mgt) : (s.onMgt f).upds = s.upds := rfl
@[simp] theorem State.onMgt_links (s : State) (f : Mgt → Mgt) : (s.onMgt f).links = s.links := rfl
@[simp] theorem State.onMgt_dropStep (s : State) (f : Mgt → Mgt) : (s.onMgt f).dropStep = s.dropStep := rfl
@[simp] theorem State.onMgt_chGen (s : State) (f : Mgt → Mgt) : (s.onMgt f).chGen = s.chGen := rfl
@[simp] theorem State.onMgt_xch (s : State) (f : Mgt → Mgt) : (s.onMgt f).xch = s.xch := rfl
@[simp] theorem State.onMgt_rsl (s : State) (f : Mgt → Mgt) : (s.onMgt f).rsl = s.rsl := rfl
@[simp] theorem State.onMgt_sec (s : State) (f : Mgt → Mgt) : (s.onMgt f).sec = s.sec := rfl
@[simp] theorem State.onMgt_rst (s : State) (f : Mgt → Mgt) : (s.onMgt f).rst = s.rst := rfl
@[simp] theorem State.onMgt_gate (s : State) (f : Mgt → Mgt) : (s.onMgt f).gate = s.gate := rfl
@[simp] theorem State.onMgt_bar4 (s : State) (f : Mgt → Mgt) : (s.onMgt f).bar4 = s.bar4 := rfl
@[simp] theorem State.onMgt_freeCtr (s : State) (f : Mgt → Mgt) : (s.onMgt f).freeCtr = s.freeCtr := rfl
@[simp] theorem State.onMgt_memGen (s : State) (f : Mgt → Mgt) : (s.onMgt f).memGen = s.memGen := rfl
@[simp] theorem State.onMgt_dieCnt (s : State) (f : Mgt → Mgt) : (s.onMgt f).dieCnt = s.dieCnt := rfl
@[simp] theorem State.onMgt_scrubAt (s : State) (f : Mgt → Mgt) : (s.onMgt f).scrubAt = s.scrubAt := rfl
@[simp] theorem State.onMgt_sliceAt (s : State) (f : Mgt → Mgt) : (s.onMgt f).sliceAt = s.sliceAt := rfl

/-! ### State.onRsl -/

@[simp] theorem State.onRsl_pending (s : State) (f : Rsl → Rsl) : (s.onRsl f).pending = s.pending := rfl
@[simp] theorem State.onRsl_regs (s : State) (f : Rsl → Rsl) : (s.onRsl f).regs = s.regs := rfl
@[simp] theorem State.onRsl_cnt (s : State) (f : Rsl → Rsl) : (s.onRsl f).cnt = s.cnt := rfl
@[simp] theorem State.onRsl_mem (s : State) (f : Rsl → Rsl) : (s.onRsl f).mem = s.mem := rfl
@[simp] theorem State.onRsl_poison (s : State) (f : Rsl → Rsl) : (s.onRsl f).poison = s.poison := rfl
@[simp] theorem State.onRsl_fresh (s : State) (f : Rsl → Rsl) : (s.onRsl f).fresh = s.fresh := rfl
@[simp] theorem State.onRsl_seqs (s : State) (f : Rsl → Rsl) : (s.onRsl f).seqs = s.seqs := rfl
@[simp] theorem State.onRsl_launches (s : State) (f : Rsl → Rsl) : (s.onRsl f).launches = s.launches := rfl
@[simp] theorem State.onRsl_siphons (s : State) (f : Rsl → Rsl) : (s.onRsl f).siphons = s.siphons := rfl
@[simp] theorem State.onRsl_passes (s : State) (f : Rsl → Rsl) : (s.onRsl f).passes = s.passes := rfl
@[simp] theorem State.onRsl_nextPass (s : State) (f : Rsl → Rsl) : (s.onRsl f).nextPass = s.nextPass := rfl
@[simp] theorem State.onRsl_mesh (s : State) (f : Rsl → Rsl) : (s.onRsl f).mesh = s.mesh := rfl
@[simp] theorem State.onRsl_meshTurn (s : State) (f : Rsl → Rsl) : (s.onRsl f).meshTurn = s.meshTurn := rfl
@[simp] theorem State.onRsl_watches (s : State) (f : Rsl → Rsl) : (s.onRsl f).watches = s.watches := rfl
@[simp] theorem State.onRsl_cmds (s : State) (f : Rsl → Rsl) : (s.onRsl f).cmds = s.cmds := rfl
@[simp] theorem State.onRsl_turn (s : State) (f : Rsl → Rsl) : (s.onRsl f).turn = s.turn := rfl
@[simp] theorem State.onRsl_sinceMsg (s : State) (f : Rsl → Rsl) : (s.onRsl f).sinceMsg = s.sinceMsg := rfl
@[simp] theorem State.onRsl_pools (s : State) (f : Rsl → Rsl) : (s.onRsl f).pools = s.pools := rfl
@[simp] theorem State.onRsl_epoch (s : State) (f : Rsl → Rsl) : (s.onRsl f).epoch = s.epoch := rfl
@[simp] theorem State.onRsl_snaps (s : State) (f : Rsl → Rsl) : (s.onRsl f).snaps = s.snaps := rfl
@[simp] theorem State.onRsl_unitEpoch (s : State) (f : Rsl → Rsl) : (s.onRsl f).unitEpoch = s.unitEpoch := rfl
@[simp] theorem State.onRsl_fuses (s : State) (f : Rsl → Rsl) : (s.onRsl f).fuses = s.fuses := rfl
@[simp] theorem State.onRsl_held (s : State) (f : Rsl → Rsl) : (s.onRsl f).held = s.held := rfl
@[simp] theorem State.onRsl_offline (s : State) (f : Rsl → Rsl) : (s.onRsl f).offline = s.offline := rfl
@[simp] theorem State.onRsl_refusing (s : State) (f : Rsl → Rsl) : (s.onRsl f).refusing = s.refusing := rfl
@[simp] theorem State.onRsl_testing (s : State) (f : Rsl → Rsl) : (s.onRsl f).testing = s.testing := rfl
@[simp] theorem State.onRsl_cores (s : State) (f : Rsl → Rsl) : (s.onRsl f).cores = s.cores := rfl
@[simp] theorem State.onRsl_out (s : State) (f : Rsl → Rsl) : (s.onRsl f).out = s.out := rfl
@[simp] theorem State.onRsl_reqs (s : State) (f : Rsl → Rsl) : (s.onRsl f).reqs = s.reqs := rfl
@[simp] theorem State.onRsl_nextReq (s : State) (f : Rsl → Rsl) : (s.onRsl f).nextReq = s.nextReq := rfl
@[simp] theorem State.onRsl_fnMask (s : State) (f : Rsl → Rsl) : (s.onRsl f).fnMask = s.fnMask := rfl
@[simp] theorem State.onRsl_msixWait (s : State) (f : Rsl → Rsl) : (s.onRsl f).msixWait = s.msixWait := rfl
@[simp] theorem State.onRsl_cancels (s : State) (f : Rsl → Rsl) : (s.onRsl f).cancels = s.cancels := rfl
@[simp] theorem State.onRsl_upds (s : State) (f : Rsl → Rsl) : (s.onRsl f).upds = s.upds := rfl
@[simp] theorem State.onRsl_links (s : State) (f : Rsl → Rsl) : (s.onRsl f).links = s.links := rfl
@[simp] theorem State.onRsl_dropStep (s : State) (f : Rsl → Rsl) : (s.onRsl f).dropStep = s.dropStep := rfl
@[simp] theorem State.onRsl_chGen (s : State) (f : Rsl → Rsl) : (s.onRsl f).chGen = s.chGen := rfl
@[simp] theorem State.onRsl_xch (s : State) (f : Rsl → Rsl) : (s.onRsl f).xch = s.xch := rfl
@[simp] theorem State.onRsl_mgt (s : State) (f : Rsl → Rsl) : (s.onRsl f).mgt = s.mgt := rfl
@[simp] theorem State.onRsl_sec (s : State) (f : Rsl → Rsl) : (s.onRsl f).sec = s.sec := rfl
@[simp] theorem State.onRsl_rst (s : State) (f : Rsl → Rsl) : (s.onRsl f).rst = s.rst := rfl
@[simp] theorem State.onRsl_gate (s : State) (f : Rsl → Rsl) : (s.onRsl f).gate = s.gate := rfl
@[simp] theorem State.onRsl_bar4 (s : State) (f : Rsl → Rsl) : (s.onRsl f).bar4 = s.bar4 := rfl
@[simp] theorem State.onRsl_freeCtr (s : State) (f : Rsl → Rsl) : (s.onRsl f).freeCtr = s.freeCtr := rfl
@[simp] theorem State.onRsl_memGen (s : State) (f : Rsl → Rsl) : (s.onRsl f).memGen = s.memGen := rfl
@[simp] theorem State.onRsl_dieCnt (s : State) (f : Rsl → Rsl) : (s.onRsl f).dieCnt = s.dieCnt := rfl
@[simp] theorem State.onRsl_scrubAt (s : State) (f : Rsl → Rsl) : (s.onRsl f).scrubAt = s.scrubAt := rfl
@[simp] theorem State.onRsl_sliceAt (s : State) (f : Rsl → Rsl) : (s.onRsl f).sliceAt = s.sliceAt := rfl

/-! ### State.onSec -/

@[simp] theorem State.onSec_pending (s : State) (f : Sec → Sec) : (s.onSec f).pending = s.pending := rfl
@[simp] theorem State.onSec_regs (s : State) (f : Sec → Sec) : (s.onSec f).regs = s.regs := rfl
@[simp] theorem State.onSec_cnt (s : State) (f : Sec → Sec) : (s.onSec f).cnt = s.cnt := rfl
@[simp] theorem State.onSec_mem (s : State) (f : Sec → Sec) : (s.onSec f).mem = s.mem := rfl
@[simp] theorem State.onSec_poison (s : State) (f : Sec → Sec) : (s.onSec f).poison = s.poison := rfl
@[simp] theorem State.onSec_fresh (s : State) (f : Sec → Sec) : (s.onSec f).fresh = s.fresh := rfl
@[simp] theorem State.onSec_seqs (s : State) (f : Sec → Sec) : (s.onSec f).seqs = s.seqs := rfl
@[simp] theorem State.onSec_launches (s : State) (f : Sec → Sec) : (s.onSec f).launches = s.launches := rfl
@[simp] theorem State.onSec_siphons (s : State) (f : Sec → Sec) : (s.onSec f).siphons = s.siphons := rfl
@[simp] theorem State.onSec_passes (s : State) (f : Sec → Sec) : (s.onSec f).passes = s.passes := rfl
@[simp] theorem State.onSec_nextPass (s : State) (f : Sec → Sec) : (s.onSec f).nextPass = s.nextPass := rfl
@[simp] theorem State.onSec_mesh (s : State) (f : Sec → Sec) : (s.onSec f).mesh = s.mesh := rfl
@[simp] theorem State.onSec_meshTurn (s : State) (f : Sec → Sec) : (s.onSec f).meshTurn = s.meshTurn := rfl
@[simp] theorem State.onSec_watches (s : State) (f : Sec → Sec) : (s.onSec f).watches = s.watches := rfl
@[simp] theorem State.onSec_cmds (s : State) (f : Sec → Sec) : (s.onSec f).cmds = s.cmds := rfl
@[simp] theorem State.onSec_turn (s : State) (f : Sec → Sec) : (s.onSec f).turn = s.turn := rfl
@[simp] theorem State.onSec_sinceMsg (s : State) (f : Sec → Sec) : (s.onSec f).sinceMsg = s.sinceMsg := rfl
@[simp] theorem State.onSec_pools (s : State) (f : Sec → Sec) : (s.onSec f).pools = s.pools := rfl
@[simp] theorem State.onSec_epoch (s : State) (f : Sec → Sec) : (s.onSec f).epoch = s.epoch := rfl
@[simp] theorem State.onSec_snaps (s : State) (f : Sec → Sec) : (s.onSec f).snaps = s.snaps := rfl
@[simp] theorem State.onSec_unitEpoch (s : State) (f : Sec → Sec) : (s.onSec f).unitEpoch = s.unitEpoch := rfl
@[simp] theorem State.onSec_fuses (s : State) (f : Sec → Sec) : (s.onSec f).fuses = s.fuses := rfl
@[simp] theorem State.onSec_held (s : State) (f : Sec → Sec) : (s.onSec f).held = s.held := rfl
@[simp] theorem State.onSec_offline (s : State) (f : Sec → Sec) : (s.onSec f).offline = s.offline := rfl
@[simp] theorem State.onSec_refusing (s : State) (f : Sec → Sec) : (s.onSec f).refusing = s.refusing := rfl
@[simp] theorem State.onSec_testing (s : State) (f : Sec → Sec) : (s.onSec f).testing = s.testing := rfl
@[simp] theorem State.onSec_cores (s : State) (f : Sec → Sec) : (s.onSec f).cores = s.cores := rfl
@[simp] theorem State.onSec_out (s : State) (f : Sec → Sec) : (s.onSec f).out = s.out := rfl
@[simp] theorem State.onSec_reqs (s : State) (f : Sec → Sec) : (s.onSec f).reqs = s.reqs := rfl
@[simp] theorem State.onSec_nextReq (s : State) (f : Sec → Sec) : (s.onSec f).nextReq = s.nextReq := rfl
@[simp] theorem State.onSec_fnMask (s : State) (f : Sec → Sec) : (s.onSec f).fnMask = s.fnMask := rfl
@[simp] theorem State.onSec_msixWait (s : State) (f : Sec → Sec) : (s.onSec f).msixWait = s.msixWait := rfl
@[simp] theorem State.onSec_cancels (s : State) (f : Sec → Sec) : (s.onSec f).cancels = s.cancels := rfl
@[simp] theorem State.onSec_upds (s : State) (f : Sec → Sec) : (s.onSec f).upds = s.upds := rfl
@[simp] theorem State.onSec_links (s : State) (f : Sec → Sec) : (s.onSec f).links = s.links := rfl
@[simp] theorem State.onSec_dropStep (s : State) (f : Sec → Sec) : (s.onSec f).dropStep = s.dropStep := rfl
@[simp] theorem State.onSec_chGen (s : State) (f : Sec → Sec) : (s.onSec f).chGen = s.chGen := rfl
@[simp] theorem State.onSec_xch (s : State) (f : Sec → Sec) : (s.onSec f).xch = s.xch := rfl
@[simp] theorem State.onSec_rsl (s : State) (f : Sec → Sec) : (s.onSec f).rsl = s.rsl := rfl
@[simp] theorem State.onSec_mgt (s : State) (f : Sec → Sec) : (s.onSec f).mgt = s.mgt := rfl
@[simp] theorem State.onSec_rst (s : State) (f : Sec → Sec) : (s.onSec f).rst = s.rst := rfl
@[simp] theorem State.onSec_gate (s : State) (f : Sec → Sec) : (s.onSec f).gate = s.gate := rfl
@[simp] theorem State.onSec_bar4 (s : State) (f : Sec → Sec) : (s.onSec f).bar4 = s.bar4 := rfl
@[simp] theorem State.onSec_freeCtr (s : State) (f : Sec → Sec) : (s.onSec f).freeCtr = s.freeCtr := rfl
@[simp] theorem State.onSec_memGen (s : State) (f : Sec → Sec) : (s.onSec f).memGen = s.memGen := rfl
@[simp] theorem State.onSec_dieCnt (s : State) (f : Sec → Sec) : (s.onSec f).dieCnt = s.dieCnt := rfl
@[simp] theorem State.onSec_scrubAt (s : State) (f : Sec → Sec) : (s.onSec f).scrubAt = s.scrubAt := rfl
@[simp] theorem State.onSec_sliceAt (s : State) (f : Sec → Sec) : (s.onSec f).sliceAt = s.sliceAt := rfl

/-! ### State.onLink -/

@[simp] theorem State.onLink_pending (s : State) (l : Nat) (f : Link → Link) : (s.onLink l f).pending = s.pending := rfl
@[simp] theorem State.onLink_regs (s : State) (l : Nat) (f : Link → Link) : (s.onLink l f).regs = s.regs := rfl
@[simp] theorem State.onLink_cnt (s : State) (l : Nat) (f : Link → Link) : (s.onLink l f).cnt = s.cnt := rfl
@[simp] theorem State.onLink_mem (s : State) (l : Nat) (f : Link → Link) : (s.onLink l f).mem = s.mem := rfl
@[simp] theorem State.onLink_poison (s : State) (l : Nat) (f : Link → Link) : (s.onLink l f).poison = s.poison := rfl
@[simp] theorem State.onLink_fresh (s : State) (l : Nat) (f : Link → Link) : (s.onLink l f).fresh = s.fresh := rfl
@[simp] theorem State.onLink_seqs (s : State) (l : Nat) (f : Link → Link) : (s.onLink l f).seqs = s.seqs := rfl
@[simp] theorem State.onLink_launches (s : State) (l : Nat) (f : Link → Link) : (s.onLink l f).launches = s.launches := rfl
@[simp] theorem State.onLink_siphons (s : State) (l : Nat) (f : Link → Link) : (s.onLink l f).siphons = s.siphons := rfl
@[simp] theorem State.onLink_passes (s : State) (l : Nat) (f : Link → Link) : (s.onLink l f).passes = s.passes := rfl
@[simp] theorem State.onLink_nextPass (s : State) (l : Nat) (f : Link → Link) : (s.onLink l f).nextPass = s.nextPass := rfl
@[simp] theorem State.onLink_mesh (s : State) (l : Nat) (f : Link → Link) : (s.onLink l f).mesh = s.mesh := rfl
@[simp] theorem State.onLink_meshTurn (s : State) (l : Nat) (f : Link → Link) : (s.onLink l f).meshTurn = s.meshTurn := rfl
@[simp] theorem State.onLink_watches (s : State) (l : Nat) (f : Link → Link) : (s.onLink l f).watches = s.watches := rfl
@[simp] theorem State.onLink_cmds (s : State) (l : Nat) (f : Link → Link) : (s.onLink l f).cmds = s.cmds := rfl
@[simp] theorem State.onLink_turn (s : State) (l : Nat) (f : Link → Link) : (s.onLink l f).turn = s.turn := rfl
@[simp] theorem State.onLink_sinceMsg (s : State) (l : Nat) (f : Link → Link) : (s.onLink l f).sinceMsg = s.sinceMsg := rfl
@[simp] theorem State.onLink_pools (s : State) (l : Nat) (f : Link → Link) : (s.onLink l f).pools = s.pools := rfl
@[simp] theorem State.onLink_epoch (s : State) (l : Nat) (f : Link → Link) : (s.onLink l f).epoch = s.epoch := rfl
@[simp] theorem State.onLink_snaps (s : State) (l : Nat) (f : Link → Link) : (s.onLink l f).snaps = s.snaps := rfl
@[simp] theorem State.onLink_unitEpoch (s : State) (l : Nat) (f : Link → Link) : (s.onLink l f).unitEpoch = s.unitEpoch := rfl
@[simp] theorem State.onLink_fuses (s : State) (l : Nat) (f : Link → Link) : (s.onLink l f).fuses = s.fuses := rfl
@[simp] theorem State.onLink_held (s : State) (l : Nat) (f : Link → Link) : (s.onLink l f).held = s.held := rfl
@[simp] theorem State.onLink_offline (s : State) (l : Nat) (f : Link → Link) : (s.onLink l f).offline = s.offline := rfl
@[simp] theorem State.onLink_refusing (s : State) (l : Nat) (f : Link → Link) : (s.onLink l f).refusing = s.refusing := rfl
@[simp] theorem State.onLink_testing (s : State) (l : Nat) (f : Link → Link) : (s.onLink l f).testing = s.testing := rfl
@[simp] theorem State.onLink_cores (s : State) (l : Nat) (f : Link → Link) : (s.onLink l f).cores = s.cores := rfl
@[simp] theorem State.onLink_out (s : State) (l : Nat) (f : Link → Link) : (s.onLink l f).out = s.out := rfl
@[simp] theorem State.onLink_reqs (s : State) (l : Nat) (f : Link → Link) : (s.onLink l f).reqs = s.reqs := rfl
@[simp] theorem State.onLink_nextReq (s : State) (l : Nat) (f : Link → Link) : (s.onLink l f).nextReq = s.nextReq := rfl
@[simp] theorem State.onLink_fnMask (s : State) (l : Nat) (f : Link → Link) : (s.onLink l f).fnMask = s.fnMask := rfl
@[simp] theorem State.onLink_msixWait (s : State) (l : Nat) (f : Link → Link) : (s.onLink l f).msixWait = s.msixWait := rfl
@[simp] theorem State.onLink_cancels (s : State) (l : Nat) (f : Link → Link) : (s.onLink l f).cancels = s.cancels := rfl
@[simp] theorem State.onLink_upds (s : State) (l : Nat) (f : Link → Link) : (s.onLink l f).upds = s.upds := rfl
@[simp] theorem State.onLink_dropStep (s : State) (l : Nat) (f : Link → Link) : (s.onLink l f).dropStep = s.dropStep := rfl
@[simp] theorem State.onLink_chGen (s : State) (l : Nat) (f : Link → Link) : (s.onLink l f).chGen = s.chGen := rfl
@[simp] theorem State.onLink_xch (s : State) (l : Nat) (f : Link → Link) : (s.onLink l f).xch = s.xch := rfl
@[simp] theorem State.onLink_rsl (s : State) (l : Nat) (f : Link → Link) : (s.onLink l f).rsl = s.rsl := rfl
@[simp] theorem State.onLink_mgt (s : State) (l : Nat) (f : Link → Link) : (s.onLink l f).mgt = s.mgt := rfl
@[simp] theorem State.onLink_sec (s : State) (l : Nat) (f : Link → Link) : (s.onLink l f).sec = s.sec := rfl
@[simp] theorem State.onLink_rst (s : State) (l : Nat) (f : Link → Link) : (s.onLink l f).rst = s.rst := rfl
@[simp] theorem State.onLink_gate (s : State) (l : Nat) (f : Link → Link) : (s.onLink l f).gate = s.gate := rfl
@[simp] theorem State.onLink_bar4 (s : State) (l : Nat) (f : Link → Link) : (s.onLink l f).bar4 = s.bar4 := rfl
@[simp] theorem State.onLink_freeCtr (s : State) (l : Nat) (f : Link → Link) : (s.onLink l f).freeCtr = s.freeCtr := rfl
@[simp] theorem State.onLink_memGen (s : State) (l : Nat) (f : Link → Link) : (s.onLink l f).memGen = s.memGen := rfl
@[simp] theorem State.onLink_dieCnt (s : State) (l : Nat) (f : Link → Link) : (s.onLink l f).dieCnt = s.dieCnt := rfl
@[simp] theorem State.onLink_scrubAt (s : State) (l : Nat) (f : Link → Link) : (s.onLink l f).scrubAt = s.scrubAt := rfl
@[simp] theorem State.onLink_sliceAt (s : State) (l : Nat) (f : Link → Link) : (s.onLink l f).sliceAt = s.sliceAt := rfl

/-! ### State.setSeq -/

@[simp] theorem State.setSeq_pending (s : State) (u : SeqId) (q : Seq) : (s.setSeq u q).pending = s.pending := rfl
@[simp] theorem State.setSeq_regs (s : State) (u : SeqId) (q : Seq) : (s.setSeq u q).regs = s.regs := rfl
@[simp] theorem State.setSeq_cnt (s : State) (u : SeqId) (q : Seq) : (s.setSeq u q).cnt = s.cnt := rfl
@[simp] theorem State.setSeq_mem (s : State) (u : SeqId) (q : Seq) : (s.setSeq u q).mem = s.mem := rfl
@[simp] theorem State.setSeq_poison (s : State) (u : SeqId) (q : Seq) : (s.setSeq u q).poison = s.poison := rfl
@[simp] theorem State.setSeq_fresh (s : State) (u : SeqId) (q : Seq) : (s.setSeq u q).fresh = s.fresh := rfl
@[simp] theorem State.setSeq_launches (s : State) (u : SeqId) (q : Seq) : (s.setSeq u q).launches = s.launches := rfl
@[simp] theorem State.setSeq_siphons (s : State) (u : SeqId) (q : Seq) : (s.setSeq u q).siphons = s.siphons := rfl
@[simp] theorem State.setSeq_passes (s : State) (u : SeqId) (q : Seq) : (s.setSeq u q).passes = s.passes := rfl
@[simp] theorem State.setSeq_nextPass (s : State) (u : SeqId) (q : Seq) : (s.setSeq u q).nextPass = s.nextPass := rfl
@[simp] theorem State.setSeq_mesh (s : State) (u : SeqId) (q : Seq) : (s.setSeq u q).mesh = s.mesh := rfl
@[simp] theorem State.setSeq_meshTurn (s : State) (u : SeqId) (q : Seq) : (s.setSeq u q).meshTurn = s.meshTurn := rfl
@[simp] theorem State.setSeq_watches (s : State) (u : SeqId) (q : Seq) : (s.setSeq u q).watches = s.watches := rfl
@[simp] theorem State.setSeq_cmds (s : State) (u : SeqId) (q : Seq) : (s.setSeq u q).cmds = s.cmds := rfl
@[simp] theorem State.setSeq_turn (s : State) (u : SeqId) (q : Seq) : (s.setSeq u q).turn = s.turn := rfl
@[simp] theorem State.setSeq_sinceMsg (s : State) (u : SeqId) (q : Seq) : (s.setSeq u q).sinceMsg = s.sinceMsg := rfl
@[simp] theorem State.setSeq_pools (s : State) (u : SeqId) (q : Seq) : (s.setSeq u q).pools = s.pools := rfl
@[simp] theorem State.setSeq_epoch (s : State) (u : SeqId) (q : Seq) : (s.setSeq u q).epoch = s.epoch := rfl
@[simp] theorem State.setSeq_snaps (s : State) (u : SeqId) (q : Seq) : (s.setSeq u q).snaps = s.snaps := rfl
@[simp] theorem State.setSeq_unitEpoch (s : State) (u : SeqId) (q : Seq) : (s.setSeq u q).unitEpoch = s.unitEpoch := rfl
@[simp] theorem State.setSeq_fuses (s : State) (u : SeqId) (q : Seq) : (s.setSeq u q).fuses = s.fuses := rfl
@[simp] theorem State.setSeq_held (s : State) (u : SeqId) (q : Seq) : (s.setSeq u q).held = s.held := rfl
@[simp] theorem State.setSeq_offline (s : State) (u : SeqId) (q : Seq) : (s.setSeq u q).offline = s.offline := rfl
@[simp] theorem State.setSeq_refusing (s : State) (u : SeqId) (q : Seq) : (s.setSeq u q).refusing = s.refusing := rfl
@[simp] theorem State.setSeq_testing (s : State) (u : SeqId) (q : Seq) : (s.setSeq u q).testing = s.testing := rfl
@[simp] theorem State.setSeq_cores (s : State) (u : SeqId) (q : Seq) : (s.setSeq u q).cores = s.cores := rfl
@[simp] theorem State.setSeq_out (s : State) (u : SeqId) (q : Seq) : (s.setSeq u q).out = s.out := rfl
@[simp] theorem State.setSeq_reqs (s : State) (u : SeqId) (q : Seq) : (s.setSeq u q).reqs = s.reqs := rfl
@[simp] theorem State.setSeq_nextReq (s : State) (u : SeqId) (q : Seq) : (s.setSeq u q).nextReq = s.nextReq := rfl
@[simp] theorem State.setSeq_fnMask (s : State) (u : SeqId) (q : Seq) : (s.setSeq u q).fnMask = s.fnMask := rfl
@[simp] theorem State.setSeq_msixWait (s : State) (u : SeqId) (q : Seq) : (s.setSeq u q).msixWait = s.msixWait := rfl
@[simp] theorem State.setSeq_cancels (s : State) (u : SeqId) (q : Seq) : (s.setSeq u q).cancels = s.cancels := rfl
@[simp] theorem State.setSeq_upds (s : State) (u : SeqId) (q : Seq) : (s.setSeq u q).upds = s.upds := rfl
@[simp] theorem State.setSeq_links (s : State) (u : SeqId) (q : Seq) : (s.setSeq u q).links = s.links := rfl
@[simp] theorem State.setSeq_dropStep (s : State) (u : SeqId) (q : Seq) : (s.setSeq u q).dropStep = s.dropStep := rfl
@[simp] theorem State.setSeq_chGen (s : State) (u : SeqId) (q : Seq) : (s.setSeq u q).chGen = s.chGen := rfl
@[simp] theorem State.setSeq_xch (s : State) (u : SeqId) (q : Seq) : (s.setSeq u q).xch = s.xch := rfl
@[simp] theorem State.setSeq_rsl (s : State) (u : SeqId) (q : Seq) : (s.setSeq u q).rsl = s.rsl := rfl
@[simp] theorem State.setSeq_mgt (s : State) (u : SeqId) (q : Seq) : (s.setSeq u q).mgt = s.mgt := rfl
@[simp] theorem State.setSeq_sec (s : State) (u : SeqId) (q : Seq) : (s.setSeq u q).sec = s.sec := rfl
@[simp] theorem State.setSeq_rst (s : State) (u : SeqId) (q : Seq) : (s.setSeq u q).rst = s.rst := rfl
@[simp] theorem State.setSeq_gate (s : State) (u : SeqId) (q : Seq) : (s.setSeq u q).gate = s.gate := rfl
@[simp] theorem State.setSeq_bar4 (s : State) (u : SeqId) (q : Seq) : (s.setSeq u q).bar4 = s.bar4 := rfl
@[simp] theorem State.setSeq_freeCtr (s : State) (u : SeqId) (q : Seq) : (s.setSeq u q).freeCtr = s.freeCtr := rfl
@[simp] theorem State.setSeq_memGen (s : State) (u : SeqId) (q : Seq) : (s.setSeq u q).memGen = s.memGen := rfl
@[simp] theorem State.setSeq_dieCnt (s : State) (u : SeqId) (q : Seq) : (s.setSeq u q).dieCnt = s.dieCnt := rfl
@[simp] theorem State.setSeq_scrubAt (s : State) (u : SeqId) (q : Seq) : (s.setSeq u q).scrubAt = s.scrubAt := rfl
@[simp] theorem State.setSeq_sliceAt (s : State) (u : SeqId) (q : Seq) : (s.setSeq u q).sliceAt = s.sliceAt := rfl

/-! ### State.onSeq -/

@[simp] theorem State.onSeq_pending (s : State) (u : SeqId) (f : Seq → Seq) : (s.onSeq u f).pending = s.pending := rfl
@[simp] theorem State.onSeq_regs (s : State) (u : SeqId) (f : Seq → Seq) : (s.onSeq u f).regs = s.regs := rfl
@[simp] theorem State.onSeq_cnt (s : State) (u : SeqId) (f : Seq → Seq) : (s.onSeq u f).cnt = s.cnt := rfl
@[simp] theorem State.onSeq_mem (s : State) (u : SeqId) (f : Seq → Seq) : (s.onSeq u f).mem = s.mem := rfl
@[simp] theorem State.onSeq_poison (s : State) (u : SeqId) (f : Seq → Seq) : (s.onSeq u f).poison = s.poison := rfl
@[simp] theorem State.onSeq_fresh (s : State) (u : SeqId) (f : Seq → Seq) : (s.onSeq u f).fresh = s.fresh := rfl
@[simp] theorem State.onSeq_launches (s : State) (u : SeqId) (f : Seq → Seq) : (s.onSeq u f).launches = s.launches := rfl
@[simp] theorem State.onSeq_siphons (s : State) (u : SeqId) (f : Seq → Seq) : (s.onSeq u f).siphons = s.siphons := rfl
@[simp] theorem State.onSeq_passes (s : State) (u : SeqId) (f : Seq → Seq) : (s.onSeq u f).passes = s.passes := rfl
@[simp] theorem State.onSeq_nextPass (s : State) (u : SeqId) (f : Seq → Seq) : (s.onSeq u f).nextPass = s.nextPass := rfl
@[simp] theorem State.onSeq_mesh (s : State) (u : SeqId) (f : Seq → Seq) : (s.onSeq u f).mesh = s.mesh := rfl
@[simp] theorem State.onSeq_meshTurn (s : State) (u : SeqId) (f : Seq → Seq) : (s.onSeq u f).meshTurn = s.meshTurn := rfl
@[simp] theorem State.onSeq_watches (s : State) (u : SeqId) (f : Seq → Seq) : (s.onSeq u f).watches = s.watches := rfl
@[simp] theorem State.onSeq_cmds (s : State) (u : SeqId) (f : Seq → Seq) : (s.onSeq u f).cmds = s.cmds := rfl
@[simp] theorem State.onSeq_turn (s : State) (u : SeqId) (f : Seq → Seq) : (s.onSeq u f).turn = s.turn := rfl
@[simp] theorem State.onSeq_sinceMsg (s : State) (u : SeqId) (f : Seq → Seq) : (s.onSeq u f).sinceMsg = s.sinceMsg := rfl
@[simp] theorem State.onSeq_pools (s : State) (u : SeqId) (f : Seq → Seq) : (s.onSeq u f).pools = s.pools := rfl
@[simp] theorem State.onSeq_epoch (s : State) (u : SeqId) (f : Seq → Seq) : (s.onSeq u f).epoch = s.epoch := rfl
@[simp] theorem State.onSeq_snaps (s : State) (u : SeqId) (f : Seq → Seq) : (s.onSeq u f).snaps = s.snaps := rfl
@[simp] theorem State.onSeq_unitEpoch (s : State) (u : SeqId) (f : Seq → Seq) : (s.onSeq u f).unitEpoch = s.unitEpoch := rfl
@[simp] theorem State.onSeq_fuses (s : State) (u : SeqId) (f : Seq → Seq) : (s.onSeq u f).fuses = s.fuses := rfl
@[simp] theorem State.onSeq_held (s : State) (u : SeqId) (f : Seq → Seq) : (s.onSeq u f).held = s.held := rfl
@[simp] theorem State.onSeq_offline (s : State) (u : SeqId) (f : Seq → Seq) : (s.onSeq u f).offline = s.offline := rfl
@[simp] theorem State.onSeq_refusing (s : State) (u : SeqId) (f : Seq → Seq) : (s.onSeq u f).refusing = s.refusing := rfl
@[simp] theorem State.onSeq_testing (s : State) (u : SeqId) (f : Seq → Seq) : (s.onSeq u f).testing = s.testing := rfl
@[simp] theorem State.onSeq_cores (s : State) (u : SeqId) (f : Seq → Seq) : (s.onSeq u f).cores = s.cores := rfl
@[simp] theorem State.onSeq_out (s : State) (u : SeqId) (f : Seq → Seq) : (s.onSeq u f).out = s.out := rfl
@[simp] theorem State.onSeq_reqs (s : State) (u : SeqId) (f : Seq → Seq) : (s.onSeq u f).reqs = s.reqs := rfl
@[simp] theorem State.onSeq_nextReq (s : State) (u : SeqId) (f : Seq → Seq) : (s.onSeq u f).nextReq = s.nextReq := rfl
@[simp] theorem State.onSeq_fnMask (s : State) (u : SeqId) (f : Seq → Seq) : (s.onSeq u f).fnMask = s.fnMask := rfl
@[simp] theorem State.onSeq_msixWait (s : State) (u : SeqId) (f : Seq → Seq) : (s.onSeq u f).msixWait = s.msixWait := rfl
@[simp] theorem State.onSeq_cancels (s : State) (u : SeqId) (f : Seq → Seq) : (s.onSeq u f).cancels = s.cancels := rfl
@[simp] theorem State.onSeq_upds (s : State) (u : SeqId) (f : Seq → Seq) : (s.onSeq u f).upds = s.upds := rfl
@[simp] theorem State.onSeq_links (s : State) (u : SeqId) (f : Seq → Seq) : (s.onSeq u f).links = s.links := rfl
@[simp] theorem State.onSeq_dropStep (s : State) (u : SeqId) (f : Seq → Seq) : (s.onSeq u f).dropStep = s.dropStep := rfl
@[simp] theorem State.onSeq_chGen (s : State) (u : SeqId) (f : Seq → Seq) : (s.onSeq u f).chGen = s.chGen := rfl
@[simp] theorem State.onSeq_xch (s : State) (u : SeqId) (f : Seq → Seq) : (s.onSeq u f).xch = s.xch := rfl
@[simp] theorem State.onSeq_rsl (s : State) (u : SeqId) (f : Seq → Seq) : (s.onSeq u f).rsl = s.rsl := rfl
@[simp] theorem State.onSeq_mgt (s : State) (u : SeqId) (f : Seq → Seq) : (s.onSeq u f).mgt = s.mgt := rfl
@[simp] theorem State.onSeq_sec (s : State) (u : SeqId) (f : Seq → Seq) : (s.onSeq u f).sec = s.sec := rfl
@[simp] theorem State.onSeq_rst (s : State) (u : SeqId) (f : Seq → Seq) : (s.onSeq u f).rst = s.rst := rfl
@[simp] theorem State.onSeq_gate (s : State) (u : SeqId) (f : Seq → Seq) : (s.onSeq u f).gate = s.gate := rfl
@[simp] theorem State.onSeq_bar4 (s : State) (u : SeqId) (f : Seq → Seq) : (s.onSeq u f).bar4 = s.bar4 := rfl
@[simp] theorem State.onSeq_freeCtr (s : State) (u : SeqId) (f : Seq → Seq) : (s.onSeq u f).freeCtr = s.freeCtr := rfl
@[simp] theorem State.onSeq_memGen (s : State) (u : SeqId) (f : Seq → Seq) : (s.onSeq u f).memGen = s.memGen := rfl
@[simp] theorem State.onSeq_dieCnt (s : State) (u : SeqId) (f : Seq → Seq) : (s.onSeq u f).dieCnt = s.dieCnt := rfl
@[simp] theorem State.onSeq_scrubAt (s : State) (u : SeqId) (f : Seq → Seq) : (s.onSeq u f).scrubAt = s.scrubAt := rfl
@[simp] theorem State.onSeq_sliceAt (s : State) (u : SeqId) (f : Seq → Seq) : (s.onSeq u f).sliceAt = s.sliceAt := rfl

/-! ### State.adv -/

@[simp] theorem State.adv_pending (s : State) (u : SeqId) : (s.adv u).pending = s.pending := rfl
@[simp] theorem State.adv_regs (s : State) (u : SeqId) : (s.adv u).regs = s.regs := rfl
@[simp] theorem State.adv_cnt (s : State) (u : SeqId) : (s.adv u).cnt = s.cnt := rfl
@[simp] theorem State.adv_mem (s : State) (u : SeqId) : (s.adv u).mem = s.mem := rfl
@[simp] theorem State.adv_poison (s : State) (u : SeqId) : (s.adv u).poison = s.poison := rfl
@[simp] theorem State.adv_fresh (s : State) (u : SeqId) : (s.adv u).fresh = s.fresh := rfl
@[simp] theorem State.adv_launches (s : State) (u : SeqId) : (s.adv u).launches = s.launches := rfl
@[simp] theorem State.adv_siphons (s : State) (u : SeqId) : (s.adv u).siphons = s.siphons := rfl
@[simp] theorem State.adv_passes (s : State) (u : SeqId) : (s.adv u).passes = s.passes := rfl
@[simp] theorem State.adv_nextPass (s : State) (u : SeqId) : (s.adv u).nextPass = s.nextPass := rfl
@[simp] theorem State.adv_mesh (s : State) (u : SeqId) : (s.adv u).mesh = s.mesh := rfl
@[simp] theorem State.adv_meshTurn (s : State) (u : SeqId) : (s.adv u).meshTurn = s.meshTurn := rfl
@[simp] theorem State.adv_watches (s : State) (u : SeqId) : (s.adv u).watches = s.watches := rfl
@[simp] theorem State.adv_cmds (s : State) (u : SeqId) : (s.adv u).cmds = s.cmds := rfl
@[simp] theorem State.adv_turn (s : State) (u : SeqId) : (s.adv u).turn = s.turn := rfl
@[simp] theorem State.adv_sinceMsg (s : State) (u : SeqId) : (s.adv u).sinceMsg = s.sinceMsg := rfl
@[simp] theorem State.adv_pools (s : State) (u : SeqId) : (s.adv u).pools = s.pools := rfl
@[simp] theorem State.adv_epoch (s : State) (u : SeqId) : (s.adv u).epoch = s.epoch := rfl
@[simp] theorem State.adv_snaps (s : State) (u : SeqId) : (s.adv u).snaps = s.snaps := rfl
@[simp] theorem State.adv_unitEpoch (s : State) (u : SeqId) : (s.adv u).unitEpoch = s.unitEpoch := rfl
@[simp] theorem State.adv_fuses (s : State) (u : SeqId) : (s.adv u).fuses = s.fuses := rfl
@[simp] theorem State.adv_held (s : State) (u : SeqId) : (s.adv u).held = s.held := rfl
@[simp] theorem State.adv_offline (s : State) (u : SeqId) : (s.adv u).offline = s.offline := rfl
@[simp] theorem State.adv_refusing (s : State) (u : SeqId) : (s.adv u).refusing = s.refusing := rfl
@[simp] theorem State.adv_testing (s : State) (u : SeqId) : (s.adv u).testing = s.testing := rfl
@[simp] theorem State.adv_cores (s : State) (u : SeqId) : (s.adv u).cores = s.cores := rfl
@[simp] theorem State.adv_out (s : State) (u : SeqId) : (s.adv u).out = s.out := rfl
@[simp] theorem State.adv_reqs (s : State) (u : SeqId) : (s.adv u).reqs = s.reqs := rfl
@[simp] theorem State.adv_nextReq (s : State) (u : SeqId) : (s.adv u).nextReq = s.nextReq := rfl
@[simp] theorem State.adv_fnMask (s : State) (u : SeqId) : (s.adv u).fnMask = s.fnMask := rfl
@[simp] theorem State.adv_msixWait (s : State) (u : SeqId) : (s.adv u).msixWait = s.msixWait := rfl
@[simp] theorem State.adv_cancels (s : State) (u : SeqId) : (s.adv u).cancels = s.cancels := rfl
@[simp] theorem State.adv_upds (s : State) (u : SeqId) : (s.adv u).upds = s.upds := rfl
@[simp] theorem State.adv_links (s : State) (u : SeqId) : (s.adv u).links = s.links := rfl
@[simp] theorem State.adv_dropStep (s : State) (u : SeqId) : (s.adv u).dropStep = s.dropStep := rfl
@[simp] theorem State.adv_chGen (s : State) (u : SeqId) : (s.adv u).chGen = s.chGen := rfl
@[simp] theorem State.adv_xch (s : State) (u : SeqId) : (s.adv u).xch = s.xch := rfl
@[simp] theorem State.adv_rsl (s : State) (u : SeqId) : (s.adv u).rsl = s.rsl := rfl
@[simp] theorem State.adv_mgt (s : State) (u : SeqId) : (s.adv u).mgt = s.mgt := rfl
@[simp] theorem State.adv_sec (s : State) (u : SeqId) : (s.adv u).sec = s.sec := rfl
@[simp] theorem State.adv_rst (s : State) (u : SeqId) : (s.adv u).rst = s.rst := rfl
@[simp] theorem State.adv_gate (s : State) (u : SeqId) : (s.adv u).gate = s.gate := rfl
@[simp] theorem State.adv_bar4 (s : State) (u : SeqId) : (s.adv u).bar4 = s.bar4 := rfl
@[simp] theorem State.adv_freeCtr (s : State) (u : SeqId) : (s.adv u).freeCtr = s.freeCtr := rfl
@[simp] theorem State.adv_memGen (s : State) (u : SeqId) : (s.adv u).memGen = s.memGen := rfl
@[simp] theorem State.adv_dieCnt (s : State) (u : SeqId) : (s.adv u).dieCnt = s.dieCnt := rfl
@[simp] theorem State.adv_scrubAt (s : State) (u : SeqId) : (s.adv u).scrubAt = s.scrubAt := rfl
@[simp] theorem State.adv_sliceAt (s : State) (u : SeqId) : (s.adv u).sliceAt = s.sliceAt := rfl

/-! ### State.park -/

@[simp] theorem State.park_pending (s : State) (u : SeqId) : (s.park u).pending = s.pending := rfl
@[simp] theorem State.park_regs (s : State) (u : SeqId) : (s.park u).regs = s.regs := rfl
@[simp] theorem State.park_cnt (s : State) (u : SeqId) : (s.park u).cnt = s.cnt := rfl
@[simp] theorem State.park_mem (s : State) (u : SeqId) : (s.park u).mem = s.mem := rfl
@[simp] theorem State.park_poison (s : State) (u : SeqId) : (s.park u).poison = s.poison := rfl
@[simp] theorem State.park_fresh (s : State) (u : SeqId) : (s.park u).fresh = s.fresh := rfl
@[simp] theorem State.park_launches (s : State) (u : SeqId) : (s.park u).launches = s.launches := rfl
@[simp] theorem State.park_siphons (s : State) (u : SeqId) : (s.park u).siphons = s.siphons := rfl
@[simp] theorem State.park_passes (s : State) (u : SeqId) : (s.park u).passes = s.passes := rfl
@[simp] theorem State.park_nextPass (s : State) (u : SeqId) : (s.park u).nextPass = s.nextPass := rfl
@[simp] theorem State.park_mesh (s : State) (u : SeqId) : (s.park u).mesh = s.mesh := rfl
@[simp] theorem State.park_meshTurn (s : State) (u : SeqId) : (s.park u).meshTurn = s.meshTurn := rfl
@[simp] theorem State.park_watches (s : State) (u : SeqId) : (s.park u).watches = s.watches := rfl
@[simp] theorem State.park_cmds (s : State) (u : SeqId) : (s.park u).cmds = s.cmds := rfl
@[simp] theorem State.park_turn (s : State) (u : SeqId) : (s.park u).turn = s.turn := rfl
@[simp] theorem State.park_sinceMsg (s : State) (u : SeqId) : (s.park u).sinceMsg = s.sinceMsg := rfl
@[simp] theorem State.park_pools (s : State) (u : SeqId) : (s.park u).pools = s.pools := rfl
@[simp] theorem State.park_epoch (s : State) (u : SeqId) : (s.park u).epoch = s.epoch := rfl
@[simp] theorem State.park_snaps (s : State) (u : SeqId) : (s.park u).snaps = s.snaps := rfl
@[simp] theorem State.park_unitEpoch (s : State) (u : SeqId) : (s.park u).unitEpoch = s.unitEpoch := rfl
@[simp] theorem State.park_fuses (s : State) (u : SeqId) : (s.park u).fuses = s.fuses := rfl
@[simp] theorem State.park_held (s : State) (u : SeqId) : (s.park u).held = s.held := rfl
@[simp] theorem State.park_offline (s : State) (u : SeqId) : (s.park u).offline = s.offline := rfl
@[simp] theorem State.park_refusing (s : State) (u : SeqId) : (s.park u).refusing = s.refusing := rfl
@[simp] theorem State.park_testing (s : State) (u : SeqId) : (s.park u).testing = s.testing := rfl
@[simp] theorem State.park_cores (s : State) (u : SeqId) : (s.park u).cores = s.cores := rfl
@[simp] theorem State.park_out (s : State) (u : SeqId) : (s.park u).out = s.out := rfl
@[simp] theorem State.park_reqs (s : State) (u : SeqId) : (s.park u).reqs = s.reqs := rfl
@[simp] theorem State.park_nextReq (s : State) (u : SeqId) : (s.park u).nextReq = s.nextReq := rfl
@[simp] theorem State.park_fnMask (s : State) (u : SeqId) : (s.park u).fnMask = s.fnMask := rfl
@[simp] theorem State.park_msixWait (s : State) (u : SeqId) : (s.park u).msixWait = s.msixWait := rfl
@[simp] theorem State.park_cancels (s : State) (u : SeqId) : (s.park u).cancels = s.cancels := rfl
@[simp] theorem State.park_upds (s : State) (u : SeqId) : (s.park u).upds = s.upds := rfl
@[simp] theorem State.park_links (s : State) (u : SeqId) : (s.park u).links = s.links := rfl
@[simp] theorem State.park_dropStep (s : State) (u : SeqId) : (s.park u).dropStep = s.dropStep := rfl
@[simp] theorem State.park_chGen (s : State) (u : SeqId) : (s.park u).chGen = s.chGen := rfl
@[simp] theorem State.park_xch (s : State) (u : SeqId) : (s.park u).xch = s.xch := rfl
@[simp] theorem State.park_rsl (s : State) (u : SeqId) : (s.park u).rsl = s.rsl := rfl
@[simp] theorem State.park_mgt (s : State) (u : SeqId) : (s.park u).mgt = s.mgt := rfl
@[simp] theorem State.park_sec (s : State) (u : SeqId) : (s.park u).sec = s.sec := rfl
@[simp] theorem State.park_rst (s : State) (u : SeqId) : (s.park u).rst = s.rst := rfl
@[simp] theorem State.park_gate (s : State) (u : SeqId) : (s.park u).gate = s.gate := rfl
@[simp] theorem State.park_bar4 (s : State) (u : SeqId) : (s.park u).bar4 = s.bar4 := rfl
@[simp] theorem State.park_freeCtr (s : State) (u : SeqId) : (s.park u).freeCtr = s.freeCtr := rfl
@[simp] theorem State.park_memGen (s : State) (u : SeqId) : (s.park u).memGen = s.memGen := rfl
@[simp] theorem State.park_dieCnt (s : State) (u : SeqId) : (s.park u).dieCnt = s.dieCnt := rfl
@[simp] theorem State.park_scrubAt (s : State) (u : SeqId) : (s.park u).scrubAt = s.scrubAt := rfl
@[simp] theorem State.park_sliceAt (s : State) (u : SeqId) : (s.park u).sliceAt = s.sliceAt := rfl

/-! ### State.endWork -/

@[simp] theorem State.endWork_pending (s : State) (u : SeqId) (n : Nat) (c : Code) : (s.endWork u n c).pending = s.pending := rfl
@[simp] theorem State.endWork_regs (s : State) (u : SeqId) (n : Nat) (c : Code) : (s.endWork u n c).regs = s.regs := rfl
@[simp] theorem State.endWork_cnt (s : State) (u : SeqId) (n : Nat) (c : Code) : (s.endWork u n c).cnt = s.cnt := rfl
@[simp] theorem State.endWork_mem (s : State) (u : SeqId) (n : Nat) (c : Code) : (s.endWork u n c).mem = s.mem := rfl
@[simp] theorem State.endWork_poison (s : State) (u : SeqId) (n : Nat) (c : Code) : (s.endWork u n c).poison = s.poison := rfl
@[simp] theorem State.endWork_fresh (s : State) (u : SeqId) (n : Nat) (c : Code) : (s.endWork u n c).fresh = s.fresh := rfl
@[simp] theorem State.endWork_launches (s : State) (u : SeqId) (n : Nat) (c : Code) : (s.endWork u n c).launches = s.launches := rfl
@[simp] theorem State.endWork_siphons (s : State) (u : SeqId) (n : Nat) (c : Code) : (s.endWork u n c).siphons = s.siphons := rfl
@[simp] theorem State.endWork_passes (s : State) (u : SeqId) (n : Nat) (c : Code) : (s.endWork u n c).passes = s.passes := rfl
@[simp] theorem State.endWork_nextPass (s : State) (u : SeqId) (n : Nat) (c : Code) : (s.endWork u n c).nextPass = s.nextPass := rfl
@[simp] theorem State.endWork_mesh (s : State) (u : SeqId) (n : Nat) (c : Code) : (s.endWork u n c).mesh = s.mesh := rfl
@[simp] theorem State.endWork_meshTurn (s : State) (u : SeqId) (n : Nat) (c : Code) : (s.endWork u n c).meshTurn = s.meshTurn := rfl
@[simp] theorem State.endWork_watches (s : State) (u : SeqId) (n : Nat) (c : Code) : (s.endWork u n c).watches = s.watches := rfl
@[simp] theorem State.endWork_cmds (s : State) (u : SeqId) (n : Nat) (c : Code) : (s.endWork u n c).cmds = s.cmds := rfl
@[simp] theorem State.endWork_turn (s : State) (u : SeqId) (n : Nat) (c : Code) : (s.endWork u n c).turn = s.turn := rfl
@[simp] theorem State.endWork_sinceMsg (s : State) (u : SeqId) (n : Nat) (c : Code) : (s.endWork u n c).sinceMsg = s.sinceMsg := rfl
@[simp] theorem State.endWork_pools (s : State) (u : SeqId) (n : Nat) (c : Code) : (s.endWork u n c).pools = s.pools := rfl
@[simp] theorem State.endWork_epoch (s : State) (u : SeqId) (n : Nat) (c : Code) : (s.endWork u n c).epoch = s.epoch := rfl
@[simp] theorem State.endWork_snaps (s : State) (u : SeqId) (n : Nat) (c : Code) : (s.endWork u n c).snaps = s.snaps := rfl
@[simp] theorem State.endWork_unitEpoch (s : State) (u : SeqId) (n : Nat) (c : Code) : (s.endWork u n c).unitEpoch = s.unitEpoch := rfl
@[simp] theorem State.endWork_fuses (s : State) (u : SeqId) (n : Nat) (c : Code) : (s.endWork u n c).fuses = s.fuses := rfl
@[simp] theorem State.endWork_held (s : State) (u : SeqId) (n : Nat) (c : Code) : (s.endWork u n c).held = s.held := rfl
@[simp] theorem State.endWork_offline (s : State) (u : SeqId) (n : Nat) (c : Code) : (s.endWork u n c).offline = s.offline := rfl
@[simp] theorem State.endWork_refusing (s : State) (u : SeqId) (n : Nat) (c : Code) : (s.endWork u n c).refusing = s.refusing := rfl
@[simp] theorem State.endWork_testing (s : State) (u : SeqId) (n : Nat) (c : Code) : (s.endWork u n c).testing = s.testing := rfl
@[simp] theorem State.endWork_cores (s : State) (u : SeqId) (n : Nat) (c : Code) : (s.endWork u n c).cores = s.cores := rfl
@[simp] theorem State.endWork_out (s : State) (u : SeqId) (n : Nat) (c : Code) : (s.endWork u n c).out = s.out := rfl
@[simp] theorem State.endWork_reqs (s : State) (u : SeqId) (n : Nat) (c : Code) : (s.endWork u n c).reqs = s.reqs := rfl
@[simp] theorem State.endWork_nextReq (s : State) (u : SeqId) (n : Nat) (c : Code) : (s.endWork u n c).nextReq = s.nextReq := rfl
@[simp] theorem State.endWork_fnMask (s : State) (u : SeqId) (n : Nat) (c : Code) : (s.endWork u n c).fnMask = s.fnMask := rfl
@[simp] theorem State.endWork_msixWait (s : State) (u : SeqId) (n : Nat) (c : Code) : (s.endWork u n c).msixWait = s.msixWait := rfl
@[simp] theorem State.endWork_cancels (s : State) (u : SeqId) (n : Nat) (c : Code) : (s.endWork u n c).cancels = s.cancels := rfl
@[simp] theorem State.endWork_upds (s : State) (u : SeqId) (n : Nat) (c : Code) : (s.endWork u n c).upds = s.upds := rfl
@[simp] theorem State.endWork_links (s : State) (u : SeqId) (n : Nat) (c : Code) : (s.endWork u n c).links = s.links := rfl
@[simp] theorem State.endWork_dropStep (s : State) (u : SeqId) (n : Nat) (c : Code) : (s.endWork u n c).dropStep = s.dropStep := rfl
@[simp] theorem State.endWork_chGen (s : State) (u : SeqId) (n : Nat) (c : Code) : (s.endWork u n c).chGen = s.chGen := rfl
@[simp] theorem State.endWork_xch (s : State) (u : SeqId) (n : Nat) (c : Code) : (s.endWork u n c).xch = s.xch := rfl
@[simp] theorem State.endWork_rsl (s : State) (u : SeqId) (n : Nat) (c : Code) : (s.endWork u n c).rsl = s.rsl := rfl
@[simp] theorem State.endWork_mgt (s : State) (u : SeqId) (n : Nat) (c : Code) : (s.endWork u n c).mgt = s.mgt := rfl
@[simp] theorem State.endWork_sec (s : State) (u : SeqId) (n : Nat) (c : Code) : (s.endWork u n c).sec = s.sec := rfl
@[simp] theorem State.endWork_rst (s : State) (u : SeqId) (n : Nat) (c : Code) : (s.endWork u n c).rst = s.rst := rfl
@[simp] theorem State.endWork_gate (s : State) (u : SeqId) (n : Nat) (c : Code) : (s.endWork u n c).gate = s.gate := rfl
@[simp] theorem State.endWork_bar4 (s : State) (u : SeqId) (n : Nat) (c : Code) : (s.endWork u n c).bar4 = s.bar4 := rfl
@[simp] theorem State.endWork_freeCtr (s : State) (u : SeqId) (n : Nat) (c : Code) : (s.endWork u n c).freeCtr = s.freeCtr := rfl
@[simp] theorem State.endWork_memGen (s : State) (u : SeqId) (n : Nat) (c : Code) : (s.endWork u n c).memGen = s.memGen := rfl
@[simp] theorem State.endWork_dieCnt (s : State) (u : SeqId) (n : Nat) (c : Code) : (s.endWork u n c).dieCnt = s.dieCnt := rfl
@[simp] theorem State.endWork_scrubAt (s : State) (u : SeqId) (n : Nat) (c : Code) : (s.endWork u n c).scrubAt = s.scrubAt := rfl
@[simp] theorem State.endWork_sliceAt (s : State) (u : SeqId) (n : Nat) (c : Code) : (s.endWork u n c).sliceAt = s.sliceAt := rfl

/-! ### State.addCounts -/

@[simp] theorem State.addCounts_pending (s : State) (u : Nat) (f : Counts → Counts) : (s.addCounts u f).pending = s.pending := rfl
@[simp] theorem State.addCounts_regs (s : State) (u : Nat) (f : Counts → Counts) : (s.addCounts u f).regs = s.regs := rfl
@[simp] theorem State.addCounts_cnt (s : State) (u : Nat) (f : Counts → Counts) : (s.addCounts u f).cnt = s.cnt := rfl
@[simp] theorem State.addCounts_mem (s : State) (u : Nat) (f : Counts → Counts) : (s.addCounts u f).mem = s.mem := rfl
@[simp] theorem State.addCounts_poison (s : State) (u : Nat) (f : Counts → Counts) : (s.addCounts u f).poison = s.poison := rfl
@[simp] theorem State.addCounts_fresh (s : State) (u : Nat) (f : Counts → Counts) : (s.addCounts u f).fresh = s.fresh := rfl
@[simp] theorem State.addCounts_launches (s : State) (u : Nat) (f : Counts → Counts) : (s.addCounts u f).launches = s.launches := rfl
@[simp] theorem State.addCounts_siphons (s : State) (u : Nat) (f : Counts → Counts) : (s.addCounts u f).siphons = s.siphons := rfl
@[simp] theorem State.addCounts_passes (s : State) (u : Nat) (f : Counts → Counts) : (s.addCounts u f).passes = s.passes := rfl
@[simp] theorem State.addCounts_nextPass (s : State) (u : Nat) (f : Counts → Counts) : (s.addCounts u f).nextPass = s.nextPass := rfl
@[simp] theorem State.addCounts_mesh (s : State) (u : Nat) (f : Counts → Counts) : (s.addCounts u f).mesh = s.mesh := rfl
@[simp] theorem State.addCounts_meshTurn (s : State) (u : Nat) (f : Counts → Counts) : (s.addCounts u f).meshTurn = s.meshTurn := rfl
@[simp] theorem State.addCounts_watches (s : State) (u : Nat) (f : Counts → Counts) : (s.addCounts u f).watches = s.watches := rfl
@[simp] theorem State.addCounts_cmds (s : State) (u : Nat) (f : Counts → Counts) : (s.addCounts u f).cmds = s.cmds := rfl
@[simp] theorem State.addCounts_turn (s : State) (u : Nat) (f : Counts → Counts) : (s.addCounts u f).turn = s.turn := rfl
@[simp] theorem State.addCounts_sinceMsg (s : State) (u : Nat) (f : Counts → Counts) : (s.addCounts u f).sinceMsg = s.sinceMsg := rfl
@[simp] theorem State.addCounts_pools (s : State) (u : Nat) (f : Counts → Counts) : (s.addCounts u f).pools = s.pools := rfl
@[simp] theorem State.addCounts_epoch (s : State) (u : Nat) (f : Counts → Counts) : (s.addCounts u f).epoch = s.epoch := rfl
@[simp] theorem State.addCounts_snaps (s : State) (u : Nat) (f : Counts → Counts) : (s.addCounts u f).snaps = s.snaps := rfl
@[simp] theorem State.addCounts_unitEpoch (s : State) (u : Nat) (f : Counts → Counts) : (s.addCounts u f).unitEpoch = s.unitEpoch := rfl
@[simp] theorem State.addCounts_fuses (s : State) (u : Nat) (f : Counts → Counts) : (s.addCounts u f).fuses = s.fuses := rfl
@[simp] theorem State.addCounts_held (s : State) (u : Nat) (f : Counts → Counts) : (s.addCounts u f).held = s.held := rfl
@[simp] theorem State.addCounts_offline (s : State) (u : Nat) (f : Counts → Counts) : (s.addCounts u f).offline = s.offline := rfl
@[simp] theorem State.addCounts_refusing (s : State) (u : Nat) (f : Counts → Counts) : (s.addCounts u f).refusing = s.refusing := rfl
@[simp] theorem State.addCounts_testing (s : State) (u : Nat) (f : Counts → Counts) : (s.addCounts u f).testing = s.testing := rfl
@[simp] theorem State.addCounts_cores (s : State) (u : Nat) (f : Counts → Counts) : (s.addCounts u f).cores = s.cores := rfl
@[simp] theorem State.addCounts_out (s : State) (u : Nat) (f : Counts → Counts) : (s.addCounts u f).out = s.out := rfl
@[simp] theorem State.addCounts_reqs (s : State) (u : Nat) (f : Counts → Counts) : (s.addCounts u f).reqs = s.reqs := rfl
@[simp] theorem State.addCounts_nextReq (s : State) (u : Nat) (f : Counts → Counts) : (s.addCounts u f).nextReq = s.nextReq := rfl
@[simp] theorem State.addCounts_fnMask (s : State) (u : Nat) (f : Counts → Counts) : (s.addCounts u f).fnMask = s.fnMask := rfl
@[simp] theorem State.addCounts_msixWait (s : State) (u : Nat) (f : Counts → Counts) : (s.addCounts u f).msixWait = s.msixWait := rfl
@[simp] theorem State.addCounts_cancels (s : State) (u : Nat) (f : Counts → Counts) : (s.addCounts u f).cancels = s.cancels := rfl
@[simp] theorem State.addCounts_upds (s : State) (u : Nat) (f : Counts → Counts) : (s.addCounts u f).upds = s.upds := rfl
@[simp] theorem State.addCounts_links (s : State) (u : Nat) (f : Counts → Counts) : (s.addCounts u f).links = s.links := rfl
@[simp] theorem State.addCounts_dropStep (s : State) (u : Nat) (f : Counts → Counts) : (s.addCounts u f).dropStep = s.dropStep := rfl
@[simp] theorem State.addCounts_chGen (s : State) (u : Nat) (f : Counts → Counts) : (s.addCounts u f).chGen = s.chGen := rfl
@[simp] theorem State.addCounts_xch (s : State) (u : Nat) (f : Counts → Counts) : (s.addCounts u f).xch = s.xch := rfl
@[simp] theorem State.addCounts_rsl (s : State) (u : Nat) (f : Counts → Counts) : (s.addCounts u f).rsl = s.rsl := rfl
@[simp] theorem State.addCounts_mgt (s : State) (u : Nat) (f : Counts → Counts) : (s.addCounts u f).mgt = s.mgt := rfl
@[simp] theorem State.addCounts_sec (s : State) (u : Nat) (f : Counts → Counts) : (s.addCounts u f).sec = s.sec := rfl
@[simp] theorem State.addCounts_rst (s : State) (u : Nat) (f : Counts → Counts) : (s.addCounts u f).rst = s.rst := rfl
@[simp] theorem State.addCounts_gate (s : State) (u : Nat) (f : Counts → Counts) : (s.addCounts u f).gate = s.gate := rfl
@[simp] theorem State.addCounts_bar4 (s : State) (u : Nat) (f : Counts → Counts) : (s.addCounts u f).bar4 = s.bar4 := rfl
@[simp] theorem State.addCounts_freeCtr (s : State) (u : Nat) (f : Counts → Counts) : (s.addCounts u f).freeCtr = s.freeCtr := rfl
@[simp] theorem State.addCounts_memGen (s : State) (u : Nat) (f : Counts → Counts) : (s.addCounts u f).memGen = s.memGen := rfl
@[simp] theorem State.addCounts_dieCnt (s : State) (u : Nat) (f : Counts → Counts) : (s.addCounts u f).dieCnt = s.dieCnt := rfl
@[simp] theorem State.addCounts_scrubAt (s : State) (u : Nat) (f : Counts → Counts) : (s.addCounts u f).scrubAt = s.scrubAt := rfl
@[simp] theorem State.addCounts_sliceAt (s : State) (u : Nat) (f : Counts → Counts) : (s.addCounts u f).sliceAt = s.sliceAt := rfl

/-! ### State.onWork -/

@[simp] theorem State.onWork_pending (s : State) (u : SeqId) (n : Nat) (f : Work → Work) : (s.onWork u n f).pending = s.pending := rfl
@[simp] theorem State.onWork_regs (s : State) (u : SeqId) (n : Nat) (f : Work → Work) : (s.onWork u n f).regs = s.regs := rfl
@[simp] theorem State.onWork_cnt (s : State) (u : SeqId) (n : Nat) (f : Work → Work) : (s.onWork u n f).cnt = s.cnt := rfl
@[simp] theorem State.onWork_mem (s : State) (u : SeqId) (n : Nat) (f : Work → Work) : (s.onWork u n f).mem = s.mem := rfl
@[simp] theorem State.onWork_poison (s : State) (u : SeqId) (n : Nat) (f : Work → Work) : (s.onWork u n f).poison = s.poison := rfl
@[simp] theorem State.onWork_fresh (s : State) (u : SeqId) (n : Nat) (f : Work → Work) : (s.onWork u n f).fresh = s.fresh := rfl
@[simp] theorem State.onWork_launches (s : State) (u : SeqId) (n : Nat) (f : Work → Work) : (s.onWork u n f).launches = s.launches := rfl
@[simp] theorem State.onWork_siphons (s : State) (u : SeqId) (n : Nat) (f : Work → Work) : (s.onWork u n f).siphons = s.siphons := rfl
@[simp] theorem State.onWork_passes (s : State) (u : SeqId) (n : Nat) (f : Work → Work) : (s.onWork u n f).passes = s.passes := rfl
@[simp] theorem State.onWork_nextPass (s : State) (u : SeqId) (n : Nat) (f : Work → Work) : (s.onWork u n f).nextPass = s.nextPass := rfl
@[simp] theorem State.onWork_mesh (s : State) (u : SeqId) (n : Nat) (f : Work → Work) : (s.onWork u n f).mesh = s.mesh := rfl
@[simp] theorem State.onWork_meshTurn (s : State) (u : SeqId) (n : Nat) (f : Work → Work) : (s.onWork u n f).meshTurn = s.meshTurn := rfl
@[simp] theorem State.onWork_watches (s : State) (u : SeqId) (n : Nat) (f : Work → Work) : (s.onWork u n f).watches = s.watches := rfl
@[simp] theorem State.onWork_cmds (s : State) (u : SeqId) (n : Nat) (f : Work → Work) : (s.onWork u n f).cmds = s.cmds := rfl
@[simp] theorem State.onWork_turn (s : State) (u : SeqId) (n : Nat) (f : Work → Work) : (s.onWork u n f).turn = s.turn := rfl
@[simp] theorem State.onWork_sinceMsg (s : State) (u : SeqId) (n : Nat) (f : Work → Work) : (s.onWork u n f).sinceMsg = s.sinceMsg := rfl
@[simp] theorem State.onWork_pools (s : State) (u : SeqId) (n : Nat) (f : Work → Work) : (s.onWork u n f).pools = s.pools := rfl
@[simp] theorem State.onWork_epoch (s : State) (u : SeqId) (n : Nat) (f : Work → Work) : (s.onWork u n f).epoch = s.epoch := rfl
@[simp] theorem State.onWork_snaps (s : State) (u : SeqId) (n : Nat) (f : Work → Work) : (s.onWork u n f).snaps = s.snaps := rfl
@[simp] theorem State.onWork_unitEpoch (s : State) (u : SeqId) (n : Nat) (f : Work → Work) : (s.onWork u n f).unitEpoch = s.unitEpoch := rfl
@[simp] theorem State.onWork_fuses (s : State) (u : SeqId) (n : Nat) (f : Work → Work) : (s.onWork u n f).fuses = s.fuses := rfl
@[simp] theorem State.onWork_held (s : State) (u : SeqId) (n : Nat) (f : Work → Work) : (s.onWork u n f).held = s.held := rfl
@[simp] theorem State.onWork_offline (s : State) (u : SeqId) (n : Nat) (f : Work → Work) : (s.onWork u n f).offline = s.offline := rfl
@[simp] theorem State.onWork_refusing (s : State) (u : SeqId) (n : Nat) (f : Work → Work) : (s.onWork u n f).refusing = s.refusing := rfl
@[simp] theorem State.onWork_testing (s : State) (u : SeqId) (n : Nat) (f : Work → Work) : (s.onWork u n f).testing = s.testing := rfl
@[simp] theorem State.onWork_cores (s : State) (u : SeqId) (n : Nat) (f : Work → Work) : (s.onWork u n f).cores = s.cores := rfl
@[simp] theorem State.onWork_out (s : State) (u : SeqId) (n : Nat) (f : Work → Work) : (s.onWork u n f).out = s.out := rfl
@[simp] theorem State.onWork_reqs (s : State) (u : SeqId) (n : Nat) (f : Work → Work) : (s.onWork u n f).reqs = s.reqs := rfl
@[simp] theorem State.onWork_nextReq (s : State) (u : SeqId) (n : Nat) (f : Work → Work) : (s.onWork u n f).nextReq = s.nextReq := rfl
@[simp] theorem State.onWork_fnMask (s : State) (u : SeqId) (n : Nat) (f : Work → Work) : (s.onWork u n f).fnMask = s.fnMask := rfl
@[simp] theorem State.onWork_msixWait (s : State) (u : SeqId) (n : Nat) (f : Work → Work) : (s.onWork u n f).msixWait = s.msixWait := rfl
@[simp] theorem State.onWork_cancels (s : State) (u : SeqId) (n : Nat) (f : Work → Work) : (s.onWork u n f).cancels = s.cancels := rfl
@[simp] theorem State.onWork_upds (s : State) (u : SeqId) (n : Nat) (f : Work → Work) : (s.onWork u n f).upds = s.upds := rfl
@[simp] theorem State.onWork_links (s : State) (u : SeqId) (n : Nat) (f : Work → Work) : (s.onWork u n f).links = s.links := rfl
@[simp] theorem State.onWork_dropStep (s : State) (u : SeqId) (n : Nat) (f : Work → Work) : (s.onWork u n f).dropStep = s.dropStep := rfl
@[simp] theorem State.onWork_chGen (s : State) (u : SeqId) (n : Nat) (f : Work → Work) : (s.onWork u n f).chGen = s.chGen := rfl
@[simp] theorem State.onWork_xch (s : State) (u : SeqId) (n : Nat) (f : Work → Work) : (s.onWork u n f).xch = s.xch := rfl
@[simp] theorem State.onWork_rsl (s : State) (u : SeqId) (n : Nat) (f : Work → Work) : (s.onWork u n f).rsl = s.rsl := rfl
@[simp] theorem State.onWork_mgt (s : State) (u : SeqId) (n : Nat) (f : Work → Work) : (s.onWork u n f).mgt = s.mgt := rfl
@[simp] theorem State.onWork_sec (s : State) (u : SeqId) (n : Nat) (f : Work → Work) : (s.onWork u n f).sec = s.sec := rfl
@[simp] theorem State.onWork_rst (s : State) (u : SeqId) (n : Nat) (f : Work → Work) : (s.onWork u n f).rst = s.rst := rfl
@[simp] theorem State.onWork_gate (s : State) (u : SeqId) (n : Nat) (f : Work → Work) : (s.onWork u n f).gate = s.gate := rfl
@[simp] theorem State.onWork_bar4 (s : State) (u : SeqId) (n : Nat) (f : Work → Work) : (s.onWork u n f).bar4 = s.bar4 := rfl
@[simp] theorem State.onWork_freeCtr (s : State) (u : SeqId) (n : Nat) (f : Work → Work) : (s.onWork u n f).freeCtr = s.freeCtr := rfl
@[simp] theorem State.onWork_memGen (s : State) (u : SeqId) (n : Nat) (f : Work → Work) : (s.onWork u n f).memGen = s.memGen := rfl
@[simp] theorem State.onWork_dieCnt (s : State) (u : SeqId) (n : Nat) (f : Work → Work) : (s.onWork u n f).dieCnt = s.dieCnt := rfl
@[simp] theorem State.onWork_scrubAt (s : State) (u : SeqId) (n : Nat) (f : Work → Work) : (s.onWork u n f).scrubAt = s.scrubAt := rfl
@[simp] theorem State.onWork_sliceAt (s : State) (u : SeqId) (n : Nat) (f : Work → Work) : (s.onWork u n f).sliceAt = s.sliceAt := rfl

/-! ### State.startCore -/

@[simp] theorem State.startCore_pending (s : State) (l : Launch) : (s.startCore l).pending = s.pending := rfl
@[simp] theorem State.startCore_regs (s : State) (l : Launch) : (s.startCore l).regs = s.regs := rfl
@[simp] theorem State.startCore_cnt (s : State) (l : Launch) : (s.startCore l).cnt = s.cnt := rfl
@[simp] theorem State.startCore_mem (s : State) (l : Launch) : (s.startCore l).mem = s.mem := rfl
@[simp] theorem State.startCore_poison (s : State) (l : Launch) : (s.startCore l).poison = s.poison := rfl
@[simp] theorem State.startCore_fresh (s : State) (l : Launch) : (s.startCore l).fresh = s.fresh := rfl
@[simp] theorem State.startCore_launches (s : State) (l : Launch) : (s.startCore l).launches = s.launches := rfl
@[simp] theorem State.startCore_siphons (s : State) (l : Launch) : (s.startCore l).siphons = s.siphons := rfl
@[simp] theorem State.startCore_passes (s : State) (l : Launch) : (s.startCore l).passes = s.passes := rfl
@[simp] theorem State.startCore_nextPass (s : State) (l : Launch) : (s.startCore l).nextPass = s.nextPass := rfl
@[simp] theorem State.startCore_mesh (s : State) (l : Launch) : (s.startCore l).mesh = s.mesh := rfl
@[simp] theorem State.startCore_meshTurn (s : State) (l : Launch) : (s.startCore l).meshTurn = s.meshTurn := rfl
@[simp] theorem State.startCore_watches (s : State) (l : Launch) : (s.startCore l).watches = s.watches := rfl
@[simp] theorem State.startCore_cmds (s : State) (l : Launch) : (s.startCore l).cmds = s.cmds := rfl
@[simp] theorem State.startCore_turn (s : State) (l : Launch) : (s.startCore l).turn = s.turn := rfl
@[simp] theorem State.startCore_sinceMsg (s : State) (l : Launch) : (s.startCore l).sinceMsg = s.sinceMsg := rfl
@[simp] theorem State.startCore_pools (s : State) (l : Launch) : (s.startCore l).pools = s.pools := rfl
@[simp] theorem State.startCore_epoch (s : State) (l : Launch) : (s.startCore l).epoch = s.epoch := rfl
@[simp] theorem State.startCore_snaps (s : State) (l : Launch) : (s.startCore l).snaps = s.snaps := rfl
@[simp] theorem State.startCore_unitEpoch (s : State) (l : Launch) : (s.startCore l).unitEpoch = s.unitEpoch := rfl
@[simp] theorem State.startCore_fuses (s : State) (l : Launch) : (s.startCore l).fuses = s.fuses := rfl
@[simp] theorem State.startCore_held (s : State) (l : Launch) : (s.startCore l).held = s.held := rfl
@[simp] theorem State.startCore_offline (s : State) (l : Launch) : (s.startCore l).offline = s.offline := rfl
@[simp] theorem State.startCore_refusing (s : State) (l : Launch) : (s.startCore l).refusing = s.refusing := rfl
@[simp] theorem State.startCore_testing (s : State) (l : Launch) : (s.startCore l).testing = s.testing := rfl
@[simp] theorem State.startCore_cores (s : State) (l : Launch) : (s.startCore l).cores = s.cores := rfl
@[simp] theorem State.startCore_out (s : State) (l : Launch) : (s.startCore l).out = s.out := rfl
@[simp] theorem State.startCore_reqs (s : State) (l : Launch) : (s.startCore l).reqs = s.reqs := rfl
@[simp] theorem State.startCore_nextReq (s : State) (l : Launch) : (s.startCore l).nextReq = s.nextReq := rfl
@[simp] theorem State.startCore_fnMask (s : State) (l : Launch) : (s.startCore l).fnMask = s.fnMask := rfl
@[simp] theorem State.startCore_msixWait (s : State) (l : Launch) : (s.startCore l).msixWait = s.msixWait := rfl
@[simp] theorem State.startCore_cancels (s : State) (l : Launch) : (s.startCore l).cancels = s.cancels := rfl
@[simp] theorem State.startCore_upds (s : State) (l : Launch) : (s.startCore l).upds = s.upds := rfl
@[simp] theorem State.startCore_links (s : State) (l : Launch) : (s.startCore l).links = s.links := rfl
@[simp] theorem State.startCore_dropStep (s : State) (l : Launch) : (s.startCore l).dropStep = s.dropStep := rfl
@[simp] theorem State.startCore_chGen (s : State) (l : Launch) : (s.startCore l).chGen = s.chGen := rfl
@[simp] theorem State.startCore_xch (s : State) (l : Launch) : (s.startCore l).xch = s.xch := rfl
@[simp] theorem State.startCore_rsl (s : State) (l : Launch) : (s.startCore l).rsl = s.rsl := rfl
@[simp] theorem State.startCore_mgt (s : State) (l : Launch) : (s.startCore l).mgt = s.mgt := rfl
@[simp] theorem State.startCore_sec (s : State) (l : Launch) : (s.startCore l).sec = s.sec := rfl
@[simp] theorem State.startCore_rst (s : State) (l : Launch) : (s.startCore l).rst = s.rst := rfl
@[simp] theorem State.startCore_gate (s : State) (l : Launch) : (s.startCore l).gate = s.gate := rfl
@[simp] theorem State.startCore_bar4 (s : State) (l : Launch) : (s.startCore l).bar4 = s.bar4 := rfl
@[simp] theorem State.startCore_freeCtr (s : State) (l : Launch) : (s.startCore l).freeCtr = s.freeCtr := rfl
@[simp] theorem State.startCore_memGen (s : State) (l : Launch) : (s.startCore l).memGen = s.memGen := rfl
@[simp] theorem State.startCore_dieCnt (s : State) (l : Launch) : (s.startCore l).dieCnt = s.dieCnt := rfl
@[simp] theorem State.startCore_scrubAt (s : State) (l : Launch) : (s.startCore l).scrubAt = s.scrubAt := rfl
@[simp] theorem State.startCore_sliceAt (s : State) (l : Launch) : (s.startCore l).sliceAt = s.sliceAt := rfl

/-! ### State.onSiph -/

@[simp] theorem State.onSiph_pending (s : State) (n : Nat) (f : Siphon → Siphon) : (s.onSiph n f).pending = s.pending := rfl
@[simp] theorem State.onSiph_regs (s : State) (n : Nat) (f : Siphon → Siphon) : (s.onSiph n f).regs = s.regs := rfl
@[simp] theorem State.onSiph_cnt (s : State) (n : Nat) (f : Siphon → Siphon) : (s.onSiph n f).cnt = s.cnt := rfl
@[simp] theorem State.onSiph_mem (s : State) (n : Nat) (f : Siphon → Siphon) : (s.onSiph n f).mem = s.mem := rfl
@[simp] theorem State.onSiph_poison (s : State) (n : Nat) (f : Siphon → Siphon) : (s.onSiph n f).poison = s.poison := rfl
@[simp] theorem State.onSiph_fresh (s : State) (n : Nat) (f : Siphon → Siphon) : (s.onSiph n f).fresh = s.fresh := rfl
@[simp] theorem State.onSiph_seqs (s : State) (n : Nat) (f : Siphon → Siphon) : (s.onSiph n f).seqs = s.seqs := rfl
@[simp] theorem State.onSiph_launches (s : State) (n : Nat) (f : Siphon → Siphon) : (s.onSiph n f).launches = s.launches := rfl
@[simp] theorem State.onSiph_passes (s : State) (n : Nat) (f : Siphon → Siphon) : (s.onSiph n f).passes = s.passes := rfl
@[simp] theorem State.onSiph_nextPass (s : State) (n : Nat) (f : Siphon → Siphon) : (s.onSiph n f).nextPass = s.nextPass := rfl
@[simp] theorem State.onSiph_mesh (s : State) (n : Nat) (f : Siphon → Siphon) : (s.onSiph n f).mesh = s.mesh := rfl
@[simp] theorem State.onSiph_meshTurn (s : State) (n : Nat) (f : Siphon → Siphon) : (s.onSiph n f).meshTurn = s.meshTurn := rfl
@[simp] theorem State.onSiph_watches (s : State) (n : Nat) (f : Siphon → Siphon) : (s.onSiph n f).watches = s.watches := rfl
@[simp] theorem State.onSiph_cmds (s : State) (n : Nat) (f : Siphon → Siphon) : (s.onSiph n f).cmds = s.cmds := rfl
@[simp] theorem State.onSiph_turn (s : State) (n : Nat) (f : Siphon → Siphon) : (s.onSiph n f).turn = s.turn := rfl
@[simp] theorem State.onSiph_sinceMsg (s : State) (n : Nat) (f : Siphon → Siphon) : (s.onSiph n f).sinceMsg = s.sinceMsg := rfl
@[simp] theorem State.onSiph_pools (s : State) (n : Nat) (f : Siphon → Siphon) : (s.onSiph n f).pools = s.pools := rfl
@[simp] theorem State.onSiph_epoch (s : State) (n : Nat) (f : Siphon → Siphon) : (s.onSiph n f).epoch = s.epoch := rfl
@[simp] theorem State.onSiph_snaps (s : State) (n : Nat) (f : Siphon → Siphon) : (s.onSiph n f).snaps = s.snaps := rfl
@[simp] theorem State.onSiph_unitEpoch (s : State) (n : Nat) (f : Siphon → Siphon) : (s.onSiph n f).unitEpoch = s.unitEpoch := rfl
@[simp] theorem State.onSiph_fuses (s : State) (n : Nat) (f : Siphon → Siphon) : (s.onSiph n f).fuses = s.fuses := rfl
@[simp] theorem State.onSiph_held (s : State) (n : Nat) (f : Siphon → Siphon) : (s.onSiph n f).held = s.held := rfl
@[simp] theorem State.onSiph_offline (s : State) (n : Nat) (f : Siphon → Siphon) : (s.onSiph n f).offline = s.offline := rfl
@[simp] theorem State.onSiph_refusing (s : State) (n : Nat) (f : Siphon → Siphon) : (s.onSiph n f).refusing = s.refusing := rfl
@[simp] theorem State.onSiph_testing (s : State) (n : Nat) (f : Siphon → Siphon) : (s.onSiph n f).testing = s.testing := rfl
@[simp] theorem State.onSiph_cores (s : State) (n : Nat) (f : Siphon → Siphon) : (s.onSiph n f).cores = s.cores := rfl
@[simp] theorem State.onSiph_out (s : State) (n : Nat) (f : Siphon → Siphon) : (s.onSiph n f).out = s.out := rfl
@[simp] theorem State.onSiph_reqs (s : State) (n : Nat) (f : Siphon → Siphon) : (s.onSiph n f).reqs = s.reqs := rfl
@[simp] theorem State.onSiph_nextReq (s : State) (n : Nat) (f : Siphon → Siphon) : (s.onSiph n f).nextReq = s.nextReq := rfl
@[simp] theorem State.onSiph_fnMask (s : State) (n : Nat) (f : Siphon → Siphon) : (s.onSiph n f).fnMask = s.fnMask := rfl
@[simp] theorem State.onSiph_msixWait (s : State) (n : Nat) (f : Siphon → Siphon) : (s.onSiph n f).msixWait = s.msixWait := rfl
@[simp] theorem State.onSiph_cancels (s : State) (n : Nat) (f : Siphon → Siphon) : (s.onSiph n f).cancels = s.cancels := rfl
@[simp] theorem State.onSiph_upds (s : State) (n : Nat) (f : Siphon → Siphon) : (s.onSiph n f).upds = s.upds := rfl
@[simp] theorem State.onSiph_links (s : State) (n : Nat) (f : Siphon → Siphon) : (s.onSiph n f).links = s.links := rfl
@[simp] theorem State.onSiph_dropStep (s : State) (n : Nat) (f : Siphon → Siphon) : (s.onSiph n f).dropStep = s.dropStep := rfl
@[simp] theorem State.onSiph_chGen (s : State) (n : Nat) (f : Siphon → Siphon) : (s.onSiph n f).chGen = s.chGen := rfl
@[simp] theorem State.onSiph_xch (s : State) (n : Nat) (f : Siphon → Siphon) : (s.onSiph n f).xch = s.xch := rfl
@[simp] theorem State.onSiph_rsl (s : State) (n : Nat) (f : Siphon → Siphon) : (s.onSiph n f).rsl = s.rsl := rfl
@[simp] theorem State.onSiph_mgt (s : State) (n : Nat) (f : Siphon → Siphon) : (s.onSiph n f).mgt = s.mgt := rfl
@[simp] theorem State.onSiph_sec (s : State) (n : Nat) (f : Siphon → Siphon) : (s.onSiph n f).sec = s.sec := rfl
@[simp] theorem State.onSiph_rst (s : State) (n : Nat) (f : Siphon → Siphon) : (s.onSiph n f).rst = s.rst := rfl
@[simp] theorem State.onSiph_gate (s : State) (n : Nat) (f : Siphon → Siphon) : (s.onSiph n f).gate = s.gate := rfl
@[simp] theorem State.onSiph_bar4 (s : State) (n : Nat) (f : Siphon → Siphon) : (s.onSiph n f).bar4 = s.bar4 := rfl
@[simp] theorem State.onSiph_freeCtr (s : State) (n : Nat) (f : Siphon → Siphon) : (s.onSiph n f).freeCtr = s.freeCtr := rfl
@[simp] theorem State.onSiph_memGen (s : State) (n : Nat) (f : Siphon → Siphon) : (s.onSiph n f).memGen = s.memGen := rfl
@[simp] theorem State.onSiph_dieCnt (s : State) (n : Nat) (f : Siphon → Siphon) : (s.onSiph n f).dieCnt = s.dieCnt := rfl
@[simp] theorem State.onSiph_scrubAt (s : State) (n : Nat) (f : Siphon → Siphon) : (s.onSiph n f).scrubAt = s.scrubAt := rfl
@[simp] theorem State.onSiph_sliceAt (s : State) (n : Nat) (f : Siphon → Siphon) : (s.onSiph n f).sliceAt = s.sliceAt := rfl

/-! ### State.setXfer -/

@[simp] theorem State.setXfer_pending (s : State) (n : Nat) (t : Transfer) : (s.setXfer n t).pending = s.pending := rfl
@[simp] theorem State.setXfer_regs (s : State) (n : Nat) (t : Transfer) : (s.setXfer n t).regs = s.regs := rfl
@[simp] theorem State.setXfer_cnt (s : State) (n : Nat) (t : Transfer) : (s.setXfer n t).cnt = s.cnt := rfl
@[simp] theorem State.setXfer_mem (s : State) (n : Nat) (t : Transfer) : (s.setXfer n t).mem = s.mem := rfl
@[simp] theorem State.setXfer_poison (s : State) (n : Nat) (t : Transfer) : (s.setXfer n t).poison = s.poison := rfl
@[simp] theorem State.setXfer_fresh (s : State) (n : Nat) (t : Transfer) : (s.setXfer n t).fresh = s.fresh := rfl
@[simp] theorem State.setXfer_seqs (s : State) (n : Nat) (t : Transfer) : (s.setXfer n t).seqs = s.seqs := rfl
@[simp] theorem State.setXfer_launches (s : State) (n : Nat) (t : Transfer) : (s.setXfer n t).launches = s.launches := rfl
@[simp] theorem State.setXfer_passes (s : State) (n : Nat) (t : Transfer) : (s.setXfer n t).passes = s.passes := rfl
@[simp] theorem State.setXfer_nextPass (s : State) (n : Nat) (t : Transfer) : (s.setXfer n t).nextPass = s.nextPass := rfl
@[simp] theorem State.setXfer_mesh (s : State) (n : Nat) (t : Transfer) : (s.setXfer n t).mesh = s.mesh := rfl
@[simp] theorem State.setXfer_meshTurn (s : State) (n : Nat) (t : Transfer) : (s.setXfer n t).meshTurn = s.meshTurn := rfl
@[simp] theorem State.setXfer_watches (s : State) (n : Nat) (t : Transfer) : (s.setXfer n t).watches = s.watches := rfl
@[simp] theorem State.setXfer_cmds (s : State) (n : Nat) (t : Transfer) : (s.setXfer n t).cmds = s.cmds := rfl
@[simp] theorem State.setXfer_turn (s : State) (n : Nat) (t : Transfer) : (s.setXfer n t).turn = s.turn := rfl
@[simp] theorem State.setXfer_sinceMsg (s : State) (n : Nat) (t : Transfer) : (s.setXfer n t).sinceMsg = s.sinceMsg := rfl
@[simp] theorem State.setXfer_pools (s : State) (n : Nat) (t : Transfer) : (s.setXfer n t).pools = s.pools := rfl
@[simp] theorem State.setXfer_epoch (s : State) (n : Nat) (t : Transfer) : (s.setXfer n t).epoch = s.epoch := rfl
@[simp] theorem State.setXfer_snaps (s : State) (n : Nat) (t : Transfer) : (s.setXfer n t).snaps = s.snaps := rfl
@[simp] theorem State.setXfer_unitEpoch (s : State) (n : Nat) (t : Transfer) : (s.setXfer n t).unitEpoch = s.unitEpoch := rfl
@[simp] theorem State.setXfer_fuses (s : State) (n : Nat) (t : Transfer) : (s.setXfer n t).fuses = s.fuses := rfl
@[simp] theorem State.setXfer_held (s : State) (n : Nat) (t : Transfer) : (s.setXfer n t).held = s.held := rfl
@[simp] theorem State.setXfer_offline (s : State) (n : Nat) (t : Transfer) : (s.setXfer n t).offline = s.offline := rfl
@[simp] theorem State.setXfer_refusing (s : State) (n : Nat) (t : Transfer) : (s.setXfer n t).refusing = s.refusing := rfl
@[simp] theorem State.setXfer_testing (s : State) (n : Nat) (t : Transfer) : (s.setXfer n t).testing = s.testing := rfl
@[simp] theorem State.setXfer_cores (s : State) (n : Nat) (t : Transfer) : (s.setXfer n t).cores = s.cores := rfl
@[simp] theorem State.setXfer_out (s : State) (n : Nat) (t : Transfer) : (s.setXfer n t).out = s.out := rfl
@[simp] theorem State.setXfer_reqs (s : State) (n : Nat) (t : Transfer) : (s.setXfer n t).reqs = s.reqs := rfl
@[simp] theorem State.setXfer_nextReq (s : State) (n : Nat) (t : Transfer) : (s.setXfer n t).nextReq = s.nextReq := rfl
@[simp] theorem State.setXfer_fnMask (s : State) (n : Nat) (t : Transfer) : (s.setXfer n t).fnMask = s.fnMask := rfl
@[simp] theorem State.setXfer_msixWait (s : State) (n : Nat) (t : Transfer) : (s.setXfer n t).msixWait = s.msixWait := rfl
@[simp] theorem State.setXfer_cancels (s : State) (n : Nat) (t : Transfer) : (s.setXfer n t).cancels = s.cancels := rfl
@[simp] theorem State.setXfer_upds (s : State) (n : Nat) (t : Transfer) : (s.setXfer n t).upds = s.upds := rfl
@[simp] theorem State.setXfer_links (s : State) (n : Nat) (t : Transfer) : (s.setXfer n t).links = s.links := rfl
@[simp] theorem State.setXfer_dropStep (s : State) (n : Nat) (t : Transfer) : (s.setXfer n t).dropStep = s.dropStep := rfl
@[simp] theorem State.setXfer_chGen (s : State) (n : Nat) (t : Transfer) : (s.setXfer n t).chGen = s.chGen := rfl
@[simp] theorem State.setXfer_xch (s : State) (n : Nat) (t : Transfer) : (s.setXfer n t).xch = s.xch := rfl
@[simp] theorem State.setXfer_rsl (s : State) (n : Nat) (t : Transfer) : (s.setXfer n t).rsl = s.rsl := rfl
@[simp] theorem State.setXfer_mgt (s : State) (n : Nat) (t : Transfer) : (s.setXfer n t).mgt = s.mgt := rfl
@[simp] theorem State.setXfer_sec (s : State) (n : Nat) (t : Transfer) : (s.setXfer n t).sec = s.sec := rfl
@[simp] theorem State.setXfer_rst (s : State) (n : Nat) (t : Transfer) : (s.setXfer n t).rst = s.rst := rfl
@[simp] theorem State.setXfer_gate (s : State) (n : Nat) (t : Transfer) : (s.setXfer n t).gate = s.gate := rfl
@[simp] theorem State.setXfer_bar4 (s : State) (n : Nat) (t : Transfer) : (s.setXfer n t).bar4 = s.bar4 := rfl
@[simp] theorem State.setXfer_freeCtr (s : State) (n : Nat) (t : Transfer) : (s.setXfer n t).freeCtr = s.freeCtr := rfl
@[simp] theorem State.setXfer_memGen (s : State) (n : Nat) (t : Transfer) : (s.setXfer n t).memGen = s.memGen := rfl
@[simp] theorem State.setXfer_dieCnt (s : State) (n : Nat) (t : Transfer) : (s.setXfer n t).dieCnt = s.dieCnt := rfl
@[simp] theorem State.setXfer_scrubAt (s : State) (n : Nat) (t : Transfer) : (s.setXfer n t).scrubAt = s.scrubAt := rfl
@[simp] theorem State.setXfer_sliceAt (s : State) (n : Nat) (t : Transfer) : (s.setXfer n t).sliceAt = s.sliceAt := rfl

/-! ### State.addTransfer -/

@[simp] theorem State.addTransfer_pending (s : State) (n : Nat) (t : Transfer) : (s.addTransfer n t).pending = s.pending := rfl
@[simp] theorem State.addTransfer_regs (s : State) (n : Nat) (t : Transfer) : (s.addTransfer n t).regs = s.regs := rfl
@[simp] theorem State.addTransfer_cnt (s : State) (n : Nat) (t : Transfer) : (s.addTransfer n t).cnt = s.cnt := rfl
@[simp] theorem State.addTransfer_mem (s : State) (n : Nat) (t : Transfer) : (s.addTransfer n t).mem = s.mem := rfl
@[simp] theorem State.addTransfer_poison (s : State) (n : Nat) (t : Transfer) : (s.addTransfer n t).poison = s.poison := rfl
@[simp] theorem State.addTransfer_fresh (s : State) (n : Nat) (t : Transfer) : (s.addTransfer n t).fresh = s.fresh := rfl
@[simp] theorem State.addTransfer_seqs (s : State) (n : Nat) (t : Transfer) : (s.addTransfer n t).seqs = s.seqs := rfl
@[simp] theorem State.addTransfer_launches (s : State) (n : Nat) (t : Transfer) : (s.addTransfer n t).launches = s.launches := rfl
@[simp] theorem State.addTransfer_passes (s : State) (n : Nat) (t : Transfer) : (s.addTransfer n t).passes = s.passes := rfl
@[simp] theorem State.addTransfer_nextPass (s : State) (n : Nat) (t : Transfer) : (s.addTransfer n t).nextPass = s.nextPass := rfl
@[simp] theorem State.addTransfer_mesh (s : State) (n : Nat) (t : Transfer) : (s.addTransfer n t).mesh = s.mesh := rfl
@[simp] theorem State.addTransfer_meshTurn (s : State) (n : Nat) (t : Transfer) : (s.addTransfer n t).meshTurn = s.meshTurn := rfl
@[simp] theorem State.addTransfer_watches (s : State) (n : Nat) (t : Transfer) : (s.addTransfer n t).watches = s.watches := rfl
@[simp] theorem State.addTransfer_cmds (s : State) (n : Nat) (t : Transfer) : (s.addTransfer n t).cmds = s.cmds := rfl
@[simp] theorem State.addTransfer_turn (s : State) (n : Nat) (t : Transfer) : (s.addTransfer n t).turn = s.turn := rfl
@[simp] theorem State.addTransfer_sinceMsg (s : State) (n : Nat) (t : Transfer) : (s.addTransfer n t).sinceMsg = s.sinceMsg := rfl
@[simp] theorem State.addTransfer_pools (s : State) (n : Nat) (t : Transfer) : (s.addTransfer n t).pools = s.pools := rfl
@[simp] theorem State.addTransfer_epoch (s : State) (n : Nat) (t : Transfer) : (s.addTransfer n t).epoch = s.epoch := rfl
@[simp] theorem State.addTransfer_snaps (s : State) (n : Nat) (t : Transfer) : (s.addTransfer n t).snaps = s.snaps := rfl
@[simp] theorem State.addTransfer_unitEpoch (s : State) (n : Nat) (t : Transfer) : (s.addTransfer n t).unitEpoch = s.unitEpoch := rfl
@[simp] theorem State.addTransfer_fuses (s : State) (n : Nat) (t : Transfer) : (s.addTransfer n t).fuses = s.fuses := rfl
@[simp] theorem State.addTransfer_held (s : State) (n : Nat) (t : Transfer) : (s.addTransfer n t).held = s.held := rfl
@[simp] theorem State.addTransfer_offline (s : State) (n : Nat) (t : Transfer) : (s.addTransfer n t).offline = s.offline := rfl
@[simp] theorem State.addTransfer_refusing (s : State) (n : Nat) (t : Transfer) : (s.addTransfer n t).refusing = s.refusing := rfl
@[simp] theorem State.addTransfer_testing (s : State) (n : Nat) (t : Transfer) : (s.addTransfer n t).testing = s.testing := rfl
@[simp] theorem State.addTransfer_cores (s : State) (n : Nat) (t : Transfer) : (s.addTransfer n t).cores = s.cores := rfl
@[simp] theorem State.addTransfer_out (s : State) (n : Nat) (t : Transfer) : (s.addTransfer n t).out = s.out := rfl
@[simp] theorem State.addTransfer_reqs (s : State) (n : Nat) (t : Transfer) : (s.addTransfer n t).reqs = s.reqs := rfl
@[simp] theorem State.addTransfer_nextReq (s : State) (n : Nat) (t : Transfer) : (s.addTransfer n t).nextReq = s.nextReq := rfl
@[simp] theorem State.addTransfer_fnMask (s : State) (n : Nat) (t : Transfer) : (s.addTransfer n t).fnMask = s.fnMask := rfl
@[simp] theorem State.addTransfer_msixWait (s : State) (n : Nat) (t : Transfer) : (s.addTransfer n t).msixWait = s.msixWait := rfl
@[simp] theorem State.addTransfer_cancels (s : State) (n : Nat) (t : Transfer) : (s.addTransfer n t).cancels = s.cancels := rfl
@[simp] theorem State.addTransfer_upds (s : State) (n : Nat) (t : Transfer) : (s.addTransfer n t).upds = s.upds := rfl
@[simp] theorem State.addTransfer_links (s : State) (n : Nat) (t : Transfer) : (s.addTransfer n t).links = s.links := rfl
@[simp] theorem State.addTransfer_dropStep (s : State) (n : Nat) (t : Transfer) : (s.addTransfer n t).dropStep = s.dropStep := rfl
@[simp] theorem State.addTransfer_chGen (s : State) (n : Nat) (t : Transfer) : (s.addTransfer n t).chGen = s.chGen := rfl
@[simp] theorem State.addTransfer_xch (s : State) (n : Nat) (t : Transfer) : (s.addTransfer n t).xch = s.xch := rfl
@[simp] theorem State.addTransfer_rsl (s : State) (n : Nat) (t : Transfer) : (s.addTransfer n t).rsl = s.rsl := rfl
@[simp] theorem State.addTransfer_mgt (s : State) (n : Nat) (t : Transfer) : (s.addTransfer n t).mgt = s.mgt := rfl
@[simp] theorem State.addTransfer_sec (s : State) (n : Nat) (t : Transfer) : (s.addTransfer n t).sec = s.sec := rfl
@[simp] theorem State.addTransfer_rst (s : State) (n : Nat) (t : Transfer) : (s.addTransfer n t).rst = s.rst := rfl
@[simp] theorem State.addTransfer_gate (s : State) (n : Nat) (t : Transfer) : (s.addTransfer n t).gate = s.gate := rfl
@[simp] theorem State.addTransfer_bar4 (s : State) (n : Nat) (t : Transfer) : (s.addTransfer n t).bar4 = s.bar4 := rfl
@[simp] theorem State.addTransfer_freeCtr (s : State) (n : Nat) (t : Transfer) : (s.addTransfer n t).freeCtr = s.freeCtr := rfl
@[simp] theorem State.addTransfer_memGen (s : State) (n : Nat) (t : Transfer) : (s.addTransfer n t).memGen = s.memGen := rfl
@[simp] theorem State.addTransfer_dieCnt (s : State) (n : Nat) (t : Transfer) : (s.addTransfer n t).dieCnt = s.dieCnt := rfl
@[simp] theorem State.addTransfer_scrubAt (s : State) (n : Nat) (t : Transfer) : (s.addTransfer n t).scrubAt = s.scrubAt := rfl
@[simp] theorem State.addTransfer_sliceAt (s : State) (n : Nat) (t : Transfer) : (s.addTransfer n t).sliceAt = s.sliceAt := rfl

/-! ### State.setPool -/

@[simp] theorem State.setPool_pending (s : State) (p : Nat) (x : Pool) : (s.setPool p x).pending = s.pending := rfl
@[simp] theorem State.setPool_regs (s : State) (p : Nat) (x : Pool) : (s.setPool p x).regs = s.regs := rfl
@[simp] theorem State.setPool_cnt (s : State) (p : Nat) (x : Pool) : (s.setPool p x).cnt = s.cnt := rfl
@[simp] theorem State.setPool_mem (s : State) (p : Nat) (x : Pool) : (s.setPool p x).mem = s.mem := rfl
@[simp] theorem State.setPool_poison (s : State) (p : Nat) (x : Pool) : (s.setPool p x).poison = s.poison := rfl
@[simp] theorem State.setPool_fresh (s : State) (p : Nat) (x : Pool) : (s.setPool p x).fresh = s.fresh := rfl
@[simp] theorem State.setPool_seqs (s : State) (p : Nat) (x : Pool) : (s.setPool p x).seqs = s.seqs := rfl
@[simp] theorem State.setPool_launches (s : State) (p : Nat) (x : Pool) : (s.setPool p x).launches = s.launches := rfl
@[simp] theorem State.setPool_siphons (s : State) (p : Nat) (x : Pool) : (s.setPool p x).siphons = s.siphons := rfl
@[simp] theorem State.setPool_passes (s : State) (p : Nat) (x : Pool) : (s.setPool p x).passes = s.passes := rfl
@[simp] theorem State.setPool_nextPass (s : State) (p : Nat) (x : Pool) : (s.setPool p x).nextPass = s.nextPass := rfl
@[simp] theorem State.setPool_mesh (s : State) (p : Nat) (x : Pool) : (s.setPool p x).mesh = s.mesh := rfl
@[simp] theorem State.setPool_meshTurn (s : State) (p : Nat) (x : Pool) : (s.setPool p x).meshTurn = s.meshTurn := rfl
@[simp] theorem State.setPool_watches (s : State) (p : Nat) (x : Pool) : (s.setPool p x).watches = s.watches := rfl
@[simp] theorem State.setPool_cmds (s : State) (p : Nat) (x : Pool) : (s.setPool p x).cmds = s.cmds := rfl
@[simp] theorem State.setPool_turn (s : State) (p : Nat) (x : Pool) : (s.setPool p x).turn = s.turn := rfl
@[simp] theorem State.setPool_sinceMsg (s : State) (p : Nat) (x : Pool) : (s.setPool p x).sinceMsg = s.sinceMsg := rfl
@[simp] theorem State.setPool_epoch (s : State) (p : Nat) (x : Pool) : (s.setPool p x).epoch = s.epoch := rfl
@[simp] theorem State.setPool_snaps (s : State) (p : Nat) (x : Pool) : (s.setPool p x).snaps = s.snaps := rfl
@[simp] theorem State.setPool_unitEpoch (s : State) (p : Nat) (x : Pool) : (s.setPool p x).unitEpoch = s.unitEpoch := rfl
@[simp] theorem State.setPool_fuses (s : State) (p : Nat) (x : Pool) : (s.setPool p x).fuses = s.fuses := rfl
@[simp] theorem State.setPool_held (s : State) (p : Nat) (x : Pool) : (s.setPool p x).held = s.held := rfl
@[simp] theorem State.setPool_offline (s : State) (p : Nat) (x : Pool) : (s.setPool p x).offline = s.offline := rfl
@[simp] theorem State.setPool_refusing (s : State) (p : Nat) (x : Pool) : (s.setPool p x).refusing = s.refusing := rfl
@[simp] theorem State.setPool_testing (s : State) (p : Nat) (x : Pool) : (s.setPool p x).testing = s.testing := rfl
@[simp] theorem State.setPool_cores (s : State) (p : Nat) (x : Pool) : (s.setPool p x).cores = s.cores := rfl
@[simp] theorem State.setPool_out (s : State) (p : Nat) (x : Pool) : (s.setPool p x).out = s.out := rfl
@[simp] theorem State.setPool_reqs (s : State) (p : Nat) (x : Pool) : (s.setPool p x).reqs = s.reqs := rfl
@[simp] theorem State.setPool_nextReq (s : State) (p : Nat) (x : Pool) : (s.setPool p x).nextReq = s.nextReq := rfl
@[simp] theorem State.setPool_fnMask (s : State) (p : Nat) (x : Pool) : (s.setPool p x).fnMask = s.fnMask := rfl
@[simp] theorem State.setPool_msixWait (s : State) (p : Nat) (x : Pool) : (s.setPool p x).msixWait = s.msixWait := rfl
@[simp] theorem State.setPool_cancels (s : State) (p : Nat) (x : Pool) : (s.setPool p x).cancels = s.cancels := rfl
@[simp] theorem State.setPool_upds (s : State) (p : Nat) (x : Pool) : (s.setPool p x).upds = s.upds := rfl
@[simp] theorem State.setPool_links (s : State) (p : Nat) (x : Pool) : (s.setPool p x).links = s.links := rfl
@[simp] theorem State.setPool_dropStep (s : State) (p : Nat) (x : Pool) : (s.setPool p x).dropStep = s.dropStep := rfl
@[simp] theorem State.setPool_chGen (s : State) (p : Nat) (x : Pool) : (s.setPool p x).chGen = s.chGen := rfl
@[simp] theorem State.setPool_xch (s : State) (p : Nat) (x : Pool) : (s.setPool p x).xch = s.xch := rfl
@[simp] theorem State.setPool_rsl (s : State) (p : Nat) (x : Pool) : (s.setPool p x).rsl = s.rsl := rfl
@[simp] theorem State.setPool_mgt (s : State) (p : Nat) (x : Pool) : (s.setPool p x).mgt = s.mgt := rfl
@[simp] theorem State.setPool_sec (s : State) (p : Nat) (x : Pool) : (s.setPool p x).sec = s.sec := rfl
@[simp] theorem State.setPool_rst (s : State) (p : Nat) (x : Pool) : (s.setPool p x).rst = s.rst := rfl
@[simp] theorem State.setPool_gate (s : State) (p : Nat) (x : Pool) : (s.setPool p x).gate = s.gate := rfl
@[simp] theorem State.setPool_bar4 (s : State) (p : Nat) (x : Pool) : (s.setPool p x).bar4 = s.bar4 := rfl
@[simp] theorem State.setPool_freeCtr (s : State) (p : Nat) (x : Pool) : (s.setPool p x).freeCtr = s.freeCtr := rfl
@[simp] theorem State.setPool_memGen (s : State) (p : Nat) (x : Pool) : (s.setPool p x).memGen = s.memGen := rfl
@[simp] theorem State.setPool_dieCnt (s : State) (p : Nat) (x : Pool) : (s.setPool p x).dieCnt = s.dieCnt := rfl
@[simp] theorem State.setPool_scrubAt (s : State) (p : Nat) (x : Pool) : (s.setPool p x).scrubAt = s.scrubAt := rfl
@[simp] theorem State.setPool_sliceAt (s : State) (p : Nat) (x : Pool) : (s.setPool p x).sliceAt = s.sliceAt := rfl

/-! ### State.setCore -/

@[simp] theorem State.setCore_pending (s : State) (c : Nat) (k : Core) : (s.setCore c k).pending = s.pending := rfl
@[simp] theorem State.setCore_regs (s : State) (c : Nat) (k : Core) : (s.setCore c k).regs = s.regs := rfl
@[simp] theorem State.setCore_cnt (s : State) (c : Nat) (k : Core) : (s.setCore c k).cnt = s.cnt := rfl
@[simp] theorem State.setCore_mem (s : State) (c : Nat) (k : Core) : (s.setCore c k).mem = s.mem := rfl
@[simp] theorem State.setCore_poison (s : State) (c : Nat) (k : Core) : (s.setCore c k).poison = s.poison := rfl
@[simp] theorem State.setCore_fresh (s : State) (c : Nat) (k : Core) : (s.setCore c k).fresh = s.fresh := rfl
@[simp] theorem State.setCore_seqs (s : State) (c : Nat) (k : Core) : (s.setCore c k).seqs = s.seqs := rfl
@[simp] theorem State.setCore_launches (s : State) (c : Nat) (k : Core) : (s.setCore c k).launches = s.launches := rfl
@[simp] theorem State.setCore_siphons (s : State) (c : Nat) (k : Core) : (s.setCore c k).siphons = s.siphons := rfl
@[simp] theorem State.setCore_passes (s : State) (c : Nat) (k : Core) : (s.setCore c k).passes = s.passes := rfl
@[simp] theorem State.setCore_nextPass (s : State) (c : Nat) (k : Core) : (s.setCore c k).nextPass = s.nextPass := rfl
@[simp] theorem State.setCore_mesh (s : State) (c : Nat) (k : Core) : (s.setCore c k).mesh = s.mesh := rfl
@[simp] theorem State.setCore_meshTurn (s : State) (c : Nat) (k : Core) : (s.setCore c k).meshTurn = s.meshTurn := rfl
@[simp] theorem State.setCore_watches (s : State) (c : Nat) (k : Core) : (s.setCore c k).watches = s.watches := rfl
@[simp] theorem State.setCore_cmds (s : State) (c : Nat) (k : Core) : (s.setCore c k).cmds = s.cmds := rfl
@[simp] theorem State.setCore_turn (s : State) (c : Nat) (k : Core) : (s.setCore c k).turn = s.turn := rfl
@[simp] theorem State.setCore_sinceMsg (s : State) (c : Nat) (k : Core) : (s.setCore c k).sinceMsg = s.sinceMsg := rfl
@[simp] theorem State.setCore_pools (s : State) (c : Nat) (k : Core) : (s.setCore c k).pools = s.pools := rfl
@[simp] theorem State.setCore_epoch (s : State) (c : Nat) (k : Core) : (s.setCore c k).epoch = s.epoch := rfl
@[simp] theorem State.setCore_snaps (s : State) (c : Nat) (k : Core) : (s.setCore c k).snaps = s.snaps := rfl
@[simp] theorem State.setCore_unitEpoch (s : State) (c : Nat) (k : Core) : (s.setCore c k).unitEpoch = s.unitEpoch := rfl
@[simp] theorem State.setCore_fuses (s : State) (c : Nat) (k : Core) : (s.setCore c k).fuses = s.fuses := rfl
@[simp] theorem State.setCore_held (s : State) (c : Nat) (k : Core) : (s.setCore c k).held = s.held := rfl
@[simp] theorem State.setCore_offline (s : State) (c : Nat) (k : Core) : (s.setCore c k).offline = s.offline := rfl
@[simp] theorem State.setCore_refusing (s : State) (c : Nat) (k : Core) : (s.setCore c k).refusing = s.refusing := rfl
@[simp] theorem State.setCore_testing (s : State) (c : Nat) (k : Core) : (s.setCore c k).testing = s.testing := rfl
@[simp] theorem State.setCore_out (s : State) (c : Nat) (k : Core) : (s.setCore c k).out = s.out := rfl
@[simp] theorem State.setCore_reqs (s : State) (c : Nat) (k : Core) : (s.setCore c k).reqs = s.reqs := rfl
@[simp] theorem State.setCore_nextReq (s : State) (c : Nat) (k : Core) : (s.setCore c k).nextReq = s.nextReq := rfl
@[simp] theorem State.setCore_fnMask (s : State) (c : Nat) (k : Core) : (s.setCore c k).fnMask = s.fnMask := rfl
@[simp] theorem State.setCore_msixWait (s : State) (c : Nat) (k : Core) : (s.setCore c k).msixWait = s.msixWait := rfl
@[simp] theorem State.setCore_cancels (s : State) (c : Nat) (k : Core) : (s.setCore c k).cancels = s.cancels := rfl
@[simp] theorem State.setCore_upds (s : State) (c : Nat) (k : Core) : (s.setCore c k).upds = s.upds := rfl
@[simp] theorem State.setCore_links (s : State) (c : Nat) (k : Core) : (s.setCore c k).links = s.links := rfl
@[simp] theorem State.setCore_dropStep (s : State) (c : Nat) (k : Core) : (s.setCore c k).dropStep = s.dropStep := rfl
@[simp] theorem State.setCore_chGen (s : State) (c : Nat) (k : Core) : (s.setCore c k).chGen = s.chGen := rfl
@[simp] theorem State.setCore_xch (s : State) (c : Nat) (k : Core) : (s.setCore c k).xch = s.xch := rfl
@[simp] theorem State.setCore_rsl (s : State) (c : Nat) (k : Core) : (s.setCore c k).rsl = s.rsl := rfl
@[simp] theorem State.setCore_mgt (s : State) (c : Nat) (k : Core) : (s.setCore c k).mgt = s.mgt := rfl
@[simp] theorem State.setCore_sec (s : State) (c : Nat) (k : Core) : (s.setCore c k).sec = s.sec := rfl
@[simp] theorem State.setCore_rst (s : State) (c : Nat) (k : Core) : (s.setCore c k).rst = s.rst := rfl
@[simp] theorem State.setCore_gate (s : State) (c : Nat) (k : Core) : (s.setCore c k).gate = s.gate := rfl
@[simp] theorem State.setCore_bar4 (s : State) (c : Nat) (k : Core) : (s.setCore c k).bar4 = s.bar4 := rfl
@[simp] theorem State.setCore_freeCtr (s : State) (c : Nat) (k : Core) : (s.setCore c k).freeCtr = s.freeCtr := rfl
@[simp] theorem State.setCore_memGen (s : State) (c : Nat) (k : Core) : (s.setCore c k).memGen = s.memGen := rfl
@[simp] theorem State.setCore_dieCnt (s : State) (c : Nat) (k : Core) : (s.setCore c k).dieCnt = s.dieCnt := rfl
@[simp] theorem State.setCore_scrubAt (s : State) (c : Nat) (k : Core) : (s.setCore c k).scrubAt = s.scrubAt := rfl
@[simp] theorem State.setCore_sliceAt (s : State) (c : Nat) (k : Core) : (s.setCore c k).sliceAt = s.sliceAt := rfl

/-! ### State.onCore -/

@[simp] theorem State.onCore_pending (s : State) (c : Nat) (f : Core → Core) : (s.onCore c f).pending = s.pending := rfl
@[simp] theorem State.onCore_regs (s : State) (c : Nat) (f : Core → Core) : (s.onCore c f).regs = s.regs := rfl
@[simp] theorem State.onCore_cnt (s : State) (c : Nat) (f : Core → Core) : (s.onCore c f).cnt = s.cnt := rfl
@[simp] theorem State.onCore_mem (s : State) (c : Nat) (f : Core → Core) : (s.onCore c f).mem = s.mem := rfl
@[simp] theorem State.onCore_poison (s : State) (c : Nat) (f : Core → Core) : (s.onCore c f).poison = s.poison := rfl
@[simp] theorem State.onCore_fresh (s : State) (c : Nat) (f : Core → Core) : (s.onCore c f).fresh = s.fresh := rfl
@[simp] theorem State.onCore_seqs (s : State) (c : Nat) (f : Core → Core) : (s.onCore c f).seqs = s.seqs := rfl
@[simp] theorem State.onCore_launches (s : State) (c : Nat) (f : Core → Core) : (s.onCore c f).launches = s.launches := rfl
@[simp] theorem State.onCore_siphons (s : State) (c : Nat) (f : Core → Core) : (s.onCore c f).siphons = s.siphons := rfl
@[simp] theorem State.onCore_passes (s : State) (c : Nat) (f : Core → Core) : (s.onCore c f).passes = s.passes := rfl
@[simp] theorem State.onCore_nextPass (s : State) (c : Nat) (f : Core → Core) : (s.onCore c f).nextPass = s.nextPass := rfl
@[simp] theorem State.onCore_mesh (s : State) (c : Nat) (f : Core → Core) : (s.onCore c f).mesh = s.mesh := rfl
@[simp] theorem State.onCore_meshTurn (s : State) (c : Nat) (f : Core → Core) : (s.onCore c f).meshTurn = s.meshTurn := rfl
@[simp] theorem State.onCore_watches (s : State) (c : Nat) (f : Core → Core) : (s.onCore c f).watches = s.watches := rfl
@[simp] theorem State.onCore_cmds (s : State) (c : Nat) (f : Core → Core) : (s.onCore c f).cmds = s.cmds := rfl
@[simp] theorem State.onCore_turn (s : State) (c : Nat) (f : Core → Core) : (s.onCore c f).turn = s.turn := rfl
@[simp] theorem State.onCore_sinceMsg (s : State) (c : Nat) (f : Core → Core) : (s.onCore c f).sinceMsg = s.sinceMsg := rfl
@[simp] theorem State.onCore_pools (s : State) (c : Nat) (f : Core → Core) : (s.onCore c f).pools = s.pools := rfl
@[simp] theorem State.onCore_epoch (s : State) (c : Nat) (f : Core → Core) : (s.onCore c f).epoch = s.epoch := rfl
@[simp] theorem State.onCore_snaps (s : State) (c : Nat) (f : Core → Core) : (s.onCore c f).snaps = s.snaps := rfl
@[simp] theorem State.onCore_unitEpoch (s : State) (c : Nat) (f : Core → Core) : (s.onCore c f).unitEpoch = s.unitEpoch := rfl
@[simp] theorem State.onCore_fuses (s : State) (c : Nat) (f : Core → Core) : (s.onCore c f).fuses = s.fuses := rfl
@[simp] theorem State.onCore_held (s : State) (c : Nat) (f : Core → Core) : (s.onCore c f).held = s.held := rfl
@[simp] theorem State.onCore_offline (s : State) (c : Nat) (f : Core → Core) : (s.onCore c f).offline = s.offline := rfl
@[simp] theorem State.onCore_refusing (s : State) (c : Nat) (f : Core → Core) : (s.onCore c f).refusing = s.refusing := rfl
@[simp] theorem State.onCore_testing (s : State) (c : Nat) (f : Core → Core) : (s.onCore c f).testing = s.testing := rfl
@[simp] theorem State.onCore_out (s : State) (c : Nat) (f : Core → Core) : (s.onCore c f).out = s.out := rfl
@[simp] theorem State.onCore_reqs (s : State) (c : Nat) (f : Core → Core) : (s.onCore c f).reqs = s.reqs := rfl
@[simp] theorem State.onCore_nextReq (s : State) (c : Nat) (f : Core → Core) : (s.onCore c f).nextReq = s.nextReq := rfl
@[simp] theorem State.onCore_fnMask (s : State) (c : Nat) (f : Core → Core) : (s.onCore c f).fnMask = s.fnMask := rfl
@[simp] theorem State.onCore_msixWait (s : State) (c : Nat) (f : Core → Core) : (s.onCore c f).msixWait = s.msixWait := rfl
@[simp] theorem State.onCore_cancels (s : State) (c : Nat) (f : Core → Core) : (s.onCore c f).cancels = s.cancels := rfl
@[simp] theorem State.onCore_upds (s : State) (c : Nat) (f : Core → Core) : (s.onCore c f).upds = s.upds := rfl
@[simp] theorem State.onCore_links (s : State) (c : Nat) (f : Core → Core) : (s.onCore c f).links = s.links := rfl
@[simp] theorem State.onCore_dropStep (s : State) (c : Nat) (f : Core → Core) : (s.onCore c f).dropStep = s.dropStep := rfl
@[simp] theorem State.onCore_chGen (s : State) (c : Nat) (f : Core → Core) : (s.onCore c f).chGen = s.chGen := rfl
@[simp] theorem State.onCore_xch (s : State) (c : Nat) (f : Core → Core) : (s.onCore c f).xch = s.xch := rfl
@[simp] theorem State.onCore_rsl (s : State) (c : Nat) (f : Core → Core) : (s.onCore c f).rsl = s.rsl := rfl
@[simp] theorem State.onCore_mgt (s : State) (c : Nat) (f : Core → Core) : (s.onCore c f).mgt = s.mgt := rfl
@[simp] theorem State.onCore_sec (s : State) (c : Nat) (f : Core → Core) : (s.onCore c f).sec = s.sec := rfl
@[simp] theorem State.onCore_rst (s : State) (c : Nat) (f : Core → Core) : (s.onCore c f).rst = s.rst := rfl
@[simp] theorem State.onCore_gate (s : State) (c : Nat) (f : Core → Core) : (s.onCore c f).gate = s.gate := rfl
@[simp] theorem State.onCore_bar4 (s : State) (c : Nat) (f : Core → Core) : (s.onCore c f).bar4 = s.bar4 := rfl
@[simp] theorem State.onCore_freeCtr (s : State) (c : Nat) (f : Core → Core) : (s.onCore c f).freeCtr = s.freeCtr := rfl
@[simp] theorem State.onCore_memGen (s : State) (c : Nat) (f : Core → Core) : (s.onCore c f).memGen = s.memGen := rfl
@[simp] theorem State.onCore_dieCnt (s : State) (c : Nat) (f : Core → Core) : (s.onCore c f).dieCnt = s.dieCnt := rfl
@[simp] theorem State.onCore_scrubAt (s : State) (c : Nat) (f : Core → Core) : (s.onCore c f).scrubAt = s.scrubAt := rfl
@[simp] theorem State.onCore_sliceAt (s : State) (c : Nat) (f : Core → Core) : (s.onCore c f).sliceAt = s.sliceAt := rfl

/-! ### State.onUpd -/

@[simp] theorem State.onUpd_pending (s : State) (m : Nat) (f : Upd → Upd) : (s.onUpd m f).pending = s.pending := rfl
@[simp] theorem State.onUpd_regs (s : State) (m : Nat) (f : Upd → Upd) : (s.onUpd m f).regs = s.regs := rfl
@[simp] theorem State.onUpd_cnt (s : State) (m : Nat) (f : Upd → Upd) : (s.onUpd m f).cnt = s.cnt := rfl
@[simp] theorem State.onUpd_mem (s : State) (m : Nat) (f : Upd → Upd) : (s.onUpd m f).mem = s.mem := rfl
@[simp] theorem State.onUpd_poison (s : State) (m : Nat) (f : Upd → Upd) : (s.onUpd m f).poison = s.poison := rfl
@[simp] theorem State.onUpd_fresh (s : State) (m : Nat) (f : Upd → Upd) : (s.onUpd m f).fresh = s.fresh := rfl
@[simp] theorem State.onUpd_seqs (s : State) (m : Nat) (f : Upd → Upd) : (s.onUpd m f).seqs = s.seqs := rfl
@[simp] theorem State.onUpd_launches (s : State) (m : Nat) (f : Upd → Upd) : (s.onUpd m f).launches = s.launches := rfl
@[simp] theorem State.onUpd_siphons (s : State) (m : Nat) (f : Upd → Upd) : (s.onUpd m f).siphons = s.siphons := rfl
@[simp] theorem State.onUpd_passes (s : State) (m : Nat) (f : Upd → Upd) : (s.onUpd m f).passes = s.passes := rfl
@[simp] theorem State.onUpd_nextPass (s : State) (m : Nat) (f : Upd → Upd) : (s.onUpd m f).nextPass = s.nextPass := rfl
@[simp] theorem State.onUpd_mesh (s : State) (m : Nat) (f : Upd → Upd) : (s.onUpd m f).mesh = s.mesh := rfl
@[simp] theorem State.onUpd_meshTurn (s : State) (m : Nat) (f : Upd → Upd) : (s.onUpd m f).meshTurn = s.meshTurn := rfl
@[simp] theorem State.onUpd_watches (s : State) (m : Nat) (f : Upd → Upd) : (s.onUpd m f).watches = s.watches := rfl
@[simp] theorem State.onUpd_cmds (s : State) (m : Nat) (f : Upd → Upd) : (s.onUpd m f).cmds = s.cmds := rfl
@[simp] theorem State.onUpd_turn (s : State) (m : Nat) (f : Upd → Upd) : (s.onUpd m f).turn = s.turn := rfl
@[simp] theorem State.onUpd_sinceMsg (s : State) (m : Nat) (f : Upd → Upd) : (s.onUpd m f).sinceMsg = s.sinceMsg := rfl
@[simp] theorem State.onUpd_pools (s : State) (m : Nat) (f : Upd → Upd) : (s.onUpd m f).pools = s.pools := rfl
@[simp] theorem State.onUpd_epoch (s : State) (m : Nat) (f : Upd → Upd) : (s.onUpd m f).epoch = s.epoch := rfl
@[simp] theorem State.onUpd_snaps (s : State) (m : Nat) (f : Upd → Upd) : (s.onUpd m f).snaps = s.snaps := rfl
@[simp] theorem State.onUpd_unitEpoch (s : State) (m : Nat) (f : Upd → Upd) : (s.onUpd m f).unitEpoch = s.unitEpoch := rfl
@[simp] theorem State.onUpd_fuses (s : State) (m : Nat) (f : Upd → Upd) : (s.onUpd m f).fuses = s.fuses := rfl
@[simp] theorem State.onUpd_held (s : State) (m : Nat) (f : Upd → Upd) : (s.onUpd m f).held = s.held := rfl
@[simp] theorem State.onUpd_offline (s : State) (m : Nat) (f : Upd → Upd) : (s.onUpd m f).offline = s.offline := rfl
@[simp] theorem State.onUpd_refusing (s : State) (m : Nat) (f : Upd → Upd) : (s.onUpd m f).refusing = s.refusing := rfl
@[simp] theorem State.onUpd_testing (s : State) (m : Nat) (f : Upd → Upd) : (s.onUpd m f).testing = s.testing := rfl
@[simp] theorem State.onUpd_cores (s : State) (m : Nat) (f : Upd → Upd) : (s.onUpd m f).cores = s.cores := rfl
@[simp] theorem State.onUpd_out (s : State) (m : Nat) (f : Upd → Upd) : (s.onUpd m f).out = s.out := rfl
@[simp] theorem State.onUpd_reqs (s : State) (m : Nat) (f : Upd → Upd) : (s.onUpd m f).reqs = s.reqs := rfl
@[simp] theorem State.onUpd_nextReq (s : State) (m : Nat) (f : Upd → Upd) : (s.onUpd m f).nextReq = s.nextReq := rfl
@[simp] theorem State.onUpd_fnMask (s : State) (m : Nat) (f : Upd → Upd) : (s.onUpd m f).fnMask = s.fnMask := rfl
@[simp] theorem State.onUpd_msixWait (s : State) (m : Nat) (f : Upd → Upd) : (s.onUpd m f).msixWait = s.msixWait := rfl
@[simp] theorem State.onUpd_cancels (s : State) (m : Nat) (f : Upd → Upd) : (s.onUpd m f).cancels = s.cancels := rfl
@[simp] theorem State.onUpd_links (s : State) (m : Nat) (f : Upd → Upd) : (s.onUpd m f).links = s.links := rfl
@[simp] theorem State.onUpd_dropStep (s : State) (m : Nat) (f : Upd → Upd) : (s.onUpd m f).dropStep = s.dropStep := rfl
@[simp] theorem State.onUpd_chGen (s : State) (m : Nat) (f : Upd → Upd) : (s.onUpd m f).chGen = s.chGen := rfl
@[simp] theorem State.onUpd_xch (s : State) (m : Nat) (f : Upd → Upd) : (s.onUpd m f).xch = s.xch := rfl
@[simp] theorem State.onUpd_rsl (s : State) (m : Nat) (f : Upd → Upd) : (s.onUpd m f).rsl = s.rsl := rfl
@[simp] theorem State.onUpd_mgt (s : State) (m : Nat) (f : Upd → Upd) : (s.onUpd m f).mgt = s.mgt := rfl
@[simp] theorem State.onUpd_sec (s : State) (m : Nat) (f : Upd → Upd) : (s.onUpd m f).sec = s.sec := rfl
@[simp] theorem State.onUpd_rst (s : State) (m : Nat) (f : Upd → Upd) : (s.onUpd m f).rst = s.rst := rfl
@[simp] theorem State.onUpd_gate (s : State) (m : Nat) (f : Upd → Upd) : (s.onUpd m f).gate = s.gate := rfl
@[simp] theorem State.onUpd_bar4 (s : State) (m : Nat) (f : Upd → Upd) : (s.onUpd m f).bar4 = s.bar4 := rfl
@[simp] theorem State.onUpd_freeCtr (s : State) (m : Nat) (f : Upd → Upd) : (s.onUpd m f).freeCtr = s.freeCtr := rfl
@[simp] theorem State.onUpd_memGen (s : State) (m : Nat) (f : Upd → Upd) : (s.onUpd m f).memGen = s.memGen := rfl
@[simp] theorem State.onUpd_dieCnt (s : State) (m : Nat) (f : Upd → Upd) : (s.onUpd m f).dieCnt = s.dieCnt := rfl
@[simp] theorem State.onUpd_scrubAt (s : State) (m : Nat) (f : Upd → Upd) : (s.onUpd m f).scrubAt = s.scrubAt := rfl
@[simp] theorem State.onUpd_sliceAt (s : State) (m : Nat) (f : Upd → Upd) : (s.onUpd m f).sliceAt = s.sliceAt := rfl

/-! ### State.onInv -/

@[simp] theorem State.onInv_pending (s : State) (m : Nat) (f : Inv → Inv) : (s.onInv m f).pending = s.pending := rfl
@[simp] theorem State.onInv_regs (s : State) (m : Nat) (f : Inv → Inv) : (s.onInv m f).regs = s.regs := rfl
@[simp] theorem State.onInv_cnt (s : State) (m : Nat) (f : Inv → Inv) : (s.onInv m f).cnt = s.cnt := rfl
@[simp] theorem State.onInv_mem (s : State) (m : Nat) (f : Inv → Inv) : (s.onInv m f).mem = s.mem := rfl
@[simp] theorem State.onInv_poison (s : State) (m : Nat) (f : Inv → Inv) : (s.onInv m f).poison = s.poison := rfl
@[simp] theorem State.onInv_fresh (s : State) (m : Nat) (f : Inv → Inv) : (s.onInv m f).fresh = s.fresh := rfl
@[simp] theorem State.onInv_seqs (s : State) (m : Nat) (f : Inv → Inv) : (s.onInv m f).seqs = s.seqs := rfl
@[simp] theorem State.onInv_launches (s : State) (m : Nat) (f : Inv → Inv) : (s.onInv m f).launches = s.launches := rfl
@[simp] theorem State.onInv_siphons (s : State) (m : Nat) (f : Inv → Inv) : (s.onInv m f).siphons = s.siphons := rfl
@[simp] theorem State.onInv_passes (s : State) (m : Nat) (f : Inv → Inv) : (s.onInv m f).passes = s.passes := rfl
@[simp] theorem State.onInv_nextPass (s : State) (m : Nat) (f : Inv → Inv) : (s.onInv m f).nextPass = s.nextPass := rfl
@[simp] theorem State.onInv_mesh (s : State) (m : Nat) (f : Inv → Inv) : (s.onInv m f).mesh = s.mesh := rfl
@[simp] theorem State.onInv_meshTurn (s : State) (m : Nat) (f : Inv → Inv) : (s.onInv m f).meshTurn = s.meshTurn := rfl
@[simp] theorem State.onInv_watches (s : State) (m : Nat) (f : Inv → Inv) : (s.onInv m f).watches = s.watches := rfl
@[simp] theorem State.onInv_cmds (s : State) (m : Nat) (f : Inv → Inv) : (s.onInv m f).cmds = s.cmds := rfl
@[simp] theorem State.onInv_turn (s : State) (m : Nat) (f : Inv → Inv) : (s.onInv m f).turn = s.turn := rfl
@[simp] theorem State.onInv_sinceMsg (s : State) (m : Nat) (f : Inv → Inv) : (s.onInv m f).sinceMsg = s.sinceMsg := rfl
@[simp] theorem State.onInv_pools (s : State) (m : Nat) (f : Inv → Inv) : (s.onInv m f).pools = s.pools := rfl
@[simp] theorem State.onInv_epoch (s : State) (m : Nat) (f : Inv → Inv) : (s.onInv m f).epoch = s.epoch := rfl
@[simp] theorem State.onInv_snaps (s : State) (m : Nat) (f : Inv → Inv) : (s.onInv m f).snaps = s.snaps := rfl
@[simp] theorem State.onInv_unitEpoch (s : State) (m : Nat) (f : Inv → Inv) : (s.onInv m f).unitEpoch = s.unitEpoch := rfl
@[simp] theorem State.onInv_fuses (s : State) (m : Nat) (f : Inv → Inv) : (s.onInv m f).fuses = s.fuses := rfl
@[simp] theorem State.onInv_held (s : State) (m : Nat) (f : Inv → Inv) : (s.onInv m f).held = s.held := rfl
@[simp] theorem State.onInv_offline (s : State) (m : Nat) (f : Inv → Inv) : (s.onInv m f).offline = s.offline := rfl
@[simp] theorem State.onInv_refusing (s : State) (m : Nat) (f : Inv → Inv) : (s.onInv m f).refusing = s.refusing := rfl
@[simp] theorem State.onInv_testing (s : State) (m : Nat) (f : Inv → Inv) : (s.onInv m f).testing = s.testing := rfl
@[simp] theorem State.onInv_cores (s : State) (m : Nat) (f : Inv → Inv) : (s.onInv m f).cores = s.cores := rfl
@[simp] theorem State.onInv_out (s : State) (m : Nat) (f : Inv → Inv) : (s.onInv m f).out = s.out := rfl
@[simp] theorem State.onInv_reqs (s : State) (m : Nat) (f : Inv → Inv) : (s.onInv m f).reqs = s.reqs := rfl
@[simp] theorem State.onInv_nextReq (s : State) (m : Nat) (f : Inv → Inv) : (s.onInv m f).nextReq = s.nextReq := rfl
@[simp] theorem State.onInv_fnMask (s : State) (m : Nat) (f : Inv → Inv) : (s.onInv m f).fnMask = s.fnMask := rfl
@[simp] theorem State.onInv_msixWait (s : State) (m : Nat) (f : Inv → Inv) : (s.onInv m f).msixWait = s.msixWait := rfl
@[simp] theorem State.onInv_cancels (s : State) (m : Nat) (f : Inv → Inv) : (s.onInv m f).cancels = s.cancels := rfl
@[simp] theorem State.onInv_links (s : State) (m : Nat) (f : Inv → Inv) : (s.onInv m f).links = s.links := rfl
@[simp] theorem State.onInv_dropStep (s : State) (m : Nat) (f : Inv → Inv) : (s.onInv m f).dropStep = s.dropStep := rfl
@[simp] theorem State.onInv_chGen (s : State) (m : Nat) (f : Inv → Inv) : (s.onInv m f).chGen = s.chGen := rfl
@[simp] theorem State.onInv_xch (s : State) (m : Nat) (f : Inv → Inv) : (s.onInv m f).xch = s.xch := rfl
@[simp] theorem State.onInv_rsl (s : State) (m : Nat) (f : Inv → Inv) : (s.onInv m f).rsl = s.rsl := rfl
@[simp] theorem State.onInv_mgt (s : State) (m : Nat) (f : Inv → Inv) : (s.onInv m f).mgt = s.mgt := rfl
@[simp] theorem State.onInv_sec (s : State) (m : Nat) (f : Inv → Inv) : (s.onInv m f).sec = s.sec := rfl
@[simp] theorem State.onInv_rst (s : State) (m : Nat) (f : Inv → Inv) : (s.onInv m f).rst = s.rst := rfl
@[simp] theorem State.onInv_gate (s : State) (m : Nat) (f : Inv → Inv) : (s.onInv m f).gate = s.gate := rfl
@[simp] theorem State.onInv_bar4 (s : State) (m : Nat) (f : Inv → Inv) : (s.onInv m f).bar4 = s.bar4 := rfl
@[simp] theorem State.onInv_freeCtr (s : State) (m : Nat) (f : Inv → Inv) : (s.onInv m f).freeCtr = s.freeCtr := rfl
@[simp] theorem State.onInv_memGen (s : State) (m : Nat) (f : Inv → Inv) : (s.onInv m f).memGen = s.memGen := rfl
@[simp] theorem State.onInv_dieCnt (s : State) (m : Nat) (f : Inv → Inv) : (s.onInv m f).dieCnt = s.dieCnt := rfl
@[simp] theorem State.onInv_scrubAt (s : State) (m : Nat) (f : Inv → Inv) : (s.onInv m f).scrubAt = s.scrubAt := rfl
@[simp] theorem State.onInv_sliceAt (s : State) (m : Nat) (f : Inv → Inv) : (s.onInv m f).sliceAt = s.sliceAt := rfl

/-! ### State.onCmd -/

@[simp] theorem State.onCmd_pending (s : State) (q i : Nat) (f : Cmd → Cmd) : (s.onCmd q i f).pending = s.pending := rfl
@[simp] theorem State.onCmd_regs (s : State) (q i : Nat) (f : Cmd → Cmd) : (s.onCmd q i f).regs = s.regs := rfl
@[simp] theorem State.onCmd_cnt (s : State) (q i : Nat) (f : Cmd → Cmd) : (s.onCmd q i f).cnt = s.cnt := rfl
@[simp] theorem State.onCmd_mem (s : State) (q i : Nat) (f : Cmd → Cmd) : (s.onCmd q i f).mem = s.mem := rfl
@[simp] theorem State.onCmd_poison (s : State) (q i : Nat) (f : Cmd → Cmd) : (s.onCmd q i f).poison = s.poison := rfl
@[simp] theorem State.onCmd_fresh (s : State) (q i : Nat) (f : Cmd → Cmd) : (s.onCmd q i f).fresh = s.fresh := rfl
@[simp] theorem State.onCmd_seqs (s : State) (q i : Nat) (f : Cmd → Cmd) : (s.onCmd q i f).seqs = s.seqs := rfl
@[simp] theorem State.onCmd_launches (s : State) (q i : Nat) (f : Cmd → Cmd) : (s.onCmd q i f).launches = s.launches := rfl
@[simp] theorem State.onCmd_siphons (s : State) (q i : Nat) (f : Cmd → Cmd) : (s.onCmd q i f).siphons = s.siphons := rfl
@[simp] theorem State.onCmd_passes (s : State) (q i : Nat) (f : Cmd → Cmd) : (s.onCmd q i f).passes = s.passes := rfl
@[simp] theorem State.onCmd_nextPass (s : State) (q i : Nat) (f : Cmd → Cmd) : (s.onCmd q i f).nextPass = s.nextPass := rfl
@[simp] theorem State.onCmd_mesh (s : State) (q i : Nat) (f : Cmd → Cmd) : (s.onCmd q i f).mesh = s.mesh := rfl
@[simp] theorem State.onCmd_meshTurn (s : State) (q i : Nat) (f : Cmd → Cmd) : (s.onCmd q i f).meshTurn = s.meshTurn := rfl
@[simp] theorem State.onCmd_watches (s : State) (q i : Nat) (f : Cmd → Cmd) : (s.onCmd q i f).watches = s.watches := rfl
@[simp] theorem State.onCmd_turn (s : State) (q i : Nat) (f : Cmd → Cmd) : (s.onCmd q i f).turn = s.turn := rfl
@[simp] theorem State.onCmd_sinceMsg (s : State) (q i : Nat) (f : Cmd → Cmd) : (s.onCmd q i f).sinceMsg = s.sinceMsg := rfl
@[simp] theorem State.onCmd_pools (s : State) (q i : Nat) (f : Cmd → Cmd) : (s.onCmd q i f).pools = s.pools := rfl
@[simp] theorem State.onCmd_epoch (s : State) (q i : Nat) (f : Cmd → Cmd) : (s.onCmd q i f).epoch = s.epoch := rfl
@[simp] theorem State.onCmd_snaps (s : State) (q i : Nat) (f : Cmd → Cmd) : (s.onCmd q i f).snaps = s.snaps := rfl
@[simp] theorem State.onCmd_unitEpoch (s : State) (q i : Nat) (f : Cmd → Cmd) : (s.onCmd q i f).unitEpoch = s.unitEpoch := rfl
@[simp] theorem State.onCmd_fuses (s : State) (q i : Nat) (f : Cmd → Cmd) : (s.onCmd q i f).fuses = s.fuses := rfl
@[simp] theorem State.onCmd_held (s : State) (q i : Nat) (f : Cmd → Cmd) : (s.onCmd q i f).held = s.held := rfl
@[simp] theorem State.onCmd_offline (s : State) (q i : Nat) (f : Cmd → Cmd) : (s.onCmd q i f).offline = s.offline := rfl
@[simp] theorem State.onCmd_refusing (s : State) (q i : Nat) (f : Cmd → Cmd) : (s.onCmd q i f).refusing = s.refusing := rfl
@[simp] theorem State.onCmd_testing (s : State) (q i : Nat) (f : Cmd → Cmd) : (s.onCmd q i f).testing = s.testing := rfl
@[simp] theorem State.onCmd_cores (s : State) (q i : Nat) (f : Cmd → Cmd) : (s.onCmd q i f).cores = s.cores := rfl
@[simp] theorem State.onCmd_out (s : State) (q i : Nat) (f : Cmd → Cmd) : (s.onCmd q i f).out = s.out := rfl
@[simp] theorem State.onCmd_reqs (s : State) (q i : Nat) (f : Cmd → Cmd) : (s.onCmd q i f).reqs = s.reqs := rfl
@[simp] theorem State.onCmd_nextReq (s : State) (q i : Nat) (f : Cmd → Cmd) : (s.onCmd q i f).nextReq = s.nextReq := rfl
@[simp] theorem State.onCmd_fnMask (s : State) (q i : Nat) (f : Cmd → Cmd) : (s.onCmd q i f).fnMask = s.fnMask := rfl
@[simp] theorem State.onCmd_msixWait (s : State) (q i : Nat) (f : Cmd → Cmd) : (s.onCmd q i f).msixWait = s.msixWait := rfl
@[simp] theorem State.onCmd_cancels (s : State) (q i : Nat) (f : Cmd → Cmd) : (s.onCmd q i f).cancels = s.cancels := rfl
@[simp] theorem State.onCmd_upds (s : State) (q i : Nat) (f : Cmd → Cmd) : (s.onCmd q i f).upds = s.upds := rfl
@[simp] theorem State.onCmd_links (s : State) (q i : Nat) (f : Cmd → Cmd) : (s.onCmd q i f).links = s.links := rfl
@[simp] theorem State.onCmd_dropStep (s : State) (q i : Nat) (f : Cmd → Cmd) : (s.onCmd q i f).dropStep = s.dropStep := rfl
@[simp] theorem State.onCmd_chGen (s : State) (q i : Nat) (f : Cmd → Cmd) : (s.onCmd q i f).chGen = s.chGen := rfl
@[simp] theorem State.onCmd_xch (s : State) (q i : Nat) (f : Cmd → Cmd) : (s.onCmd q i f).xch = s.xch := rfl
@[simp] theorem State.onCmd_rsl (s : State) (q i : Nat) (f : Cmd → Cmd) : (s.onCmd q i f).rsl = s.rsl := rfl
@[simp] theorem State.onCmd_mgt (s : State) (q i : Nat) (f : Cmd → Cmd) : (s.onCmd q i f).mgt = s.mgt := rfl
@[simp] theorem State.onCmd_sec (s : State) (q i : Nat) (f : Cmd → Cmd) : (s.onCmd q i f).sec = s.sec := rfl
@[simp] theorem State.onCmd_rst (s : State) (q i : Nat) (f : Cmd → Cmd) : (s.onCmd q i f).rst = s.rst := rfl
@[simp] theorem State.onCmd_gate (s : State) (q i : Nat) (f : Cmd → Cmd) : (s.onCmd q i f).gate = s.gate := rfl
@[simp] theorem State.onCmd_bar4 (s : State) (q i : Nat) (f : Cmd → Cmd) : (s.onCmd q i f).bar4 = s.bar4 := rfl
@[simp] theorem State.onCmd_freeCtr (s : State) (q i : Nat) (f : Cmd → Cmd) : (s.onCmd q i f).freeCtr = s.freeCtr := rfl
@[simp] theorem State.onCmd_memGen (s : State) (q i : Nat) (f : Cmd → Cmd) : (s.onCmd q i f).memGen = s.memGen := rfl
@[simp] theorem State.onCmd_dieCnt (s : State) (q i : Nat) (f : Cmd → Cmd) : (s.onCmd q i f).dieCnt = s.dieCnt := rfl
@[simp] theorem State.onCmd_scrubAt (s : State) (q i : Nat) (f : Cmd → Cmd) : (s.onCmd q i f).scrubAt = s.scrubAt := rfl
@[simp] theorem State.onCmd_sliceAt (s : State) (q i : Nat) (f : Cmd → Cmd) : (s.onCmd q i f).sliceAt = s.sliceAt := rfl

/-! ### State.finishCmd -/

@[simp] theorem State.finishCmd_pending (s : State) (q i : Nat) (f : Cmd → Cmd) : (s.finishCmd q i f).pending = s.pending := rfl
@[simp] theorem State.finishCmd_regs (s : State) (q i : Nat) (f : Cmd → Cmd) : (s.finishCmd q i f).regs = s.regs := rfl
@[simp] theorem State.finishCmd_cnt (s : State) (q i : Nat) (f : Cmd → Cmd) : (s.finishCmd q i f).cnt = s.cnt := rfl
@[simp] theorem State.finishCmd_mem (s : State) (q i : Nat) (f : Cmd → Cmd) : (s.finishCmd q i f).mem = s.mem := rfl
@[simp] theorem State.finishCmd_poison (s : State) (q i : Nat) (f : Cmd → Cmd) : (s.finishCmd q i f).poison = s.poison := rfl
@[simp] theorem State.finishCmd_fresh (s : State) (q i : Nat) (f : Cmd → Cmd) : (s.finishCmd q i f).fresh = s.fresh := rfl
@[simp] theorem State.finishCmd_seqs (s : State) (q i : Nat) (f : Cmd → Cmd) : (s.finishCmd q i f).seqs = s.seqs := rfl
@[simp] theorem State.finishCmd_launches (s : State) (q i : Nat) (f : Cmd → Cmd) : (s.finishCmd q i f).launches = s.launches := rfl
@[simp] theorem State.finishCmd_siphons (s : State) (q i : Nat) (f : Cmd → Cmd) : (s.finishCmd q i f).siphons = s.siphons := rfl
@[simp] theorem State.finishCmd_passes (s : State) (q i : Nat) (f : Cmd → Cmd) : (s.finishCmd q i f).passes = s.passes := rfl
@[simp] theorem State.finishCmd_nextPass (s : State) (q i : Nat) (f : Cmd → Cmd) : (s.finishCmd q i f).nextPass = s.nextPass := rfl
@[simp] theorem State.finishCmd_mesh (s : State) (q i : Nat) (f : Cmd → Cmd) : (s.finishCmd q i f).mesh = s.mesh := rfl
@[simp] theorem State.finishCmd_meshTurn (s : State) (q i : Nat) (f : Cmd → Cmd) : (s.finishCmd q i f).meshTurn = s.meshTurn := rfl
@[simp] theorem State.finishCmd_watches (s : State) (q i : Nat) (f : Cmd → Cmd) : (s.finishCmd q i f).watches = s.watches := rfl
@[simp] theorem State.finishCmd_turn (s : State) (q i : Nat) (f : Cmd → Cmd) : (s.finishCmd q i f).turn = s.turn := rfl
@[simp] theorem State.finishCmd_sinceMsg (s : State) (q i : Nat) (f : Cmd → Cmd) : (s.finishCmd q i f).sinceMsg = s.sinceMsg := rfl
@[simp] theorem State.finishCmd_pools (s : State) (q i : Nat) (f : Cmd → Cmd) : (s.finishCmd q i f).pools = s.pools := rfl
@[simp] theorem State.finishCmd_epoch (s : State) (q i : Nat) (f : Cmd → Cmd) : (s.finishCmd q i f).epoch = s.epoch := rfl
@[simp] theorem State.finishCmd_snaps (s : State) (q i : Nat) (f : Cmd → Cmd) : (s.finishCmd q i f).snaps = s.snaps := rfl
@[simp] theorem State.finishCmd_unitEpoch (s : State) (q i : Nat) (f : Cmd → Cmd) : (s.finishCmd q i f).unitEpoch = s.unitEpoch := rfl
@[simp] theorem State.finishCmd_fuses (s : State) (q i : Nat) (f : Cmd → Cmd) : (s.finishCmd q i f).fuses = s.fuses := rfl
@[simp] theorem State.finishCmd_held (s : State) (q i : Nat) (f : Cmd → Cmd) : (s.finishCmd q i f).held = s.held := rfl
@[simp] theorem State.finishCmd_offline (s : State) (q i : Nat) (f : Cmd → Cmd) : (s.finishCmd q i f).offline = s.offline := rfl
@[simp] theorem State.finishCmd_refusing (s : State) (q i : Nat) (f : Cmd → Cmd) : (s.finishCmd q i f).refusing = s.refusing := rfl
@[simp] theorem State.finishCmd_testing (s : State) (q i : Nat) (f : Cmd → Cmd) : (s.finishCmd q i f).testing = s.testing := rfl
@[simp] theorem State.finishCmd_cores (s : State) (q i : Nat) (f : Cmd → Cmd) : (s.finishCmd q i f).cores = s.cores := rfl
@[simp] theorem State.finishCmd_out (s : State) (q i : Nat) (f : Cmd → Cmd) : (s.finishCmd q i f).out = s.out := rfl
@[simp] theorem State.finishCmd_reqs (s : State) (q i : Nat) (f : Cmd → Cmd) : (s.finishCmd q i f).reqs = s.reqs := rfl
@[simp] theorem State.finishCmd_nextReq (s : State) (q i : Nat) (f : Cmd → Cmd) : (s.finishCmd q i f).nextReq = s.nextReq := rfl
@[simp] theorem State.finishCmd_fnMask (s : State) (q i : Nat) (f : Cmd → Cmd) : (s.finishCmd q i f).fnMask = s.fnMask := rfl
@[simp] theorem State.finishCmd_msixWait (s : State) (q i : Nat) (f : Cmd → Cmd) : (s.finishCmd q i f).msixWait = s.msixWait := rfl
@[simp] theorem State.finishCmd_cancels (s : State) (q i : Nat) (f : Cmd → Cmd) : (s.finishCmd q i f).cancels = s.cancels := rfl
@[simp] theorem State.finishCmd_upds (s : State) (q i : Nat) (f : Cmd → Cmd) : (s.finishCmd q i f).upds = s.upds := rfl
@[simp] theorem State.finishCmd_links (s : State) (q i : Nat) (f : Cmd → Cmd) : (s.finishCmd q i f).links = s.links := rfl
@[simp] theorem State.finishCmd_dropStep (s : State) (q i : Nat) (f : Cmd → Cmd) : (s.finishCmd q i f).dropStep = s.dropStep := rfl
@[simp] theorem State.finishCmd_chGen (s : State) (q i : Nat) (f : Cmd → Cmd) : (s.finishCmd q i f).chGen = s.chGen := rfl
@[simp] theorem State.finishCmd_xch (s : State) (q i : Nat) (f : Cmd → Cmd) : (s.finishCmd q i f).xch = s.xch := rfl
@[simp] theorem State.finishCmd_rsl (s : State) (q i : Nat) (f : Cmd → Cmd) : (s.finishCmd q i f).rsl = s.rsl := rfl
@[simp] theorem State.finishCmd_mgt (s : State) (q i : Nat) (f : Cmd → Cmd) : (s.finishCmd q i f).mgt = s.mgt := rfl
@[simp] theorem State.finishCmd_sec (s : State) (q i : Nat) (f : Cmd → Cmd) : (s.finishCmd q i f).sec = s.sec := rfl
@[simp] theorem State.finishCmd_rst (s : State) (q i : Nat) (f : Cmd → Cmd) : (s.finishCmd q i f).rst = s.rst := rfl
@[simp] theorem State.finishCmd_gate (s : State) (q i : Nat) (f : Cmd → Cmd) : (s.finishCmd q i f).gate = s.gate := rfl
@[simp] theorem State.finishCmd_bar4 (s : State) (q i : Nat) (f : Cmd → Cmd) : (s.finishCmd q i f).bar4 = s.bar4 := rfl
@[simp] theorem State.finishCmd_freeCtr (s : State) (q i : Nat) (f : Cmd → Cmd) : (s.finishCmd q i f).freeCtr = s.freeCtr := rfl
@[simp] theorem State.finishCmd_memGen (s : State) (q i : Nat) (f : Cmd → Cmd) : (s.finishCmd q i f).memGen = s.memGen := rfl
@[simp] theorem State.finishCmd_dieCnt (s : State) (q i : Nat) (f : Cmd → Cmd) : (s.finishCmd q i f).dieCnt = s.dieCnt := rfl
@[simp] theorem State.finishCmd_scrubAt (s : State) (q i : Nat) (f : Cmd → Cmd) : (s.finishCmd q i f).scrubAt = s.scrubAt := rfl
@[simp] theorem State.finishCmd_sliceAt (s : State) (q i : Nat) (f : Cmd → Cmd) : (s.finishCmd q i f).sliceAt = s.sliceAt := rfl

/-! ### State.endCmd -/

@[simp] theorem State.endCmd_pending (s : State) (c : Cmd) (k : Code) (n : Nat) : (s.endCmd c k n).pending = s.pending := rfl
@[simp] theorem State.endCmd_regs (s : State) (c : Cmd) (k : Code) (n : Nat) : (s.endCmd c k n).regs = s.regs := rfl
@[simp] theorem State.endCmd_cnt (s : State) (c : Cmd) (k : Code) (n : Nat) : (s.endCmd c k n).cnt = s.cnt := rfl
@[simp] theorem State.endCmd_mem (s : State) (c : Cmd) (k : Code) (n : Nat) : (s.endCmd c k n).mem = s.mem := rfl
@[simp] theorem State.endCmd_poison (s : State) (c : Cmd) (k : Code) (n : Nat) : (s.endCmd c k n).poison = s.poison := rfl
@[simp] theorem State.endCmd_fresh (s : State) (c : Cmd) (k : Code) (n : Nat) : (s.endCmd c k n).fresh = s.fresh := rfl
@[simp] theorem State.endCmd_seqs (s : State) (c : Cmd) (k : Code) (n : Nat) : (s.endCmd c k n).seqs = s.seqs := rfl
@[simp] theorem State.endCmd_launches (s : State) (c : Cmd) (k : Code) (n : Nat) : (s.endCmd c k n).launches = s.launches := rfl
@[simp] theorem State.endCmd_siphons (s : State) (c : Cmd) (k : Code) (n : Nat) : (s.endCmd c k n).siphons = s.siphons := rfl
@[simp] theorem State.endCmd_passes (s : State) (c : Cmd) (k : Code) (n : Nat) : (s.endCmd c k n).passes = s.passes := rfl
@[simp] theorem State.endCmd_nextPass (s : State) (c : Cmd) (k : Code) (n : Nat) : (s.endCmd c k n).nextPass = s.nextPass := rfl
@[simp] theorem State.endCmd_mesh (s : State) (c : Cmd) (k : Code) (n : Nat) : (s.endCmd c k n).mesh = s.mesh := rfl
@[simp] theorem State.endCmd_meshTurn (s : State) (c : Cmd) (k : Code) (n : Nat) : (s.endCmd c k n).meshTurn = s.meshTurn := rfl
@[simp] theorem State.endCmd_watches (s : State) (c : Cmd) (k : Code) (n : Nat) : (s.endCmd c k n).watches = s.watches := rfl
@[simp] theorem State.endCmd_turn (s : State) (c : Cmd) (k : Code) (n : Nat) : (s.endCmd c k n).turn = s.turn := rfl
@[simp] theorem State.endCmd_sinceMsg (s : State) (c : Cmd) (k : Code) (n : Nat) : (s.endCmd c k n).sinceMsg = s.sinceMsg := rfl
@[simp] theorem State.endCmd_pools (s : State) (c : Cmd) (k : Code) (n : Nat) : (s.endCmd c k n).pools = s.pools := rfl
@[simp] theorem State.endCmd_epoch (s : State) (c : Cmd) (k : Code) (n : Nat) : (s.endCmd c k n).epoch = s.epoch := rfl
@[simp] theorem State.endCmd_snaps (s : State) (c : Cmd) (k : Code) (n : Nat) : (s.endCmd c k n).snaps = s.snaps := rfl
@[simp] theorem State.endCmd_unitEpoch (s : State) (c : Cmd) (k : Code) (n : Nat) : (s.endCmd c k n).unitEpoch = s.unitEpoch := rfl
@[simp] theorem State.endCmd_fuses (s : State) (c : Cmd) (k : Code) (n : Nat) : (s.endCmd c k n).fuses = s.fuses := rfl
@[simp] theorem State.endCmd_held (s : State) (c : Cmd) (k : Code) (n : Nat) : (s.endCmd c k n).held = s.held := rfl
@[simp] theorem State.endCmd_offline (s : State) (c : Cmd) (k : Code) (n : Nat) : (s.endCmd c k n).offline = s.offline := rfl
@[simp] theorem State.endCmd_refusing (s : State) (c : Cmd) (k : Code) (n : Nat) : (s.endCmd c k n).refusing = s.refusing := rfl
@[simp] theorem State.endCmd_testing (s : State) (c : Cmd) (k : Code) (n : Nat) : (s.endCmd c k n).testing = s.testing := rfl
@[simp] theorem State.endCmd_cores (s : State) (c : Cmd) (k : Code) (n : Nat) : (s.endCmd c k n).cores = s.cores := rfl
@[simp] theorem State.endCmd_out (s : State) (c : Cmd) (k : Code) (n : Nat) : (s.endCmd c k n).out = s.out := rfl
@[simp] theorem State.endCmd_reqs (s : State) (c : Cmd) (k : Code) (n : Nat) : (s.endCmd c k n).reqs = s.reqs := rfl
@[simp] theorem State.endCmd_nextReq (s : State) (c : Cmd) (k : Code) (n : Nat) : (s.endCmd c k n).nextReq = s.nextReq := rfl
@[simp] theorem State.endCmd_fnMask (s : State) (c : Cmd) (k : Code) (n : Nat) : (s.endCmd c k n).fnMask = s.fnMask := rfl
@[simp] theorem State.endCmd_msixWait (s : State) (c : Cmd) (k : Code) (n : Nat) : (s.endCmd c k n).msixWait = s.msixWait := rfl
@[simp] theorem State.endCmd_cancels (s : State) (c : Cmd) (k : Code) (n : Nat) : (s.endCmd c k n).cancels = s.cancels := rfl
@[simp] theorem State.endCmd_upds (s : State) (c : Cmd) (k : Code) (n : Nat) : (s.endCmd c k n).upds = s.upds := rfl
@[simp] theorem State.endCmd_links (s : State) (c : Cmd) (k : Code) (n : Nat) : (s.endCmd c k n).links = s.links := rfl
@[simp] theorem State.endCmd_dropStep (s : State) (c : Cmd) (k : Code) (n : Nat) : (s.endCmd c k n).dropStep = s.dropStep := rfl
@[simp] theorem State.endCmd_chGen (s : State) (c : Cmd) (k : Code) (n : Nat) : (s.endCmd c k n).chGen = s.chGen := rfl
@[simp] theorem State.endCmd_xch (s : State) (c : Cmd) (k : Code) (n : Nat) : (s.endCmd c k n).xch = s.xch := rfl
@[simp] theorem State.endCmd_rsl (s : State) (c : Cmd) (k : Code) (n : Nat) : (s.endCmd c k n).rsl = s.rsl := rfl
@[simp] theorem State.endCmd_mgt (s : State) (c : Cmd) (k : Code) (n : Nat) : (s.endCmd c k n).mgt = s.mgt := rfl
@[simp] theorem State.endCmd_sec (s : State) (c : Cmd) (k : Code) (n : Nat) : (s.endCmd c k n).sec = s.sec := rfl
@[simp] theorem State.endCmd_rst (s : State) (c : Cmd) (k : Code) (n : Nat) : (s.endCmd c k n).rst = s.rst := rfl
@[simp] theorem State.endCmd_gate (s : State) (c : Cmd) (k : Code) (n : Nat) : (s.endCmd c k n).gate = s.gate := rfl
@[simp] theorem State.endCmd_bar4 (s : State) (c : Cmd) (k : Code) (n : Nat) : (s.endCmd c k n).bar4 = s.bar4 := rfl
@[simp] theorem State.endCmd_freeCtr (s : State) (c : Cmd) (k : Code) (n : Nat) : (s.endCmd c k n).freeCtr = s.freeCtr := rfl
@[simp] theorem State.endCmd_memGen (s : State) (c : Cmd) (k : Code) (n : Nat) : (s.endCmd c k n).memGen = s.memGen := rfl
@[simp] theorem State.endCmd_dieCnt (s : State) (c : Cmd) (k : Code) (n : Nat) : (s.endCmd c k n).dieCnt = s.dieCnt := rfl
@[simp] theorem State.endCmd_scrubAt (s : State) (c : Cmd) (k : Code) (n : Nat) : (s.endCmd c k n).scrubAt = s.scrubAt := rfl
@[simp] theorem State.endCmd_sliceAt (s : State) (c : Cmd) (k : Code) (n : Nat) : (s.endCmd c k n).sliceAt = s.sliceAt := rfl

/-! ### State.dropWaits -/

@[simp] theorem State.dropWaits_pending (s : State) (u : SeqId) : (s.dropWaits u).pending = s.pending := rfl
@[simp] theorem State.dropWaits_regs (s : State) (u : SeqId) : (s.dropWaits u).regs = s.regs := rfl
@[simp] theorem State.dropWaits_cnt (s : State) (u : SeqId) : (s.dropWaits u).cnt = s.cnt := rfl
@[simp] theorem State.dropWaits_mem (s : State) (u : SeqId) : (s.dropWaits u).mem = s.mem := rfl
@[simp] theorem State.dropWaits_poison (s : State) (u : SeqId) : (s.dropWaits u).poison = s.poison := rfl
@[simp] theorem State.dropWaits_fresh (s : State) (u : SeqId) : (s.dropWaits u).fresh = s.fresh := rfl
@[simp] theorem State.dropWaits_seqs (s : State) (u : SeqId) : (s.dropWaits u).seqs = s.seqs := rfl
@[simp] theorem State.dropWaits_launches (s : State) (u : SeqId) : (s.dropWaits u).launches = s.launches := rfl
@[simp] theorem State.dropWaits_siphons (s : State) (u : SeqId) : (s.dropWaits u).siphons = s.siphons := rfl
@[simp] theorem State.dropWaits_passes (s : State) (u : SeqId) : (s.dropWaits u).passes = s.passes := rfl
@[simp] theorem State.dropWaits_nextPass (s : State) (u : SeqId) : (s.dropWaits u).nextPass = s.nextPass := rfl
@[simp] theorem State.dropWaits_mesh (s : State) (u : SeqId) : (s.dropWaits u).mesh = s.mesh := rfl
@[simp] theorem State.dropWaits_meshTurn (s : State) (u : SeqId) : (s.dropWaits u).meshTurn = s.meshTurn := rfl
@[simp] theorem State.dropWaits_cmds (s : State) (u : SeqId) : (s.dropWaits u).cmds = s.cmds := rfl
@[simp] theorem State.dropWaits_turn (s : State) (u : SeqId) : (s.dropWaits u).turn = s.turn := rfl
@[simp] theorem State.dropWaits_sinceMsg (s : State) (u : SeqId) : (s.dropWaits u).sinceMsg = s.sinceMsg := rfl
@[simp] theorem State.dropWaits_pools (s : State) (u : SeqId) : (s.dropWaits u).pools = s.pools := rfl
@[simp] theorem State.dropWaits_epoch (s : State) (u : SeqId) : (s.dropWaits u).epoch = s.epoch := rfl
@[simp] theorem State.dropWaits_snaps (s : State) (u : SeqId) : (s.dropWaits u).snaps = s.snaps := rfl
@[simp] theorem State.dropWaits_unitEpoch (s : State) (u : SeqId) : (s.dropWaits u).unitEpoch = s.unitEpoch := rfl
@[simp] theorem State.dropWaits_fuses (s : State) (u : SeqId) : (s.dropWaits u).fuses = s.fuses := rfl
@[simp] theorem State.dropWaits_held (s : State) (u : SeqId) : (s.dropWaits u).held = s.held := rfl
@[simp] theorem State.dropWaits_offline (s : State) (u : SeqId) : (s.dropWaits u).offline = s.offline := rfl
@[simp] theorem State.dropWaits_refusing (s : State) (u : SeqId) : (s.dropWaits u).refusing = s.refusing := rfl
@[simp] theorem State.dropWaits_testing (s : State) (u : SeqId) : (s.dropWaits u).testing = s.testing := rfl
@[simp] theorem State.dropWaits_cores (s : State) (u : SeqId) : (s.dropWaits u).cores = s.cores := rfl
@[simp] theorem State.dropWaits_out (s : State) (u : SeqId) : (s.dropWaits u).out = s.out := rfl
@[simp] theorem State.dropWaits_nextReq (s : State) (u : SeqId) : (s.dropWaits u).nextReq = s.nextReq := rfl
@[simp] theorem State.dropWaits_fnMask (s : State) (u : SeqId) : (s.dropWaits u).fnMask = s.fnMask := rfl
@[simp] theorem State.dropWaits_msixWait (s : State) (u : SeqId) : (s.dropWaits u).msixWait = s.msixWait := rfl
@[simp] theorem State.dropWaits_cancels (s : State) (u : SeqId) : (s.dropWaits u).cancels = s.cancels := rfl
@[simp] theorem State.dropWaits_upds (s : State) (u : SeqId) : (s.dropWaits u).upds = s.upds := rfl
@[simp] theorem State.dropWaits_links (s : State) (u : SeqId) : (s.dropWaits u).links = s.links := rfl
@[simp] theorem State.dropWaits_dropStep (s : State) (u : SeqId) : (s.dropWaits u).dropStep = s.dropStep := rfl
@[simp] theorem State.dropWaits_chGen (s : State) (u : SeqId) : (s.dropWaits u).chGen = s.chGen := rfl
@[simp] theorem State.dropWaits_xch (s : State) (u : SeqId) : (s.dropWaits u).xch = s.xch := rfl
@[simp] theorem State.dropWaits_rsl (s : State) (u : SeqId) : (s.dropWaits u).rsl = s.rsl := rfl
@[simp] theorem State.dropWaits_mgt (s : State) (u : SeqId) : (s.dropWaits u).mgt = s.mgt := rfl
@[simp] theorem State.dropWaits_sec (s : State) (u : SeqId) : (s.dropWaits u).sec = s.sec := rfl
@[simp] theorem State.dropWaits_rst (s : State) (u : SeqId) : (s.dropWaits u).rst = s.rst := rfl
@[simp] theorem State.dropWaits_gate (s : State) (u : SeqId) : (s.dropWaits u).gate = s.gate := rfl
@[simp] theorem State.dropWaits_bar4 (s : State) (u : SeqId) : (s.dropWaits u).bar4 = s.bar4 := rfl
@[simp] theorem State.dropWaits_freeCtr (s : State) (u : SeqId) : (s.dropWaits u).freeCtr = s.freeCtr := rfl
@[simp] theorem State.dropWaits_memGen (s : State) (u : SeqId) : (s.dropWaits u).memGen = s.memGen := rfl
@[simp] theorem State.dropWaits_dieCnt (s : State) (u : SeqId) : (s.dropWaits u).dieCnt = s.dieCnt := rfl
@[simp] theorem State.dropWaits_scrubAt (s : State) (u : SeqId) : (s.dropWaits u).scrubAt = s.scrubAt := rfl
@[simp] theorem State.dropWaits_sliceAt (s : State) (u : SeqId) : (s.dropWaits u).sliceAt = s.sliceAt := rfl

/-! ### State.commit -/

@[simp] theorem State.commit_pending (s : State) : (s.commit).pending = s.pending := rfl
@[simp] theorem State.commit_regs (s : State) : (s.commit).regs = s.regs := rfl
@[simp] theorem State.commit_cnt (s : State) : (s.commit).cnt = s.cnt := rfl
@[simp] theorem State.commit_mem (s : State) : (s.commit).mem = s.mem := rfl
@[simp] theorem State.commit_poison (s : State) : (s.commit).poison = s.poison := rfl
@[simp] theorem State.commit_fresh (s : State) : (s.commit).fresh = s.fresh := rfl
@[simp] theorem State.commit_seqs (s : State) : (s.commit).seqs = s.seqs := rfl
@[simp] theorem State.commit_launches (s : State) : (s.commit).launches = s.launches := rfl
@[simp] theorem State.commit_siphons (s : State) : (s.commit).siphons = s.siphons := rfl
@[simp] theorem State.commit_passes (s : State) : (s.commit).passes = s.passes := rfl
@[simp] theorem State.commit_nextPass (s : State) : (s.commit).nextPass = s.nextPass := rfl
@[simp] theorem State.commit_mesh (s : State) : (s.commit).mesh = s.mesh := rfl
@[simp] theorem State.commit_meshTurn (s : State) : (s.commit).meshTurn = s.meshTurn := rfl
@[simp] theorem State.commit_watches (s : State) : (s.commit).watches = s.watches := rfl
@[simp] theorem State.commit_cmds (s : State) : (s.commit).cmds = s.cmds := rfl
@[simp] theorem State.commit_turn (s : State) : (s.commit).turn = s.turn := rfl
@[simp] theorem State.commit_sinceMsg (s : State) : (s.commit).sinceMsg = s.sinceMsg := rfl
@[simp] theorem State.commit_pools (s : State) : (s.commit).pools = s.pools := rfl
@[simp] theorem State.commit_unitEpoch (s : State) : (s.commit).unitEpoch = s.unitEpoch := rfl
@[simp] theorem State.commit_fuses (s : State) : (s.commit).fuses = s.fuses := rfl
@[simp] theorem State.commit_held (s : State) : (s.commit).held = s.held := rfl
@[simp] theorem State.commit_offline (s : State) : (s.commit).offline = s.offline := rfl
@[simp] theorem State.commit_refusing (s : State) : (s.commit).refusing = s.refusing := rfl
@[simp] theorem State.commit_testing (s : State) : (s.commit).testing = s.testing := rfl
@[simp] theorem State.commit_cores (s : State) : (s.commit).cores = s.cores := rfl
@[simp] theorem State.commit_out (s : State) : (s.commit).out = s.out := rfl
@[simp] theorem State.commit_reqs (s : State) : (s.commit).reqs = s.reqs := rfl
@[simp] theorem State.commit_nextReq (s : State) : (s.commit).nextReq = s.nextReq := rfl
@[simp] theorem State.commit_fnMask (s : State) : (s.commit).fnMask = s.fnMask := rfl
@[simp] theorem State.commit_msixWait (s : State) : (s.commit).msixWait = s.msixWait := rfl
@[simp] theorem State.commit_cancels (s : State) : (s.commit).cancels = s.cancels := rfl
@[simp] theorem State.commit_upds (s : State) : (s.commit).upds = s.upds := rfl
@[simp] theorem State.commit_links (s : State) : (s.commit).links = s.links := rfl
@[simp] theorem State.commit_dropStep (s : State) : (s.commit).dropStep = s.dropStep := rfl
@[simp] theorem State.commit_chGen (s : State) : (s.commit).chGen = s.chGen := rfl
@[simp] theorem State.commit_xch (s : State) : (s.commit).xch = s.xch := rfl
@[simp] theorem State.commit_rsl (s : State) : (s.commit).rsl = s.rsl := rfl
@[simp] theorem State.commit_mgt (s : State) : (s.commit).mgt = s.mgt := rfl
@[simp] theorem State.commit_sec (s : State) : (s.commit).sec = s.sec := rfl
@[simp] theorem State.commit_rst (s : State) : (s.commit).rst = s.rst := rfl
@[simp] theorem State.commit_gate (s : State) : (s.commit).gate = s.gate := rfl
@[simp] theorem State.commit_bar4 (s : State) : (s.commit).bar4 = s.bar4 := rfl
@[simp] theorem State.commit_freeCtr (s : State) : (s.commit).freeCtr = s.freeCtr := rfl
@[simp] theorem State.commit_memGen (s : State) : (s.commit).memGen = s.memGen := rfl
@[simp] theorem State.commit_dieCnt (s : State) : (s.commit).dieCnt = s.dieCnt := rfl
@[simp] theorem State.commit_scrubAt (s : State) : (s.commit).scrubAt = s.scrubAt := rfl
@[simp] theorem State.commit_sliceAt (s : State) : (s.commit).sliceAt = s.sliceAt := rfl

/-! ### State.onX -/

@[simp] theorem State.onX_pending (s : State) (b : XBlock) (f : XBlock → XBlock) : (s.onX b f).pending = s.pending := rfl
@[simp] theorem State.onX_regs (s : State) (b : XBlock) (f : XBlock → XBlock) : (s.onX b f).regs = s.regs := rfl
@[simp] theorem State.onX_cnt (s : State) (b : XBlock) (f : XBlock → XBlock) : (s.onX b f).cnt = s.cnt := rfl
@[simp] theorem State.onX_mem (s : State) (b : XBlock) (f : XBlock → XBlock) : (s.onX b f).mem = s.mem := rfl
@[simp] theorem State.onX_poison (s : State) (b : XBlock) (f : XBlock → XBlock) : (s.onX b f).poison = s.poison := rfl
@[simp] theorem State.onX_fresh (s : State) (b : XBlock) (f : XBlock → XBlock) : (s.onX b f).fresh = s.fresh := rfl
@[simp] theorem State.onX_seqs (s : State) (b : XBlock) (f : XBlock → XBlock) : (s.onX b f).seqs = s.seqs := rfl
@[simp] theorem State.onX_launches (s : State) (b : XBlock) (f : XBlock → XBlock) : (s.onX b f).launches = s.launches := rfl
@[simp] theorem State.onX_siphons (s : State) (b : XBlock) (f : XBlock → XBlock) : (s.onX b f).siphons = s.siphons := rfl
@[simp] theorem State.onX_passes (s : State) (b : XBlock) (f : XBlock → XBlock) : (s.onX b f).passes = s.passes := rfl
@[simp] theorem State.onX_nextPass (s : State) (b : XBlock) (f : XBlock → XBlock) : (s.onX b f).nextPass = s.nextPass := rfl
@[simp] theorem State.onX_mesh (s : State) (b : XBlock) (f : XBlock → XBlock) : (s.onX b f).mesh = s.mesh := rfl
@[simp] theorem State.onX_meshTurn (s : State) (b : XBlock) (f : XBlock → XBlock) : (s.onX b f).meshTurn = s.meshTurn := rfl
@[simp] theorem State.onX_watches (s : State) (b : XBlock) (f : XBlock → XBlock) : (s.onX b f).watches = s.watches := rfl
@[simp] theorem State.onX_cmds (s : State) (b : XBlock) (f : XBlock → XBlock) : (s.onX b f).cmds = s.cmds := rfl
@[simp] theorem State.onX_turn (s : State) (b : XBlock) (f : XBlock → XBlock) : (s.onX b f).turn = s.turn := rfl
@[simp] theorem State.onX_sinceMsg (s : State) (b : XBlock) (f : XBlock → XBlock) : (s.onX b f).sinceMsg = s.sinceMsg := rfl
@[simp] theorem State.onX_pools (s : State) (b : XBlock) (f : XBlock → XBlock) : (s.onX b f).pools = s.pools := rfl
@[simp] theorem State.onX_epoch (s : State) (b : XBlock) (f : XBlock → XBlock) : (s.onX b f).epoch = s.epoch := rfl
@[simp] theorem State.onX_snaps (s : State) (b : XBlock) (f : XBlock → XBlock) : (s.onX b f).snaps = s.snaps := rfl
@[simp] theorem State.onX_unitEpoch (s : State) (b : XBlock) (f : XBlock → XBlock) : (s.onX b f).unitEpoch = s.unitEpoch := rfl
@[simp] theorem State.onX_fuses (s : State) (b : XBlock) (f : XBlock → XBlock) : (s.onX b f).fuses = s.fuses := rfl
@[simp] theorem State.onX_held (s : State) (b : XBlock) (f : XBlock → XBlock) : (s.onX b f).held = s.held := rfl
@[simp] theorem State.onX_offline (s : State) (b : XBlock) (f : XBlock → XBlock) : (s.onX b f).offline = s.offline := rfl
@[simp] theorem State.onX_refusing (s : State) (b : XBlock) (f : XBlock → XBlock) : (s.onX b f).refusing = s.refusing := rfl
@[simp] theorem State.onX_testing (s : State) (b : XBlock) (f : XBlock → XBlock) : (s.onX b f).testing = s.testing := rfl
@[simp] theorem State.onX_cores (s : State) (b : XBlock) (f : XBlock → XBlock) : (s.onX b f).cores = s.cores := rfl
@[simp] theorem State.onX_out (s : State) (b : XBlock) (f : XBlock → XBlock) : (s.onX b f).out = s.out := rfl
@[simp] theorem State.onX_reqs (s : State) (b : XBlock) (f : XBlock → XBlock) : (s.onX b f).reqs = s.reqs := rfl
@[simp] theorem State.onX_nextReq (s : State) (b : XBlock) (f : XBlock → XBlock) : (s.onX b f).nextReq = s.nextReq := rfl
@[simp] theorem State.onX_fnMask (s : State) (b : XBlock) (f : XBlock → XBlock) : (s.onX b f).fnMask = s.fnMask := rfl
@[simp] theorem State.onX_msixWait (s : State) (b : XBlock) (f : XBlock → XBlock) : (s.onX b f).msixWait = s.msixWait := rfl
@[simp] theorem State.onX_cancels (s : State) (b : XBlock) (f : XBlock → XBlock) : (s.onX b f).cancels = s.cancels := rfl
@[simp] theorem State.onX_upds (s : State) (b : XBlock) (f : XBlock → XBlock) : (s.onX b f).upds = s.upds := rfl
@[simp] theorem State.onX_links (s : State) (b : XBlock) (f : XBlock → XBlock) : (s.onX b f).links = s.links := rfl
@[simp] theorem State.onX_dropStep (s : State) (b : XBlock) (f : XBlock → XBlock) : (s.onX b f).dropStep = s.dropStep := rfl
@[simp] theorem State.onX_chGen (s : State) (b : XBlock) (f : XBlock → XBlock) : (s.onX b f).chGen = s.chGen := rfl
@[simp] theorem State.onX_rsl (s : State) (b : XBlock) (f : XBlock → XBlock) : (s.onX b f).rsl = s.rsl := rfl
@[simp] theorem State.onX_mgt (s : State) (b : XBlock) (f : XBlock → XBlock) : (s.onX b f).mgt = s.mgt := rfl
@[simp] theorem State.onX_sec (s : State) (b : XBlock) (f : XBlock → XBlock) : (s.onX b f).sec = s.sec := rfl
@[simp] theorem State.onX_rst (s : State) (b : XBlock) (f : XBlock → XBlock) : (s.onX b f).rst = s.rst := rfl
@[simp] theorem State.onX_gate (s : State) (b : XBlock) (f : XBlock → XBlock) : (s.onX b f).gate = s.gate := rfl
@[simp] theorem State.onX_bar4 (s : State) (b : XBlock) (f : XBlock → XBlock) : (s.onX b f).bar4 = s.bar4 := rfl
@[simp] theorem State.onX_freeCtr (s : State) (b : XBlock) (f : XBlock → XBlock) : (s.onX b f).freeCtr = s.freeCtr := rfl
@[simp] theorem State.onX_memGen (s : State) (b : XBlock) (f : XBlock → XBlock) : (s.onX b f).memGen = s.memGen := rfl
@[simp] theorem State.onX_dieCnt (s : State) (b : XBlock) (f : XBlock → XBlock) : (s.onX b f).dieCnt = s.dieCnt := rfl
@[simp] theorem State.onX_scrubAt (s : State) (b : XBlock) (f : XBlock → XBlock) : (s.onX b f).scrubAt = s.scrubAt := rfl
@[simp] theorem State.onX_sliceAt (s : State) (b : XBlock) (f : XBlock → XBlock) : (s.onX b f).sliceAt = s.sliceAt := rfl

/-! ### State.onBatch -/

@[simp] theorem State.onBatch_pending (s : State) (t : Nat) (f : Batch → Batch) : (s.onBatch t f).pending = s.pending := rfl
@[simp] theorem State.onBatch_regs (s : State) (t : Nat) (f : Batch → Batch) : (s.onBatch t f).regs = s.regs := rfl
@[simp] theorem State.onBatch_cnt (s : State) (t : Nat) (f : Batch → Batch) : (s.onBatch t f).cnt = s.cnt := rfl
@[simp] theorem State.onBatch_mem (s : State) (t : Nat) (f : Batch → Batch) : (s.onBatch t f).mem = s.mem := rfl
@[simp] theorem State.onBatch_poison (s : State) (t : Nat) (f : Batch → Batch) : (s.onBatch t f).poison = s.poison := rfl
@[simp] theorem State.onBatch_fresh (s : State) (t : Nat) (f : Batch → Batch) : (s.onBatch t f).fresh = s.fresh := rfl
@[simp] theorem State.onBatch_seqs (s : State) (t : Nat) (f : Batch → Batch) : (s.onBatch t f).seqs = s.seqs := rfl
@[simp] theorem State.onBatch_launches (s : State) (t : Nat) (f : Batch → Batch) : (s.onBatch t f).launches = s.launches := rfl
@[simp] theorem State.onBatch_siphons (s : State) (t : Nat) (f : Batch → Batch) : (s.onBatch t f).siphons = s.siphons := rfl
@[simp] theorem State.onBatch_passes (s : State) (t : Nat) (f : Batch → Batch) : (s.onBatch t f).passes = s.passes := rfl
@[simp] theorem State.onBatch_nextPass (s : State) (t : Nat) (f : Batch → Batch) : (s.onBatch t f).nextPass = s.nextPass := rfl
@[simp] theorem State.onBatch_mesh (s : State) (t : Nat) (f : Batch → Batch) : (s.onBatch t f).mesh = s.mesh := rfl
@[simp] theorem State.onBatch_meshTurn (s : State) (t : Nat) (f : Batch → Batch) : (s.onBatch t f).meshTurn = s.meshTurn := rfl
@[simp] theorem State.onBatch_watches (s : State) (t : Nat) (f : Batch → Batch) : (s.onBatch t f).watches = s.watches := rfl
@[simp] theorem State.onBatch_cmds (s : State) (t : Nat) (f : Batch → Batch) : (s.onBatch t f).cmds = s.cmds := rfl
@[simp] theorem State.onBatch_turn (s : State) (t : Nat) (f : Batch → Batch) : (s.onBatch t f).turn = s.turn := rfl
@[simp] theorem State.onBatch_sinceMsg (s : State) (t : Nat) (f : Batch → Batch) : (s.onBatch t f).sinceMsg = s.sinceMsg := rfl
@[simp] theorem State.onBatch_pools (s : State) (t : Nat) (f : Batch → Batch) : (s.onBatch t f).pools = s.pools := rfl
@[simp] theorem State.onBatch_epoch (s : State) (t : Nat) (f : Batch → Batch) : (s.onBatch t f).epoch = s.epoch := rfl
@[simp] theorem State.onBatch_snaps (s : State) (t : Nat) (f : Batch → Batch) : (s.onBatch t f).snaps = s.snaps := rfl
@[simp] theorem State.onBatch_unitEpoch (s : State) (t : Nat) (f : Batch → Batch) : (s.onBatch t f).unitEpoch = s.unitEpoch := rfl
@[simp] theorem State.onBatch_fuses (s : State) (t : Nat) (f : Batch → Batch) : (s.onBatch t f).fuses = s.fuses := rfl
@[simp] theorem State.onBatch_held (s : State) (t : Nat) (f : Batch → Batch) : (s.onBatch t f).held = s.held := rfl
@[simp] theorem State.onBatch_offline (s : State) (t : Nat) (f : Batch → Batch) : (s.onBatch t f).offline = s.offline := rfl
@[simp] theorem State.onBatch_refusing (s : State) (t : Nat) (f : Batch → Batch) : (s.onBatch t f).refusing = s.refusing := rfl
@[simp] theorem State.onBatch_testing (s : State) (t : Nat) (f : Batch → Batch) : (s.onBatch t f).testing = s.testing := rfl
@[simp] theorem State.onBatch_cores (s : State) (t : Nat) (f : Batch → Batch) : (s.onBatch t f).cores = s.cores := rfl
@[simp] theorem State.onBatch_out (s : State) (t : Nat) (f : Batch → Batch) : (s.onBatch t f).out = s.out := rfl
@[simp] theorem State.onBatch_reqs (s : State) (t : Nat) (f : Batch → Batch) : (s.onBatch t f).reqs = s.reqs := rfl
@[simp] theorem State.onBatch_nextReq (s : State) (t : Nat) (f : Batch → Batch) : (s.onBatch t f).nextReq = s.nextReq := rfl
@[simp] theorem State.onBatch_fnMask (s : State) (t : Nat) (f : Batch → Batch) : (s.onBatch t f).fnMask = s.fnMask := rfl
@[simp] theorem State.onBatch_msixWait (s : State) (t : Nat) (f : Batch → Batch) : (s.onBatch t f).msixWait = s.msixWait := rfl
@[simp] theorem State.onBatch_cancels (s : State) (t : Nat) (f : Batch → Batch) : (s.onBatch t f).cancels = s.cancels := rfl
@[simp] theorem State.onBatch_upds (s : State) (t : Nat) (f : Batch → Batch) : (s.onBatch t f).upds = s.upds := rfl
@[simp] theorem State.onBatch_links (s : State) (t : Nat) (f : Batch → Batch) : (s.onBatch t f).links = s.links := rfl
@[simp] theorem State.onBatch_dropStep (s : State) (t : Nat) (f : Batch → Batch) : (s.onBatch t f).dropStep = s.dropStep := rfl
@[simp] theorem State.onBatch_chGen (s : State) (t : Nat) (f : Batch → Batch) : (s.onBatch t f).chGen = s.chGen := rfl
@[simp] theorem State.onBatch_rsl (s : State) (t : Nat) (f : Batch → Batch) : (s.onBatch t f).rsl = s.rsl := rfl
@[simp] theorem State.onBatch_mgt (s : State) (t : Nat) (f : Batch → Batch) : (s.onBatch t f).mgt = s.mgt := rfl
@[simp] theorem State.onBatch_sec (s : State) (t : Nat) (f : Batch → Batch) : (s.onBatch t f).sec = s.sec := rfl
@[simp] theorem State.onBatch_rst (s : State) (t : Nat) (f : Batch → Batch) : (s.onBatch t f).rst = s.rst := rfl
@[simp] theorem State.onBatch_gate (s : State) (t : Nat) (f : Batch → Batch) : (s.onBatch t f).gate = s.gate := rfl
@[simp] theorem State.onBatch_bar4 (s : State) (t : Nat) (f : Batch → Batch) : (s.onBatch t f).bar4 = s.bar4 := rfl
@[simp] theorem State.onBatch_freeCtr (s : State) (t : Nat) (f : Batch → Batch) : (s.onBatch t f).freeCtr = s.freeCtr := rfl
@[simp] theorem State.onBatch_memGen (s : State) (t : Nat) (f : Batch → Batch) : (s.onBatch t f).memGen = s.memGen := rfl
@[simp] theorem State.onBatch_dieCnt (s : State) (t : Nat) (f : Batch → Batch) : (s.onBatch t f).dieCnt = s.dieCnt := rfl
@[simp] theorem State.onBatch_scrubAt (s : State) (t : Nat) (f : Batch → Batch) : (s.onBatch t f).scrubAt = s.scrubAt := rfl
@[simp] theorem State.onBatch_sliceAt (s : State) (t : Nat) (f : Batch → Batch) : (s.onBatch t f).sliceAt = s.sliceAt := rfl

/-! ### State.setPass -/

@[simp] theorem State.setPass_pending (s : State) (p : Pass) : (s.setPass p).pending = s.pending := rfl
@[simp] theorem State.setPass_regs (s : State) (p : Pass) : (s.setPass p).regs = s.regs := rfl
@[simp] theorem State.setPass_cnt (s : State) (p : Pass) : (s.setPass p).cnt = s.cnt := rfl
@[simp] theorem State.setPass_mem (s : State) (p : Pass) : (s.setPass p).mem = s.mem := rfl
@[simp] theorem State.setPass_poison (s : State) (p : Pass) : (s.setPass p).poison = s.poison := rfl
@[simp] theorem State.setPass_fresh (s : State) (p : Pass) : (s.setPass p).fresh = s.fresh := rfl
@[simp] theorem State.setPass_seqs (s : State) (p : Pass) : (s.setPass p).seqs = s.seqs := rfl
@[simp] theorem State.setPass_launches (s : State) (p : Pass) : (s.setPass p).launches = s.launches := rfl
@[simp] theorem State.setPass_siphons (s : State) (p : Pass) : (s.setPass p).siphons = s.siphons := rfl
@[simp] theorem State.setPass_nextPass (s : State) (p : Pass) : (s.setPass p).nextPass = s.nextPass := rfl
@[simp] theorem State.setPass_mesh (s : State) (p : Pass) : (s.setPass p).mesh = s.mesh := rfl
@[simp] theorem State.setPass_meshTurn (s : State) (p : Pass) : (s.setPass p).meshTurn = s.meshTurn := rfl
@[simp] theorem State.setPass_watches (s : State) (p : Pass) : (s.setPass p).watches = s.watches := rfl
@[simp] theorem State.setPass_cmds (s : State) (p : Pass) : (s.setPass p).cmds = s.cmds := rfl
@[simp] theorem State.setPass_turn (s : State) (p : Pass) : (s.setPass p).turn = s.turn := rfl
@[simp] theorem State.setPass_sinceMsg (s : State) (p : Pass) : (s.setPass p).sinceMsg = s.sinceMsg := rfl
@[simp] theorem State.setPass_pools (s : State) (p : Pass) : (s.setPass p).pools = s.pools := rfl
@[simp] theorem State.setPass_epoch (s : State) (p : Pass) : (s.setPass p).epoch = s.epoch := rfl
@[simp] theorem State.setPass_snaps (s : State) (p : Pass) : (s.setPass p).snaps = s.snaps := rfl
@[simp] theorem State.setPass_unitEpoch (s : State) (p : Pass) : (s.setPass p).unitEpoch = s.unitEpoch := rfl
@[simp] theorem State.setPass_fuses (s : State) (p : Pass) : (s.setPass p).fuses = s.fuses := rfl
@[simp] theorem State.setPass_held (s : State) (p : Pass) : (s.setPass p).held = s.held := rfl
@[simp] theorem State.setPass_offline (s : State) (p : Pass) : (s.setPass p).offline = s.offline := rfl
@[simp] theorem State.setPass_refusing (s : State) (p : Pass) : (s.setPass p).refusing = s.refusing := rfl
@[simp] theorem State.setPass_testing (s : State) (p : Pass) : (s.setPass p).testing = s.testing := rfl
@[simp] theorem State.setPass_cores (s : State) (p : Pass) : (s.setPass p).cores = s.cores := rfl
@[simp] theorem State.setPass_out (s : State) (p : Pass) : (s.setPass p).out = s.out := rfl
@[simp] theorem State.setPass_reqs (s : State) (p : Pass) : (s.setPass p).reqs = s.reqs := rfl
@[simp] theorem State.setPass_nextReq (s : State) (p : Pass) : (s.setPass p).nextReq = s.nextReq := rfl
@[simp] theorem State.setPass_fnMask (s : State) (p : Pass) : (s.setPass p).fnMask = s.fnMask := rfl
@[simp] theorem State.setPass_msixWait (s : State) (p : Pass) : (s.setPass p).msixWait = s.msixWait := rfl
@[simp] theorem State.setPass_cancels (s : State) (p : Pass) : (s.setPass p).cancels = s.cancels := rfl
@[simp] theorem State.setPass_upds (s : State) (p : Pass) : (s.setPass p).upds = s.upds := rfl
@[simp] theorem State.setPass_links (s : State) (p : Pass) : (s.setPass p).links = s.links := rfl
@[simp] theorem State.setPass_dropStep (s : State) (p : Pass) : (s.setPass p).dropStep = s.dropStep := rfl
@[simp] theorem State.setPass_chGen (s : State) (p : Pass) : (s.setPass p).chGen = s.chGen := rfl
@[simp] theorem State.setPass_xch (s : State) (p : Pass) : (s.setPass p).xch = s.xch := rfl
@[simp] theorem State.setPass_rsl (s : State) (p : Pass) : (s.setPass p).rsl = s.rsl := rfl
@[simp] theorem State.setPass_mgt (s : State) (p : Pass) : (s.setPass p).mgt = s.mgt := rfl
@[simp] theorem State.setPass_sec (s : State) (p : Pass) : (s.setPass p).sec = s.sec := rfl
@[simp] theorem State.setPass_rst (s : State) (p : Pass) : (s.setPass p).rst = s.rst := rfl
@[simp] theorem State.setPass_gate (s : State) (p : Pass) : (s.setPass p).gate = s.gate := rfl
@[simp] theorem State.setPass_bar4 (s : State) (p : Pass) : (s.setPass p).bar4 = s.bar4 := rfl
@[simp] theorem State.setPass_freeCtr (s : State) (p : Pass) : (s.setPass p).freeCtr = s.freeCtr := rfl
@[simp] theorem State.setPass_memGen (s : State) (p : Pass) : (s.setPass p).memGen = s.memGen := rfl
@[simp] theorem State.setPass_dieCnt (s : State) (p : Pass) : (s.setPass p).dieCnt = s.dieCnt := rfl
@[simp] theorem State.setPass_scrubAt (s : State) (p : Pass) : (s.setPass p).scrubAt = s.scrubAt := rfl
@[simp] theorem State.setPass_sliceAt (s : State) (p : Pass) : (s.setPass p).sliceAt = s.sliceAt := rfl

end Sys2Proof.Machine
end

