-- ==== Sys2Proof/Laws/Ops.lean ====
section
/-! SUPPORT. What the shared operations do: registers, counters, sequencers, memory. One lemma says what an operation writes,
one what it leaves alone; Laws/State.lean has the fields it does not touch. -/

namespace Sys2Proof.Machine
open Sys2Proof

/-! ### Registers and counters -/

@[simp] theorem State.reg_setReg_same (s : State) (off : Nat) (v : Word) : (s.setReg off v).reg off = v :=
  SMap.get_put_same _ _ _ _

theorem State.reg_setReg_ne (s : State) (off o : Nat) (v : Word) (h : o ≠ off) : (s.setReg off v).reg o = s.reg o :=
  SMap.get_put_ne _ _ _ _ _ _ h

@[simp] theorem State.reg_setFld_same (s : State) (off hi lo x : Nat) :
    (s.setFld off hi lo x).reg off = setBits hi lo (s.reg off) x := State.reg_setReg_same _ _ _

theorem State.reg_setFld_ne (s : State) (off hi lo x o : Nat) (h : o ≠ off) : (s.setFld off hi lo x).reg o = s.reg o :=
  State.reg_setReg_ne _ _ _ _ h

/-- A counter saturates at 2^48 - 1 (R14). -/
@[simp] theorem State.count_bump_same (s : State) (off n : Nat) :
    (s.bump off n).count off = min (s.count off + n) (2 ^ 48 - 1) := SMap.get_put_same _ _ _ _

theorem State.count_bump_ne (s : State) (off n o : Nat) (h : o ≠ off) : (s.bump off n).count o = s.count o :=
  SMap.get_put_ne _ _ _ _ _ _ h

@[simp] theorem State.reg_bump (s : State) (off n o : Nat) : (s.bump off n).reg o = s.reg o := rfl

@[simp] theorem State.count_setReg (s : State) (off o : Nat) (v : Word) : (s.setReg off v).count o = s.count o := rfl

@[simp] theorem State.count_setFld (s : State) (off hi lo x o : Nat) : (s.setFld off hi lo x).count o = s.count o := rfl

/-- A first-record register writes only itself. -/
theorem State.reg_recordFirst_ne (s : State) (off o : Nat) (v : Word) (h : o ≠ off) :
    (s.recordFirst off v).reg o = s.reg o := by
  unfold State.recordFirst
  split
  · exact State.reg_setFld_ne _ _ _ _ _ _ h
  · exact State.reg_setReg_ne _ _ _ _ h

/-! ### Sequencers -/

@[simp] theorem State.seq_setSeq_same (s : State) (u : SeqId) (q : Seq) : (s.setSeq u q).seq u = q :=
  SMap.get_put_same _ _ _ _

theorem State.seq_setSeq_ne (s : State) (u v : SeqId) (q : Seq) (h : v.num ≠ u.num) : (s.setSeq u q).seq v = s.seq v :=
  SMap.get_put_ne _ _ _ _ _ _ h

@[simp] theorem State.seq_onSeq_same (s : State) (u : SeqId) (f : Seq → Seq) : (s.onSeq u f).seq u = f (s.seq u) :=
  State.seq_setSeq_same _ _ _

theorem State.seq_onSeq_ne (s : State) (u v : SeqId) (f : Seq → Seq) (h : v.num ≠ u.num) :
    (s.onSeq u f).seq v = s.seq v := State.seq_setSeq_ne _ _ _ _ h

@[simp] theorem State.seq_bump (s : State) (off n : Nat) (u : SeqId) : (s.bump off n).seq u = s.seq u := rfl

@[simp] theorem State.seq_setReg (s : State) (off : Nat) (v : Word) (u : SeqId) : (s.setReg off v).seq u = s.seq u := rfl

/-- Every unit number names one sequencer (R288). -/
theorem SeqId.num_injective (u v : SeqId) (h : u.num = v.num) : u = v := by
  cases u with
  | core c =>
    cases v with
    | core d => simp only [SeqId.num] at h; exact congrArg _ (Fin.ext h)
    | cp n => simp only [SeqId.num] at h; have := c.isLt; omega
  | cp n =>
    cases v with
    | core d => simp only [SeqId.num] at h; have := d.isLt; omega
    | cp m => simp only [SeqId.num] at h; exact congrArg _ (Fin.ext (by omega))

@[simp] theorem Seq.getS_setS_same (q : Seq) (r : SReg) (v : Word) : (q.setS r v).getS r = if r = 0 then 0 else v := by
  by_cases h : r = 0
  · rw [if_pos h]; simp only [Seq.getS, if_pos h]
  · rw [if_neg h]; simp only [Seq.setS, Seq.getS, if_neg h, SMap.get_put_same]

theorem Seq.getS_setS_ne (q : Seq) (r x : SReg) (v : Word) (h : x ≠ r) : (q.setS r v).getS x = q.getS x := by
  by_cases hr : r = 0
  · simp only [Seq.setS, if_pos hr]
  · have hn : x.toNat ≠ r.toNat := fun e => h (BitVec.eq_of_toNat_eq e)
    simp only [Seq.setS, Seq.getS, if_neg hr, SMap.get_put_ne _ _ _ _ _ _ hn]

@[simp] theorem Seq.getA_setA_same (q : Seq) (r : AReg) (v : BitVec 48) : (q.setA r v).getA r = v := by
  simp [Seq.setA, Seq.getA]

theorem Seq.getA_setA_ne (q : Seq) (r x : AReg) (v : BitVec 48) (h : x ≠ r) : (q.setA r v).getA x = q.getA x := by
  have hn : x.toNat ≠ r.toNat := fun e => h (BitVec.eq_of_toNat_eq e)
  simp [Seq.setA, Seq.getA, SMap.get_put_ne _ _ _ _ _ _ hn]

@[simp] theorem Seq.getP_setP_same (q : Seq) (r : PReg) (v : Bool) : (q.setP r v).getP r = if r = 0 then true else v := by
  by_cases h : r = 0
  · rw [if_pos h]; simp only [Seq.getP, if_pos h]
  · rw [if_neg h]; simp only [Seq.setP, Seq.getP, if_neg h, SMap.get_put_same]

theorem Seq.getP_setP_ne (q : Seq) (r x : PReg) (v : Bool) (h : x ≠ r) : (q.setP r v).getP x = q.getP x := by
  by_cases hr : r = 0
  · simp only [Seq.setP, if_pos hr]
  · have hn : x.toNat ≠ r.toNat := fun e => h (BitVec.eq_of_toNat_eq e)
    simp only [Seq.setP, Seq.getP, if_neg hr, SMap.get_put_ne _ _ _ _ _ _ hn]

/-- An instruction whose predicate holds, at a program counter inside the store, runs its body once it is ready. -/
theorem issueWhen_runs (w : Issue) (ready : State → Bool) (stall : State → State) (s : State) (body : State → State)
    (hr : (s.seq w.u).run = .running) (hf : w.fetch ≠ .uncorrectable) (hp : (s.seq w.u).pc < pcLimit w.u)
    (hg : xor ((s.seq w.u).getP w.ps) w.neg = true) (hy : ready s = true) :
    issueWhen w ready stall s body = .next (body (issued w s)) := by
  unfold issueWhen
  simp [hr, hf, Nat.not_le.mpr hp, hg, hy]

theorem issue_runs (w : Issue) (s : State) (body : State → State)
    (hr : (s.seq w.u).run = .running) (hf : w.fetch ≠ .uncorrectable) (hp : (s.seq w.u).pc < pcLimit w.u)
    (hg : xor ((s.seq w.u).getP w.ps) w.neg = true) : issue w s body = .next (body (issued w s)) :=
  issueWhen_runs w _ _ s body hr hf hp hg rfl

/-! ### Memory -/

/-- A byte written reads as written, but in the reserved window of the control-cluster SRAM (R335). -/
theorem State.byte_putByte_same (s : State) (a : Nat) (v : Byte)
    (h : ¬(sramBase + 0x03FD_0000 ≤ a ∧ a < sramBase + 0x03FE_0000)) : (s.putByte a v).byte a = v := by
  unfold State.putByte
  rw [if_neg h]
  exact SMap.get_put_same _ _ _ _

/-- A byte whose cell is not the one written is unchanged. -/
theorem State.byte_putByte_ne (s : State) (a b : Nat) (v : Byte) (h : s.cell b ≠ s.cell a) :
    (s.putByte a v).byte b = s.byte b := by
  unfold State.putByte
  split
  · rfl
  · exact SMap.get_put_ne _ _ _ _ _ _ h

/-- A byte write keeps the canonical form of memory. -/
theorem State.wf_putByte (s : State) (a : Nat) (v : Byte) (h : Memory.wf s = true) : Memory.wf (s.putByte a v) = true := by
  unfold State.putByte
  split
  · exact h
  · exact SMap.wf_put s.unlisted s.mem (s.cell a) v h

/-- Every write of bytes keeps the canonical form of memory. -/
theorem State.wf_putBytes (bs : List Byte) : ∀ (s : State) (a : Nat), Memory.wf s = true → Memory.wf (s.putBytes a bs) = true := by
  induction bs with
  | nil => intro s a h; exact h
  | cons b bs ih => intro s a h; exact ih _ _ (State.wf_putByte s a b h)

end Sys2Proof.Machine
end

