-- ==== Sys2Proof/WellFormed.lean ====
section
/-! DEFINITION. Well-formed commands: what the types of the operands leave open and the spec bounds. An ill-formed command
stands for nothing that can happen to the block. -/

namespace Sys2Proof

/-- A write of one or more bytes inside a unit of `n` bytes. -/
def Piece.inUnit (p : Piece) (n : Nat) : Bool := decide (p.bytes ≠ []) && decide (p.off + p.bytes.length ≤ n)

/-- The checks, by command. -/
def Instr.wf : Instr → Bool
  | .chamberAccess _ _ _ off len wr _ found =>
    -- whole words, and one row of 128 bytes or an aligned part of it (R185, R187)
    decide (0 < len.val) && len.val % 4 == 0 && 128 % len.val == 0 && off.toNat % len.val == 0 &&
    (match wr with | some bs => decide (bs.length = len.val) | none => true) && decide (found.length ≤ len.val / 4)
  | .gddr7Access _ wr _ _ => (match wr with | some p => p.inUnit 128 | none => true)
  | .cxlLinkUp _ _ width rate => (width == 8 || width == 16) && decide (rate.toNat ≤ 3)
  | .cxlAccess _ wr _ => (match wr with | some p => p.inUnit 64 | none => true)
  | .dataFrameReceive _ body _ _ => decide (body.length = 256)
  | .remoteRequest _ r => (match r.op with
    | .read n => decide (0 < n.val)
    | .write bs => decide (0 < bs.length) && decide (bs.length ≤ 1024)
    | .add _ => true
    | .wait _ => true
    | .push bs => decide (0 < bs.length) && decide (bs.length ≤ 1020)
    | .commit => true)
  | .hostWindowAccess off a =>
    let n := match a with | .read n => n.val | .write bs => bs.length
    decide (0 < n) && decide (off.toNat % 128 + n ≤ 128)
  | .hostAccessMiss _ _ n _ => decide (0 < n.val)
  | .hostLinkUp c => [1, 2, 4, 8, 16].contains c.width.toNat && decide (c.gen ≠ 0) && c.flit == (c.gen == 3)
  | .attest (.link _ b) => decide (b.length = 32)
  | .certs (.tap _) => false
  | .attest (.tap _) => false
  | .debugToken (.doe _) => false
  | .debugToken (.link _ _) => false
  | .governorInterval x => decide (x.temps.length = 64) && decide (x.rails.length = 5)
  | .resetSourceEnd src _ => decide (src.val = 1) || decide (src.val = 2) || decide (src.val = 6)
  | .counterRead off _ => decide (off.toNat % 8 = 0)
  | .registerWrite off p v => decide (off.toNat % 8 = 0) && (p == .whole || decide (v.toNat < 2 ^ 32))
  | .xchHeaderReceive _ hd => hd.rows.all fun r => decide (r.expert < 256)
  | .undefinedEncoding w h => w.neg == h.getLsbD 51 && w.ps == (h >>> 48).setWidth 3
  | .internalFault u _ w => (match w with | some _ => decide (u.val ≠ 1048 ∧ u.val ≠ 1049) | none => true)
  | _ => true

end Sys2Proof
end

