-- ==== Sys2Proof/Tests/Slice0.lean ====
section
/-! SUPPORT. The model's own tests: ill-formed terms that each check of WellFormed refuses, and single steps on small
states whose expected results come from the spec, most of them from its worked examples. -/

set_option maxRecDepth 20000
set_option Elab.async false

namespace Sys2Proof.Tests
open Sys2Proof Sys2Proof.Machine

/-! ### Small states -/

/-- The block with every domain released and memory that reads as 0. -/
def up : State := { State.reset with held := [], rst := {}, memGen := [] }

/-- An issue by a unit with predicate p0. -/
def by_ (u : SeqId) : Issue := ⟨u, false, 0, .clean⟩

/-- An issue by core 0. -/
def w0 : Issue := by_ (.core 0)

/-- An issue by control processor 0. -/
def wc : Issue := by_ (.cp 0)

/-- The released block in which one unit runs a program. -/
def prog (u : SeqId) (q : Machine.Seq) : State := { up with seqs := [(u.num, { q with run := .running })] }

/-- What a command leaves, as far as `f` shows it. -/
def after {α : Type} (i : Instr) (s : State) (f : State → α) : Option α :=
  match exec i s with
  | .next t => some (f t)
  | _ => none

/-- Core 0 runs with values in s1 and s2. -/
def two (a b : Word) : State := prog (.core 0) { s := [(1, a), (2, b)] }

/-- s3 after a register form on s1 and s2. -/
def reg3 (i : Issue → SReg → SReg → SReg → Instr) (a b : Word) : Option Word :=
  after (i w0 3 1 2) (two a b) fun t => (t.seq (.core 0)).getS 3

/-- s3 after an immediate form on s1. -/
def imm3 (i : Issue → SReg → SReg → Imm → Instr) (a : Word) (m : Imm) : Option Word :=
  after (i w0 3 1 m) (two a 0) fun t => (t.seq (.core 0)).getS 3

/-- p3 after a compare of s1 and s2. -/
def cmp3 (i : Issue → PReg → SReg → SReg → Instr) (a b : Word) : Option Bool :=
  after (i w0 3 1 2) (two a b) fun t => (t.seq (.core 0)).getP 3

/-- p3 after a compare of s1 with an immediate. -/
def cmpi3 (i : Issue → PReg → SReg → Imm → Instr) (a : Word) (m : Imm) : Option Bool :=
  after (i w0 3 1 m) (two a 0) fun t => (t.seq (.core 0)).getP 3

/-- Core 0 runs with the predicates p1 = 1 and p2 = 0. -/
def preds : State := prog (.core 0) { p := [(1, true)] }

/-! ### Well-formed commands -/

theorem test_wf_chamber_empty : Instr.wf (.chamberAccess 0 0 false 0 0 none false []) = false := by decide
theorem test_wf_chamber_row : Instr.wf (.chamberAccess 0 0 false 96 64 none false []) = false := by decide
theorem test_wf_chamber_write : Instr.wf (.chamberAccess 0 0 false 0 4 (some [some 0]) false []) = false := by decide
theorem test_wf_codeword : Instr.wf (.gddr7Access 0 (some ⟨127, [0, 0]⟩) ⟨[], []⟩ 0) = false := by decide
theorem test_wf_line : Instr.wf (.cxlAccess 0 (some ⟨0, []⟩) false) = false := by decide
theorem test_wf_frame : Instr.wf (.dataFrameReceive 0 [0] 0 .clean) = false := by decide
theorem test_wf_remote_read : Instr.wf (.remoteRequest 0 ⟨0, 0, 0, 0, .read 0⟩) = false := by decide
theorem test_wf_remote_write : Instr.wf (.remoteRequest 0 ⟨0, 0, 0, 0, .write []⟩) = false := by decide
theorem test_wf_window : Instr.wf (.hostWindowAccess 100 (.read 64)) = false := by decide
theorem test_wf_miss : Instr.wf (.hostAccessMiss .bar0 0 0 false) = false := by decide
theorem test_wf_link_width : Instr.wf (.hostLinkUp ⟨3, 1, false, false, false, 0⟩) = false := by decide
theorem test_wf_link_gen : Instr.wf (.hostLinkUp ⟨1, 0, false, false, false, 0⟩) = false := by decide
theorem test_wf_link_flit : Instr.wf (.hostLinkUp ⟨16, 1, true, false, false, 0⟩) = false := by decide
theorem test_wf_attest_link : Instr.wf (.attest (.link 0 [])) = false := by decide
theorem test_wf_attest_tap : Instr.wf (.attest (.tap [])) = false := by decide
theorem test_wf_certs : Instr.wf (.certs (.tap [])) = false := by decide
theorem test_wf_token_doe : Instr.wf (.debugToken (.doe [])) = false := by decide
theorem test_wf_token_link : Instr.wf (.debugToken (.link 0 [])) = false := by decide
theorem test_wf_governor : Instr.wf (.governorInterval ⟨0, [], [], (0, 0)⟩) = false := by decide
theorem test_wf_source_end : Instr.wf (.resetSourceEnd 3 0) = false := by decide
theorem test_wf_counter : Instr.wf (.counterRead 4 .whole) = false := by decide
theorem test_wf_register_offset : Instr.wf (.registerWrite 4 .whole 0) = false := by decide
theorem test_wf_register_half : Instr.wf (.registerWrite 0 .low 0x1_0000_0000) = false := by decide
theorem test_wf_header : Instr.wf (.xchHeaderReceive 0 ⟨0, 0, 0, 0, false, false, 0, [⟨256, 0, []⟩]⟩) = false := by decide
theorem test_wf_internal : Instr.wf (.internalFault 1048 false (some (.core 0, 0))) = false := by decide
theorem test_wf_good : Instr.wf (.hostWindowAccess 0x6740_0100 (.read 8)) = true := by decide

/-! ### Integer instructions (R285, R287) -/

theorem test_add_wraps : reg3 .add 0xFFFF_FFFF_FFFF_FFFF 2 = some 1 := by decide
theorem test_sub_wraps : reg3 .sub 1 2 = some 0xFFFF_FFFF_FFFF_FFFF := by decide
theorem test_and : reg3 .and 0xC 0xA = some 8 := by decide
theorem test_or : reg3 .or 0xC 0xA = some 0xE := by decide
theorem test_xor : reg3 .xor 0xC 0xA = some 6 := by decide
theorem test_sll_masks : reg3 .sll 1 65 = some 2 := by decide
theorem test_srl : reg3 .srl 0x8000_0000_0000_0000 63 = some 1 := by decide
theorem test_sra : reg3 .sra 0x8000_0000_0000_0000 63 = some 0xFFFF_FFFF_FFFF_FFFF := by decide
theorem test_mul_low : reg3 .mul 0xFFFF_FFFF_FFFF_FFFF 3 = some 0xFFFF_FFFF_FFFF_FFFD := by decide
theorem test_mulhu : reg3 .mulhu 0xFFFF_FFFF_FFFF_FFFF 0xFFFF_FFFF_FFFF_FFFF = some 0xFFFF_FFFF_FFFF_FFFE := by decide
theorem test_divu_zero : reg3 .divu 5 0 = some 0xFFFF_FFFF_FFFF_FFFF := by decide
theorem test_remu_zero : reg3 .remu 5 0 = some 5 := by decide
theorem test_div_overflow : reg3 .div 0x8000_0000_0000_0000 0xFFFF_FFFF_FFFF_FFFF = some 0x8000_0000_0000_0000 := by decide
theorem test_div_toward_zero : reg3 .div 0xFFFF_FFFF_FFFF_FFF9 2 = some 0xFFFF_FFFF_FFFF_FFFD := by decide
theorem test_rem_overflow : reg3 .rem 0x8000_0000_0000_0000 0xFFFF_FFFF_FFFF_FFFF = some 0 := by decide
theorem test_rem_sign : reg3 .rem 0xFFFF_FFFF_FFFF_FFF9 2 = some 0xFFFF_FFFF_FFFF_FFFF := by decide
theorem test_min_signed : reg3 .min 0xFFFF_FFFF_FFFF_FFFF 1 = some 0xFFFF_FFFF_FFFF_FFFF := by decide
theorem test_max_signed : reg3 .max 0xFFFF_FFFF_FFFF_FFFF 1 = some 1 := by decide
theorem test_addi_extends : imm3 .addi 5 0xFFFF_FFFF = some 4 := by decide
theorem test_subi : imm3 .subi 5 7 = some 0xFFFF_FFFF_FFFF_FFFE := by decide
theorem test_andi_extends : imm3 .andi 0xF000_0000_0000_0001 0xFFFF_FFFF = some 0xF000_0000_0000_0001 := by decide
theorem test_ori : imm3 .ori 4 3 = some 7 := by decide
theorem test_xori_not : imm3 .xori 0 0xFFFF_FFFF = some 0xFFFF_FFFF_FFFF_FFFF := by decide
theorem test_slli : imm3 .slli 3 64 = some 3 := by decide
theorem test_srli : imm3 .srli 8 2 = some 2 := by decide
theorem test_srai : imm3 .srai 0xFFFF_FFFF_FFFF_FFF8 2 = some 0xFFFF_FFFF_FFFF_FFFE := by decide
theorem test_muli : imm3 .muli 7 0xFFFF_FFFF = some 0xFFFF_FFFF_FFFF_FFF9 := by decide
theorem test_mulhui : imm3 .mulhui 2 0xFFFF_FFFF = some 1 := by decide
theorem test_divui : imm3 .divui 7 2 = some 3 := by decide
theorem test_remui : imm3 .remui 7 4 = some 3 := by decide
theorem test_divi : imm3 .divi 7 0xFFFF_FFFE = some 0xFFFF_FFFF_FFFF_FFFD := by decide
theorem test_remi : imm3 .remi 7 0xFFFF_FFFE = some 1 := by decide
theorem test_mini : imm3 .mini 3 0xFFFF_FFFF = some 0xFFFF_FFFF_FFFF_FFFF := by decide
theorem test_maxi : imm3 .maxi 3 0xFFFF_FFFF = some 3 := by decide
theorem test_s0_reads_zero : after (.addi w0 0 0 5) (two 0 0) (fun t => (t.seq (.core 0)).getS 0) = some 0 := by decide

/-! ### Compares, predicates and moves (R266, R287) -/

theorem test_ceq : cmp3 .ceq 5 5 = some true := by decide
theorem test_cne : cmp3 .cne 5 5 = some false := by decide
theorem test_clt_signed : cmp3 .clt 0xFFFF_FFFF_FFFF_FFFF 0 = some true := by decide
theorem test_cltu : cmp3 .cltu 0xFFFF_FFFF_FFFF_FFFF 0 = some false := by decide
theorem test_cge : cmp3 .cge 0 0xFFFF_FFFF_FFFF_FFFF = some true := by decide
theorem test_cgeu : cmp3 .cgeu 0 0xFFFF_FFFF_FFFF_FFFF = some false := by decide
theorem test_ceqi : cmpi3 .ceqi 0xFFFF_FFFF_FFFF_FFFF 0xFFFF_FFFF = some true := by decide
theorem test_cnei : cmpi3 .cnei 1 1 = some false := by decide
theorem test_clti : cmpi3 .clti 0xFFFF_FFFF_FFFF_FFFE 0xFFFF_FFFF = some true := by decide
theorem test_cltui : cmpi3 .cltui 1 0xFFFF_FFFF = some true := by decide
theorem test_cgei : cmpi3 .cgei 0 0xFFFF_FFFF = some true := by decide
theorem test_cgeui : cmpi3 .cgeui 0 0xFFFF_FFFF = some false := by decide
theorem test_pand : after (.pand w0 3 1 2) preds (fun t => (t.seq (.core 0)).getP 3) = some false := by decide
theorem test_por : after (.por w0 3 1 2) preds (fun t => (t.seq (.core 0)).getP 3) = some true := by decide
theorem test_pxor : after (.pxor w0 3 1 0) preds (fun t => (t.seq (.core 0)).getP 3) = some false := by decide
theorem test_pnot_p0 : after (.pnot w0 0 1) preds (fun t => (t.seq (.core 0)).getP 0) = some true := by decide
theorem test_mov_narrow : after (.mov w0 (.a 1) (.s 1)) (two 0xFFFF_0000_0000_0001 0) (fun t => (t.seq (.core 0)).getA 1) =
    some 1 := by decide
theorem test_li : after (.li w0 (.s 3) 0x8000_0000) (two 0 0) (fun t => (t.seq (.core 0)).getS 3) =
    some 0xFFFF_FFFF_8000_0000 := by decide
theorem test_lih : after (.lih w0 (.s 1) 7) (two 0x1_0000_0002 0) (fun t => (t.seq (.core 0)).getS 1) =
    some 0x7_0000_0002 := by decide
theorem test_sel : after (.sel w0 3 1 2 4) (two 5 6) (fun t => (t.seq (.core 0)).getS 3) = some 6 := by decide
theorem test_aadd_wraps : after (.aadd w0 1 2 0xFFFF_FFFF) (prog (.core 0) {}) (fun t => (t.seq (.core 0)).getA 1) =
    some 0xFFFF_FFFF_FFFF := by decide
theorem test_aidx : after (.aidx w0 1 1 1) (prog (.core 0) { s := [(1, 3)], a := [(1, 4)] })
    (fun t => (t.seq (.core 0)).getA 1) = some 7 := by decide
theorem test_ascl_unsigned : after (.ascl w0 1 1 0xFFFF_FFFF) (two 2 0) (fun t => (t.seq (.core 0)).getA 1) =
    some 0x1_FFFF_FFFE := by decide

/-! ### Loads, stores and branches (R280 to R288) -/

/-- Core 0 runs with the bytes 01 02 03 84 05 06 07 08 at chamber word 0x100, and a1 = 0x100. -/
def words : State :=
  { prog (.core 0) { s := [(7, 0x1122_3344_5566_7788)], a := [(1, 0x100)] } with
    mem := [(0x2000_0000_0400, 1), (0x2000_0000_0401, 2), (0x2000_0000_0402, 3), (0x2000_0000_0403, 0x84),
      (0x2000_0000_0404, 5), (0x2000_0000_0405, 6), (0x2000_0000_0406, 7), (0x2000_0000_0407, 8)] }

/-- s5 after a load. -/
def s5 (i : Instr) : Option Word := after i words fun t => (t.seq (.core 0)).getS 5

theorem test_ldw : s5 (.ldw w0 5 1 0) = some 0x8403_0201 := by decide
theorem test_ldws : s5 (.ldws w0 5 1 0) = some 0xFFFF_FFFF_8403_0201 := by decide
theorem test_ldd : s5 (.ldd w0 5 1 0) = some 0x0807_0605_8403_0201 := by decide
theorem test_ldd_odd_faults : after (.ldd w0 5 1 1) words (fun t => t.fld (SeqId.regBase (.core 0) + 8) 47 40) = some 0x84 := by decide
theorem test_stw : after (.stw w0 7 1 2) words (fun t => t.word32 0x2000_0000_0408) = some 0x5566_7788 := by decide
theorem test_std : after (.std w0 7 1 2) words (fun t => t.word32 0x2000_0000_040C) = some 0x1122_3344 := by decide
theorem test_glw_chamber : after (.glw w0 5 2 0x400) { words with seqs := [(0, { run := .running, a := [(2, 0x2000_0000_0000)] })] }
    (fun t => (t.seq (.core 0)).getS 5) = some 0x8403_0201 := by decide
theorem test_gld_misaligned : after (.gld w0 5 1 1) words (fun t => t.reg (SeqId.regBase (.core 0) + 0x10)) = some 0x101 := by decide
theorem test_gstw_chamber : after (.gstw w0 7 1 0) { words with seqs := [(0, { run := .running, s := [(7, 0xFFFF)], a := [(1, 0x2000_0000_0800)] })] }
    (fun t => t.word32 0x2000_0000_0800) = some 0xFFFF := by decide
theorem test_br_self : after (.br w0 0) (prog (.core 0) { pc := 9 }) (fun t => (t.seq (.core 0)).pc) = some 9 := by decide
theorem test_brl : after (.brl w0 1 0xFFFF_FFFF) (prog (.core 0) { pc := 9 })
    (fun t => ((t.seq (.core 0)).pc, (t.seq (.core 0)).getS 1)) = some (8, 10) := by decide
theorem test_jr_out : after (.jr w0 1) (two 0x2000 0) (fun t => t.fld (SeqId.regBase (.core 0) + 8) 47 40) = some 0x82 := by decide
theorem test_bdec_falls : after (.bdec w0 1 5) (two 1 0) (fun t => ((t.seq (.core 0)).pc, (t.seq (.core 0)).getS 1)) =
    some (1, 0) := by decide
theorem test_bdec_taken : after (.bdec w0 1 5) (two 2 0) (fun t => (t.seq (.core 0)).pc) = some 5 := by decide
theorem test_nop : after (.nop w0) (two 0 0) (fun t => (t.seq (.core 0)).pc) = some 1 := by decide
theorem test_end : after (.endProg w0) (two 7 0) (fun t => ((t.seq (.core 0)).run, (t.seq (.core 0)).getS 1)) =
    some (.idle, 0) := by decide
theorem test_predicate_off : after (.li ⟨.core 0, true, 0, .clean⟩ (.s 3) 1) (two 0 0)
    (fun t => ((t.seq (.core 0)).getS 3, (t.seq (.core 0)).pc)) = some (0, 1) := by decide
theorem test_sysr_core_id : after (.sysr (by_ (.core 413)) 3 0) (prog (.core 413) {}) (fun t => (t.seq (.core 413)).getS 3) =
    some 0x19D := by decide
theorem test_sysr_grotto : after (.sysr (by_ (.core 413)) 3 7) (prog (.core 413) {}) (fun t => (t.seq (.core 413)).getS 3) =
    some 53 := by decide
theorem test_undefined : after (.undefinedEncoding w0 0) (two 0 0) (fun t => t.fld (SeqId.regBase (.core 0) + 8) 47 40) = some 0x80 := by decide

/-! ### Words of Ikid (R270, R271, R273, R287, R290): the examples of the spec -/

/-- The instruction of a word issued by core 0. -/
def read_ (h : Word) : Option Instr := Ikid.decode w0 h

theorem test_word_li : read_ 0x1510_8800_0000_0100 = some (.li w0 (.a 2) 0x100) := by decide +kernel
theorem test_word_dsc_ld : read_ 0x5C10_0058_8000_0000 = some (.dscLd w0 5 2) := by decide +kernel
theorem test_word_mma : read_ 0x4010_2031_0500_3100 = some (.mma w0 8 3 4 5 0 0x3100) := by decide +kernel
theorem test_word_aadd : read_ 0x1800_8A20_0000_0010 = some (.aadd w0 2 2 0x10) := by decide +kernel
theorem test_word_bdec : read_ 0x3030_2400_FFFF_FFFB = some (.bdec w0 9 0xFFFF_FFFB) := by decide +kernel
theorem test_word_waitm : read_ 0x3810_2800_0000_00FF = some (.waitm w0 10 0xFF) := by decide +kernel
theorem test_word_end : read_ 0x0110_0000_0000_0000 = some (.endProg w0) := by decide +kernel
theorem test_word_zero : read_ 0 = none := by decide +kernel
theorem test_word_reserved_operand : read_ 0x1510_E000_0000_0000 = none := by decide +kernel
theorem test_word_unused_field : read_ 0x0110_0000_0000_0001 = none := by decide +kernel

/-! ### Handles and issue (R276 to R278, R308 to R317) -/

/-- Core 0 runs with handle 0 BUSY and handle 1 DONE with 0x22. -/
def handles : State := prog (.core 0) { h := [(0, .busy), (1, .done .desc)] }

theorem test_wait_done : after (.wait w0 3 1) handles (fun t => ((t.seq (.core 0)).getS 3, (t.seq (.core 0)).getH 1)) =
    some (0x22, .free) := by decide
theorem test_wait_free : after (.wait w0 3 2) handles (fun t => (t.seq (.core 0)).getS 3) = some 0xFF := by decide
theorem test_waitm_busy : after (.waitm w0 3 3) handles (fun t => (t.seq (.core 0)).pc) = some 0 := by decide
theorem test_htst : after (.htst w0 3 0) handles (fun t => (t.seq (.core 0)).getP 3) = some false := by decide
theorem test_htstm : after (.htstm w0 3 2) handles (fun t => (t.seq (.core 0)).getP 3) = some true := by decide
theorem test_lds_takes_handle : after (.lds w0 4 0 0) handles (fun t => (t.seq (.core 0)).getS 4) = some 2 := by decide
theorem test_mma_on_cp : after (.mma wc 4 0 1 2 0 0) (prog (.cp 0) {}) (fun t => t.fld (SeqId.regBase (.cp 0) + 8) 47 40) =
    some 0x80 := by decide
theorem test_upd_on_core : after (.upd w0 4 0 1) handles (fun t => t.fld (SeqId.regBase (.core 0) + 8) 47 40) = some 0x81 := by decide
theorem test_fnc : after (.fnc w0) (prog (.core 0) { nseq := 3 }) (fun t => (t.seq (.core 0)).fence) = some 3 := by decide
theorem test_dsc_base : after (.dscBase w0 1 1) (prog (.core 0) { a := [(1, 0x1234)] }) (fun t => (t.seq (.core 0)).getD 1) =
    some 0x1234 := by decide +kernel
theorem test_dsc_ld_boundary : after (.dscLd w0 1 1) (prog (.core 0) { a := [(1, 8)] })
    (fun t => t.fld (SeqId.regBase (.core 0) + 8) 47 40) = some 0x84 := by decide
theorem test_fence_cfg : after (.fenceCfg wc 1) (prog (.cp 0) {}) (fun t => ((t.seq (.cp 0)).run, (t.seq (.cp 0)).pc)) =
    some (.running, 1) := by decide +kernel
theorem test_bar_wait_behind : after (.barWait w0 1 1) (prog (.core 0) { s := [(1, 1)], a := [(1, 0x2000_0000_0040)] })
    (fun t => (t.seq (.core 0)).run) = some .waiting := by decide
theorem test_bar_window : (ahead 0xFFFF_FFFE 1, ahead 1 1, ahead 0xFFFF_FFFE 0x8000_0000) = (false, true, true) := by decide
theorem test_handle_done : after (.handleDone (.core 0) 0)
    { up with seqs := [(0, { run := .running, h := [(0, .busy)], works :=
      [⟨0, 0, .nop w0, [], [], [], 0, [], .ended .ecc, [], .ok, 0, [], [], false⟩] })] }
    (fun t => ((t.seq (.core 0)).getH 0, (t.seq (.core 0)).result)) = some (.done .ecc, .ecc) := by decide

/-! ### Numbers (R54, R55, R62, R51, R58) -/

theorem test_drip_block : dripBlock 0 0 0 = (0xE606_4D38, 0x61BD_CAC1, 0x38CC_F595, 0xD107_F48E) := by decide
theorem test_drip_draws : (List.range 8).map (DripKey.draw ⟨0, 0, 0⟩ 8) = [0x38, 0x4D, 0x06, 0xE6, 0xC1, 0xCA, 0xBD, 0x61] := by
  decide
theorem test_drip_draw16 : DripKey.draw ⟨0, 0, 0⟩ 16 0 = 0x4D38 := by decide
theorem test_row_exponent : rowExp .f4 ([0x4020_0000, 0xBF33_3333, 0x4130_0000, 0x3E4C_CCCD].map F32.val) = 1 := by decide
theorem test_reemit_exponent : reemitExp .f4 ([0x41B0_0000, 0x3FC0_0000].map F32.val) = 2 := by decide
theorem test_f4_rounding : ([0x3FA0_0000, 0xBEB3_3333, 0x40B0_0000, 0x3DCC_CCCD].map fun x : F32 =>
    (convElem .f4 .rne (F32.val x)).code) = [2, 9, 7, 0] := by decide
theorem test_block_sum_rounds : F32.add 0x4B80_0000 0x4178_0000 = 0x4B80_0008 := by decide
theorem test_sca_rounds : (F32.add 0x4B80_0000 0x3F80_0000, F32.add 0x4B80_0000 0x4000_0000) = (0x4B80_0000, 0x4B80_0001) := by
  decide
theorem test_update_rounds : F32.sub 0x3F80_0000 0x3C23_D70A = 0x3F7D_70A4 := by decide

/-! ### The address map and the cores (R9, R104, R184, R388, R389, R424) -/

theorem test_grotto : (grottoOf 413, chamberBase 413) = (53, 0x2000_6740_0000) := by decide
theorem test_bank : bankOf 0x0F_3A40 = 28 := by decide
theorem test_gddr : (gddrCtl 0xAB_CDE1_2340, gddrOff 0xAB_CDE1_2340, gddrPair 0xAB_CDE1_2340) = (13, 0xA_BCDE_1340, 6) := by
  decide
theorem test_gddr_h5 : target true 0xAB_CDE1_2340 = .unpopulated := by decide
theorem test_route_key : routeKey 5 0xAB_CDE1_2340 = 0x5D0 := by decide
theorem test_array_width : ({ up with fuses := { bypass := [(0, [1, 0, 0, 0])] } } : State).arrayWidth 0 =
    0x00FF_7F3F_4040_403F := by decide
theorem test_array_width_full : up.arrayWidth 0 = 0x0100_8040_4040_4040 := by decide

/-! ### Engines, siphons, ropes and barriers -/

theorem test_chamber_conflict : after (.chamberAccess 0 0 false 0 4 none true []) up
    (fun t => t.count (Reg.spdBankConflictCnt 0)) = some 1 := by decide
theorem test_chamber_write : after (.chamberAccess 0 0 false 8 4 (some [some 0xAA, none, some 0xBB, none]) false []) up
    (fun t => (t.byte 0x2000_0000_0008, t.byte 0x2000_0000_0009, t.byte 0x2000_0000_000A)) =
    some (0xAA, 0, 0xBB) := by decide
theorem test_mesh_corrected : after (.meshPacketReceive 7 4 0 7 .corrected .nothing) up (fun t => t.count (Reg.nocLinkCorrCnt 7)) =
    some 1 := by decide
theorem test_tlb_inv : after .tlbInv { up with siphons := [(3, { tlb := [⟨1, 16, 0⟩] })] } (fun t => (t.siph 3).tlb) =
    some [] := by decide

/-- A transfer of siphon 0 that runs one program word. -/
def xfer (w : Word) : State :=
  { up with siphons := [(0, { transfers := [⟨0, 0, 0, .prog, 0, 0, 0, 0, [w], false, [4, 0, 0, 0, 0, 0], [0, 0, 0, 0, 0, 0],
      [0, 0, 0, 0, 0, 0], [0, 0, 0, 0, 0, 0], [], 0, 0, 0, [0, 0], [0, 0], false, 0, [], 0, 0, 0, false, .ok, false⟩] })] }

theorem test_sip_loop_back : after (.sipLoop 0 0) (xfer (BitVec.ofNat 64 (1 <<< 58 + 2))) (fun t => (t.xfer 0 0).map fun x => (x.pc, x.c)) =
    some (some (0, [1, 0, 0, 0, 0, 0])) := by decide
theorem test_sip_add : after (.sipAdd 0 0) (xfer (BitVec.ofNat 64 (2 <<< 58 + 0xFFFF_FFFF))) (fun t => (t.xfer 0 0).map fun x => x.x) =
    some (some [3, 0, 0, 0, 0, 0]) := by decide
theorem test_sip_mod : after (.sipMod 0 0) (xfer (BitVec.ofNat 64 (3 <<< 58 + 3))) (fun t => (t.xfer 0 0).map fun x => x.x) =
    some (some [1, 0, 0, 0, 0, 0]) := by decide
theorem test_sip_rev : after (.sipRev 0 0) (xfer (BitVec.ofNat 64 (4 <<< 58))) (fun t => (t.xfer 0 0).map fun x => x.rev) =
    some (some [1, 0, 0, 0, 0, 0]) := by decide
theorem test_sip_end : after (.sipEnd 0 0) (xfer 0) (fun t => (t.xfer 0 0).map fun x => x.ended) = some (some true) := by decide
theorem test_transfer_complete : after (.transferComplete 0 0)
    { xfer 0 with
      siphons := (xfer 0).siphons.map fun x => (x.1, { x.2 with transfers := x.2.transfers.map fun t => { t with ended := true } })
      seqs := [(0, { run := .running, works := [⟨0, 0, .nop w0, [], [], [], 0, [], .running, [], .ok, 0, [], [], false⟩] })] }
    (fun t => (t.seq (.core 0)).works.map fun w => w.status) = some [.ended .ok] := by decide

/-- A launched pass of a core's row rope whose next position takes the tile. -/
def pass : State :=
  { up with passes := [⟨0, 0, 0, none, false, 0, true, 0, 2, 3, List.replicate 128 7, 0, 1, 0x100, none, 0, true, 0, 0, .ok⟩] }

theorem test_rope_take : after (.ropeTake 0 0) pass (fun t => (t.passes.map (fun p => p.pos), t.byte 0x2000_0040_0100)) =
    some ([1], 7) := by decide
theorem test_bar_arrival : after (.barArrivalApply (.core 0) 0)
    { up with seqs := [(0, { run := .running, works :=
      [⟨0, 0, .barArrive w0 0 1 0 5, [], [0x2000_0000_0040], [], 0, [], .queued, [], .ok, 0, [], [], false⟩] })] }
    (fun t => t.word32 0x2000_0000_0040) = some 5 := by decide

/-! ### Commands (R323 to R334, R341) -/

/-- A fetched command of queue 5 that runs. -/
def running (entry : List Byte) : State := { up with cmds := [{ newCmd 5 0x101 entry with running := true }] }

theorem test_doorbell_ignored : after (.sqDoorbell 5 0) up (fun t => t.count Reg.ctlRingErrCnt) = some 1 := by decide
theorem test_doorbell : after (.sqDoorbell 5 1) { up with regs := [(Reg.ctlSqCfg 5, 0x8005_4000_0010_0008)] }
    (fun t => t.sqTail 5) = some 1 := by decide
theorem test_cmd_nop : after (.cmdNop 5 0x101) (running [0]) (fun t => t.cmds.map fun c => (c.finished, c.code)) =
    some [(true, .ok)] := by decide
theorem test_pool_open : after (.poolOpen 5 0x101) (running [4, 0, 0, 0, 0, 0, 0, 0, 9, 0]) (fun t => (t.pool 9).isOpen) =
    some true := by decide
theorem test_commit_again : after (.commitCmd 5 0x101)
    { up with epoch := 3, cmds := [{ newCmd 5 0x101 [6] with running := true, begun := true }] }
    (fun t => (t.epoch, t.cmds.map fun c => c.finished)) = some (3, [true]) := by decide +kernel

/-- The finished command of R333's example: tail 0xFF of a completion ring of 256 records (here in GDDR7). -/
def record : State :=
  { up with
    regs := [(Reg.ctlCqCfg 5, 0x8000_0000_0011_0008), (Reg.ctlSqCfg 5, 0x8005_0000_0010_0008), (Reg.ctlCqTail 5, 0xFF)]
    cmds := [{ newCmd 5 0x101 [1] with
      running := true, finished := true, epoch := 7, code := .counts, info := 0x1F4,
      counts := ⟨0, 0x20, 0, 3⟩ }] }

theorem test_record_head : after (.completionRecordWrite 5) record
    (fun t => (t.word32 0x11_1FE0, t.word32 0x11_1FE4, t.word32 0x11_1FE8, t.fld (Reg.ctlCqTail 5) 31 0)) =
    some (0x0500_0101, 0x0000_0101, 7, 0x100) := by decide
theorem test_record_counts : after (.completionRecordWrite 5) record
    (fun t => (t.word32 0x11_1FEC, t.word32 0x11_1FF0, t.word32 0x11_1FF4, t.word32 0x11_1FF8, t.word32 0x11_1FFC)) =
    some (0, 0x20, 0, 3, 0x1F4) := by decide
theorem test_epoch_switch : after (.epochSwitch 1067) { up with epoch := 2 } (fun t => SMap.get 0 t.unitEpoch 1067) =
    some 1 := by decide

/-! ### Memory, CXL, links and the group -/

theorem test_gddr_retry : after (.gddr7Access 0 none ⟨[], []⟩ 3) { up with regs := [(Reg.memStat 0, 1)] }
    (fun t => t.count (Reg.memCrcRetryCnt 0)) = some 3 := by decide
theorem test_mem_clear : after (.memClear 2 1) up (fun t => t.bit (Reg.memStat 2) 2) = some true := by decide
theorem test_cxl_nodec : after (.cxlAccess 0x1000_0000_0000 none false) up (fun t => t.count (Reg.cxmNodecCnt 0)) =
    some 1 := by decide
theorem test_link_cfg : after (.linkCfgWrite 4 0x8000_0000_0000_0000) up (fun t => t.linkState 4) = some 1 := by decide
/-- A state in which the notice of a device has come in on link 0. -/
def heard (src : Nat) (kind : String) (vals : List Nat) (s : State) : State :=
  { s with links := [(0, { inbox := [⟨s.devId, 0, 6, 3, 0, src, 0, 0, pad4 (noteBytes kind vals)⟩] })] }

/-- A member of a group, device 1. -/
def member : State := { up with regs := [(Reg.rstStrap, 1)] }

theorem test_gstep : after (.gstepNotice 9) (heard 0 "gstep" [9] member) (fun t => t.reg Reg.cslGstep) = some 9 := by decide
theorem test_hold_start : after (.holdStart 5) { up with regs := [(Reg.rstStrap, 0x1000)] } (fun t => t.rsl.hold) =
    some (some 5) := by decide

/-! ### Host, security, management, power and resets -/

/-- The released block with BAR4 of 4 GiB over the chambers, as in the example of R461. -/
def window : State :=
  { up with bar4 := 32, regs := [(Reg.hifLinkStat, 1), (Reg.hifWinBase, 0x2000_0000_0000)], mem := [(0x2000_6740_0100, 0x5A)] }

theorem test_window_read : after (.hostWindowAccess 0x6740_0100 (.read 2)) window (fun t => t.out) =
    some [.answer "hostRead" [0x5A, 0]] := by decide +kernel
theorem test_window_miss : after (.hostWindowAccess 0x6760_0000 (.read 8)) window
    (fun t => (t.reg Reg.hifBadAddr, t.count Reg.hifBadAccessCnt, t.out)) =
    some (0x8004_0000_6760_0000, 1, [.answer "hostRead" (List.replicate 8 0xFF)]) := by decide
theorem test_window_beyond : after (.hostAccessMiss .bar4 0xC800_0000 8 false) window (fun t => t.count Reg.hifBadAccessCnt) =
    some 1 := by decide
theorem test_msix_unmask : after (.msixUnmask (some 3))
    { up with regs := [(Reg.hifLinkStat, 3), (Reg.hifMsixAddr 3, 0xFEE0), (Reg.hifMsixData 3, 0x1_0000_0042), (Reg.hifPba 0, 8)] }
    (fun t => (t.out, t.reg (Reg.hifPba 0))) = some ([.msix 3 0xFEE0 0x42], 0) := by decide
theorem test_link_down : after (.hostLinkDown true) window (fun t => t.reg Reg.hifLinkStat) = some 1 := by decide
theorem test_boot_stat : bootStat 2 0xF 4 3 1 0 = 0x2F04_0301_0000_0000 := by decide
theorem test_rollback : after (.rollbackAdv 5) { up with sec := { svn := 4 }, regs := [(Reg.secBootStat, 0x1000_0000_0000_0000)] }
    (fun t => t.fuses.rollback) = some 0 := by decide
theorem test_wdog_kick : after (.wdogKick 0x4B49_434B_0000_0000) { up with regs := [(Reg.mgtWdog, 0xC000_0000_0000_03E8)] }
    (fun t => t.reg Reg.mgtWdog) = some 0x8000_0000_0000_03E8 := by decide
theorem test_func_busy : after (.funcDisable 0x1000_0000) { up with regs := [(Reg.mgtFuncStat, 0x8000_0000_0000_0000)] }
    (fun t => t.count Reg.mgtReqRejectCnt) = some 1 := by decide
theorem test_func_range : after (.funcEnable 0x2000_0320) up (fun t => t.fld Reg.mgtFuncStat 55 48) = some 1 := by decide
theorem test_rate : after (.rateSample 53 0x04B0) { up with regs := [(Reg.mgtRateG 53, 0x0000_1A2E_8000_04B1)] }
    (fun t => t.reg (Reg.mgtRateG 53)) = some 0x0000_1A2F_8000_04B0 := by decide
theorem test_die_fault : after (.conversionDieFault 11) up (fun t => t.envelope) = some 3000 := by decide
theorem test_sensor : after (.pldmSensorRead 0x41) { up with regs := [(Reg.pwrStat, 0x0BB8_02EE)] } (fun t => t.out) =
    some [.answer "pldm" [0xB8, 0x0B, 0, 0, 0, 0, 0, 0]] := by decide

/-- The hold of R494's example: a lock-up reset that the watchdog joined. -/
def hold : State :=
  { up with regs := [(Reg.rstCause, 0x0000_0003_0011_0010)], rst := { joined := [3, 7], holding := List.range 105 } }

theorem test_cause : after (.resetHoldEnd ⟨0, 0⟩) hold (fun t => t.reg Reg.rstCause) = some 0x0000_0004_0099_0088 := by decide
theorem test_reset_cause : State.reset.reg Reg.rstCause = 0x1_0001 := by decide
theorem test_pin_ignored : after (.pinReset false) hold (fun t => t.rst.joined) = some [3, 7] := by decide
theorem test_lockup : after (.lockupReset (.core 413)) { up with rst := {} } (fun t => (t.reg Reg.rstLockup, t.domUp 2, t.domUp 3)) =
    some (0x8000_0000_0000_019D, true, false) := by decide
theorem test_counter_read : after (.counterRead 0x40 .whole) { up with cnt := [(0x40, 7)] } (fun t => (t.out, t.count 0x40)) =
    some ([.answer "register" [7, 0, 0, 0, 0, 0, 0, 0]], 0) := by decide
theorem test_counter_saturates : (({ up with cnt := [(0x40, 0xFFFF_FFFF_FFFE)] } : State).bump 0x40 5).cnt =
    [(0x40, 0xFFFF_FFFF_FFFF)] := by decide
theorem test_w1c : after (.registerWrite 0x200000 .whole 5) { up with regs := [(Reg.mgtEvent, 7)] } (fun t => t.reg Reg.mgtEvent) =
    some 2 := by decide
theorem test_rw : after (.registerWrite 0x200008 .low 0x300) up (fun t => t.reg Reg.mgtEventCfg) = some 0x300 := by decide

/-! ### Steps -/

theorem test_step_front : (match step { heard 0 "gstep" [9] member with pending := [.gstepNotice 9, .tlbInv] } with
    | .next t => some (t.pending, t.reg Reg.cslGstep)
    | _ => none) = some ([.tlbInv], 9) := by decide
theorem test_step_idle : step up = .next up := rfl

end Sys2Proof.Tests
end

