-- ==== Sys2Proof/Tests/Witnesses.lean ====
section
/-! SUPPORT. Witnesses: for each statement with hypotheses, a concrete state and operands that meet all of them, clause by
clause, at the ends of their ranges where they have ends. -/

set_option maxRecDepth 20000
set_option Elab.async false

namespace Sys2Proof.Tests
open Sys2Proof Sys2Proof.Machine

/-- The conditions of an issue from their test. -/
theorem issues_of {w : Issue} {s : State}
    (h : ((s.seq w.u).run == .running && w.fetch != .uncorrectable && decide ((s.seq w.u).pc < pcLimit w.u) &&
      xor ((s.seq w.u).getP w.ps) w.neg) = true) : Issues w s := by
  simp only [Bool.and_eq_true, beq_iff_eq, bne_iff_ne, decide_eq_true_eq] at h
  exact ⟨Or.inl h.1.1.1, h.1.1.2, h.1.2, by simpa using h.2⟩

/-- Bytes at an address, as memory holds them. -/
def memAt (a : Nat) (bs : List Byte) : SMap Byte := bs.zipIdx.filterMap fun (b, i) => if b = 0 then none else some (a + i, b)

/-- A two-dimensional descriptor without scales, its rows 1024 bits apart in BF16. -/
def desc2 (base lay fmt s0 s1 st0 st1 : Nat) : Desc :=
  BitVec.ofNat 512 (base + lay <<< 124 + fmt <<< 118 + 7 <<< 184 + s0 <<< 224 + st0 <<< 248 + s1 <<< 272 + st1 <<< 296)

/-- An issue at the last core, under a negated predicate, with a corrected fetch. -/
def wLast : Issue := ⟨.core 799, true, 1, .corrected⟩

/-- The last core stands at its last instruction. -/
def atEnd : State := prog (.core 799) { pc := 8191 }

theorem issue_core : Issues w0 (two 5 6) := issues_of (by decide)
theorem issue_last : Issues wLast atEnd := issues_of (by decide)
theorem issue_cp : Issues (by_ (.cp 3)) (prog (.cp 3) { pc := 2097151 }) := issues_of (by decide)

/-! ### Scalar instructions -/

theorem witness_ScalarArithmeticResult : Issues w0 (two 5 6) ∧ Issues wLast atEnd ∧
    Issues (by_ (.cp 3)) (prog (.cp 3) { pc := 2097151 }) := ⟨issue_core, issue_last, issue_cp⟩
theorem witness_CompareResult : Issues w0 (two 5 6) ∧ Issues wLast atEnd := ⟨issue_core, issue_last⟩
theorem witness_PredicateMoveAddressResult : Issues w0 (two 5 6) ∧ Issues wLast atEnd := ⟨issue_core, issue_last⟩

/-- Core 0 runs with a1 at the last word of its chamber and a2 at the last even one. -/
def lastWord : State := prog (.core 0) { a := [(1, 524287), (2, 524286), (3, 524288)], s := [(1, 7)] }

theorem issue_lastWord : Issues w0 lastWord := issues_of (by decide)

/-- The same while an SCL of that core that has not completed writes the last word. -/
def lastWordRaced : State :=
  prog (.core 0) { a := [(1, 524287), (2, 524286)], s := [(1, 7)], nseq := 1, h := [(0, .busy)],
                   works := [⟨0, 0, .sclRead w0 0 0 0 0, [0], [524287], [], 0, [], .running, [], .ok, 0, [], [], false⟩] }

theorem witness_ScalarLoadResult : (Issues w0 lastWord ∧ poisonOk lastWord = true ∧ 524287 < storeWords w0.u ∧
      lastWord.rdBad (storeBase w0.u + 4 * 524287) 4 = false ∧ 524286 % 2 = 0 ∧
      lastWord.rdBad (storeBase w0.u + 4 * 524286) 8 = false ∧
      lastWord.meets ⟨w0.u.num, none, false⟩ (storeBase w0.u + 4 * 524287) 4 = false ∧
      lastWord.meets ⟨w0.u.num, none, false⟩ (storeBase w0.u + 4 * 524286) 8 = false) ∧
    Issues w0 lastWordRaced ∧ poisonOk lastWordRaced = true ∧
      lastWordRaced.rdBad (storeBase w0.u + 4 * 524287) 4 = false ∧
      lastWordRaced.rdBad (storeBase w0.u + 4 * 524286) 8 = false ∧
      lastWordRaced.meets ⟨w0.u.num, none, false⟩ (storeBase w0.u + 4 * 524287) 4 = true ∧
      lastWordRaced.meets ⟨w0.u.num, none, false⟩ (storeBase w0.u + 4 * 524286) 8 = true :=
  ⟨⟨issue_lastWord, by decide +kernel⟩, issues_of (by decide), by decide +kernel⟩
theorem witness_ScalarStoreResult : (Issues w0 lastWord ∧ poisonOk lastWord = true ∧ 524287 < storeWords w0.u ∧
      524286 % 2 = 0 ∧ lastWord.meets ⟨w0.u.num, none, true⟩ (storeBase w0.u + 4 * 524287) 4 = false ∧
      lastWord.meets ⟨w0.u.num, none, true⟩ (storeBase w0.u + 4 * 524286) 8 = false) ∧
    Issues w0 lastWordRaced ∧ poisonOk lastWordRaced = true ∧
      lastWordRaced.meets ⟨w0.u.num, none, true⟩ (storeBase w0.u + 4 * 524287) 4 = true :=
  ⟨⟨issue_lastWord, by decide +kernel⟩, issues_of (by decide), by decide +kernel⟩

/-- A unit runs with a1 at the first byte of a chamber, a2 at the last double word of the register space, and a3 at a
misaligned address. -/
def global (u : SeqId) : State :=
  prog u { a := [(1, 0x2000_0000_0000), (2, 0x3F00_0FFF_FFF8), (3, 0x2000_0000_0001), (4, 0x2000_0000_0004)] }

/-- Core 0 runs where the first GiB of the job's addresses lies on device 1, which link 11 leads to, with a1 at its first
byte. -/
def remoteMap : State :=
  { prog (.core 0) { a := [(1, 0)] } with
    regs := [(Reg.memStat 0, 1), (Reg.cslRoute 1, 0x800), (Reg.cslLinkStat 11, 0x3000_0000_0000_0000)]
    snaps := [(0, [(Reg.sipPtRoot, 1)])]
    mem := [(0, 1), (1, 0x10), (0x1000, 0x0F), (0x1001, 0x01), (0x1006, 0x01), (0x1007, 0x10)] }

/-- Nothing disturbs an access where their test holds. -/
theorem undisturbed_of {u : SeqId} {root : Word} {wr : Bool} {va a n : Nat} {s : State}
    (h : (!s.meets ⟨u.num, none, wr⟩ a n && s.upds.isEmpty && (s.poolHit a n).isEmpty && !s.training a n) = true) :
    Undisturbed u root wr va a n s := by
  simp only [Bool.and_eq_true, Bool.not_eq_true', List.isEmpty_iff] at h
  exact ⟨h.1.1.1, by simp [h.1.1.2], h.1.2, h.2⟩

theorem remote_issues : Issues w0 remoteMap := issues_of (by decide)

/-- The clause on a peer's answer has its other conditions beside its code, a free value of the model. -/
theorem witness_GlobalLoadResult_remote (h : ((issued w0 remoteMap).peerRead 1 0 8).2.1 = .ok) :
    Issues w0 remoteMap ∧ remoteMap.translate (remoteMap.epReg w0.u.epochUnit Reg.sipPtRoot) 0 0 true false = .remote 1 0 ∧
      w0.u.isCp = false ∧ ((issued w0 remoteMap).peerRead 1 0 8).2.1 = .ok := ⟨remote_issues, by decide +kernel, by decide, h⟩

theorem witness_GlobalLoadResult :
    (Issues w0 (global (.core 0)) ∧ w0.u.isCp = false ∧ (global (.core 0)).translate 0 0x2000_0000_0000 0 true false =
      .local_ 0x2000_0000_0000 ∧ 0x2000_0000_0000 % 8 = 0 ∧ (global (.core 0)).rdBad 0x2000_0000_0000 8 = false ∧
      (global (.core 0)).clearing 0x2000_0000_0000 = false ∧ (global (.core 0)).clearing 0x2000_0000_0007 = false ∧ ((global (.core 0)).seq w0.u).poisoned = false ∧
      Undisturbed w0.u ((global (.core 0)).epReg w0.u.epochUnit Reg.sipPtRoot) false 0x2000_0000_0000 0x2000_0000_0000 8
        (global (.core 0)) ∧
      Undisturbed w0.u ((global (.core 0)).epReg w0.u.epochUnit Reg.sipPtRoot) false 0x2000_0000_0000 0x2000_0000_0000 4
        (global (.core 0))) ∧
    Issues wc (global (.cp 0)) ∧ wc.u.isCp = true ∧ 0x3F00_0FFF_FFF8 < 0x3F00_1000_0000 ∧ 0x3F00_0FFF_FFF8 % 8 = 0 :=
  ⟨⟨issues_of (by decide), by decide, by decide, by decide, by decide, by decide, by decide, by decide,
    undisturbed_of (by decide +kernel), undisturbed_of (by decide +kernel)⟩, issues_of (by decide), by decide⟩
theorem witness_GlobalStoreResult : Issues w0 (global (.core 0)) ∧ w0.u.isCp = false ∧
    (global (.core 0)).translate ((global (.core 0)).epReg w0.u.epochUnit Reg.sipPtRoot) 0x2000_0000_0000 0 false true =
      .local_ 0x2000_0000_0000 ∧ 0x2000_0000_0000 % 4 = 0 ∧ 0x2000_0000_0000 % 8 = 0 ∧
    (global (.core 0)).rdBad 0x2000_0000_0000 4 = false ∧ (global (.core 0)).rdBad 0x2000_0000_0000 8 = false ∧
    Undisturbed w0.u ((global (.core 0)).epReg w0.u.epochUnit Reg.sipPtRoot) true 0x2000_0000_0000 0x2000_0000_0000 4
      (global (.core 0)) ∧
    Undisturbed w0.u ((global (.core 0)).epReg w0.u.epochUnit Reg.sipPtRoot) true 0x2000_0000_0000 0x2000_0000_0000 8
      (global (.core 0)) ∧
    Issues w0 remoteMap ∧
    remoteMap.translate (remoteMap.epReg w0.u.epochUnit Reg.sipPtRoot) 0 0 false true = .remote 1 0 ∧
    ((issued w0 remoteMap).peerSend 1 0 (natLE 8 0) (some (.store w0.u.num 0))).2 = true :=
  ⟨issues_of (by decide), by decide, by decide, by decide, by decide, by decide, by decide,
    undisturbed_of (by decide +kernel), undisturbed_of (by decide +kernel), remote_issues, by decide +kernel, by decide +kernel⟩

/-- Core 0 stands at instruction 9 with s1 at the last instruction, s2 = 1 and s3 past the store. -/
def branches : State := prog (.core 0) { pc := 9, s := [(1, 8191), (2, 1), (3, 8192)] }

theorem issue_branches : Issues w0 branches := issues_of (by decide)

theorem witness_BranchResult : Issues w0 branches ∧ (9 : Int) + (0xFFFF_FFF7 : Imm).toInt = 0 ∧
    (9 : Int) + (8182 : Imm).toInt = 8191 ∧ (branches.seq w0.u).getS 1 ≠ 1 ∧ (branches.seq w0.u).getS 2 = 1 ∧
    ((branches.seq w0.u).getS 1).toNat < pcLimit w0.u := ⟨issue_branches, by decide⟩

theorem issue_handles : Issues w0 handles := issues_of (by decide)

theorem witness_HandleInstructions : Issues w0 handles ∧ (handles.seq w0.u).getH 31 = .free ∧
    (handles.seq w0.u).getH 1 = .done .desc ∧ (handles.seq w0.u).getH 0 = .busy ∧
    (∀ i, i < 32 → (0xFFFF_FFFE : Imm).toNat.testBit i = true → (handles.seq w0.u).getH i ≠ .busy) ∧
    (1 : Imm).toNat.testBit 0 = true := ⟨issue_handles, by decide⟩
theorem witness_SystemRegisters : Issues w0 (two 5 6) ∧ (7 : Imm).toNat < 8 ∧ 8 ≤ (8 : Imm).toNat := ⟨issue_core, by decide⟩
theorem witness_NopAndEnd : (Issues w0 handles ∧ (handles.seq w0.u).getH 0 = .busy) ∧ Issues w0 (two 5 6) ∧
    (∀ i, i < 32 → ((two 5 6).seq w0.u).getH i ≠ .busy) ∧ (two 5 6).launches = [] :=
  ⟨⟨issue_handles, by decide⟩, issue_core, by decide⟩
theorem witness_ScalarFaults :
    (Runs ⟨.core 0, false, 0, .uncorrectable⟩ (two 5 6) ∧ Instr.issue? (.nop w0) = some w0) ∧
    (Runs w0 (prog (.core 0) { pc := 8192 }) ∧ w0.fetch ≠ .uncorrectable ∧ pcLimit w0.u ≤ 8192) ∧
    (Issues w0 branches ∧ w0.u.isCp = false ∧ (9 : Int) + (0xFFFF_FFF6 : Imm).toInt < 0 ∧
      (pcLimit w0.u : Int) ≤ 9 + (8183 : Imm).toInt ∧ pcLimit w0.u ≤ ((branches.seq w0.u).getS 3).toNat) ∧
    (Issues w0 lastWord ∧ storeWords w0.u ≤ ((lastWord.seq w0.u).getA 3).toNat ∧ 524287 < storeWords w0.u ∧ 524287 % 2 = 1) ∧
    Ikid.decode w0 0 = none ∧
    Issues w0 (global (.core 0)) ∧ 0x2000_0000_0001 % 4 ≠ 0 ∧ 0x2000_0000_0004 % 8 ≠ 0 :=
  ⟨⟨Or.inl (by decide), rfl⟩, ⟨Or.inl (by decide), by decide⟩, ⟨issue_branches, by decide⟩, ⟨issue_lastWord, by decide⟩,
    by decide +kernel, issues_of (by decide), by decide⟩
theorem witness_IkidDecoding : Ikid.decode w0 0x4010_2031_0500_3100 = some (.mma w0 8 3 4 5 0 0x3100) ∧
    Ikid.carries w0 0x4010_2031_0500_3100 = true ∧ Ikid.decode wc 0x8200_0400_0000_0000 = some (.commit wc 1) :=
  by decide +kernel
theorem witness_PredicatedOff : Instr.issue? (.run ⟨.core 0, true, 0, .clean⟩ 0 0) = some ⟨.core 0, true, 0, .clean⟩ ∧
    Runs ⟨.core 0, true, 0, .clean⟩ (two 5 6) ∧ xor (((two 5 6).seq (.core 0)).getP 0) true = false :=
  ⟨rfl, Or.inl (by decide), by decide⟩

/-! ### Tensor and control instructions -/

/-- The conditions of a tensor issue from their test. -/
theorem tensor_of {w : Issue} {s : State} {h : Nat} (i : Issues w s)
    (c : (!s.paused && !s.gated w.u && decide (h < 32) && (s.seq w.u).getH h == .free &&
      (List.range h).all fun i => (s.seq w.u).getH i != .free) = true) : claimIssuesTensor w h s := by
  simp only [Bool.and_eq_true, Bool.not_eq_true', decide_eq_true_eq, beq_iff_eq, List.all_eq_true, List.mem_range,
    bne_iff_ne] at c
  exact ⟨i, c.1.1.1.1, c.1.1.1.2, c.1.1.2, c.1.2, c.2⟩

theorem tensor_handles : claimIssuesTensor w0 2 handles := tensor_of issue_handles (by decide)

/-- A unit runs with only the last handle FREE. -/
def lastHandle (u : SeqId) : State := prog u { h := (List.range 31).map fun i => (i, .busy) }

theorem witness_DenseIssue :
    (claimIssuesTensor w0 2 handles ∧ w0.u.isCp = false ∧ claimOpt 0 14 2 = 0 ∧ claimOpt 0 0 13 = 0 ∧ claimOpt 0 10 2 ≠ 3 ∧
      claimOpt 0 8 2 ≠ 3 ∧ claimOpt 0 8 10 = 0 ∧ claimOpt 0 0 6 = 0 ∧ (0 : BitVec 2) ≠ 3) ∧
    claimIssuesTensor w0 31 (lastHandle (.core 0)) ∧
    (claimOpt 0x3_C060 16 2 = 3 ∧ claimOpt 0x3_C060 10 2 ≠ 3 ∧ claimOpt 0x3_C060 8 2 ≠ 3 ∧ claimOpt 0x3_C060 13 1 = 0) ∧
    (62 : Slot).toNat + ((claimOpt 0x3_C060 6 1).toNat + (claimOpt 0x3_C060 5 1).toNat) ≤ 64 ∧
    64 < (63 : Slot).toNat + ((claimOpt 0x3_C060 6 1).toNat + (claimOpt 0x3_C060 5 1).toNat) :=
  ⟨⟨tensor_handles, by decide⟩, tensor_of (issues_of (by decide)) (by decide), by decide⟩
theorem witness_SparseIssue : (claimIssuesTensor w0 2 handles ∧ w0.u.isCp = false ∧ claimOpt 0 8 10 = 0 ∧ claimOpt 0 0 7 = 0 ∧
      claimOpt 0 7 1 = 0 ∧ claimOpt 0 2 16 = 0 ∧ claimOpt 0 1 17 = 0 ∧ claimOpt 0 10 6 = 0) ∧
    (63 : Slot).toNat + (1 + (claimOpt 0 8 1).toNat + (claimOpt 0 7 1).toNat) ≤ 64 ∧
    64 < (62 : Slot).toNat + (1 + (claimOpt 0x180 8 1).toNat + (claimOpt 0x180 7 1).toNat) :=
  ⟨⟨tensor_handles, by decide⟩, by decide⟩
theorem witness_TransferIssue :
    (claimIssuesTensor w0 2 handles ∧ handles.sipRefuses 0 = false ∧ handles.sipRefuses 215 = false ∧
      2 * (10 * (0 / 40 / 2) + 0 % 40 / 4) = 0 ∧ w0.u.isCp = false ∧ ((handles.seq w0.u).getA 1).toNat % 8 = 0 ∧
      ((handles.seq w0.u).getA 1).toNat + 8 ≤ storeWords w0.u ∧ handles.rdBad (storeBase w0.u) 32 = false ∧
      handles.rdBad (storeBase w0.u) 64 = false ∧ ((handles.seq w0.u).getS 1).toNat % 16 = 0) ∧
    (claimOpt 0xFFFF 0 16 ≠ 0 ∧ claimOpt 0xFFFF 16 2 = 0) ∧
    claimIssuesTensor (by_ (.cp 3)) 31 (lastHandle (.cp 3)) ∧ (by_ (.cp 3)).u.isCp = true ∧ (215 : BitVec 8).toNat ≤ 215 ∧
    ¬(199 = 2 * (10 * (0 / 40 / 2) + 0 % 40 / 4) ∨ 199 = 2 * (10 * (0 / 40 / 2) + 0 % 40 / 4) + 1 ∨ 200 ≤ 199) :=
  ⟨⟨tensor_handles, by decide⟩, by decide, tensor_of (issues_of (by decide)) (by decide), by decide⟩

/-- Core 0 runs with every handle in one state. -/
def allHandles (h : Handle) : State := prog (.core 0) { h := (List.range 32).map fun i => (i, h) }

theorem witness_TensorIssueStops :
    (Issues w0 (allHandles .busy) ∧ (∀ i, i < 32 → ((allHandles .busy).seq w0.u).getH i = .busy) ∧
      (allHandles .busy).paused = false ∧ (allHandles .busy).gated w0.u = false ∧ w0.u.isCp = false) ∧
    (Issues w0 (allHandles (.done .ok)) ∧ ∀ i, i < 32 → ((allHandles (.done .ok)).seq w0.u).getH i = .done .ok) ∧
    Issues (by_ (.cp 3)) (prog (.cp 3) { pc := 2097151 }) ∧ (by_ (.cp 3)).u.isCp = true :=
  ⟨⟨issues_of (by decide), by decide⟩, ⟨issues_of (by decide), by decide⟩, issue_cp, by decide⟩

/-- Control processor 0 runs, with a launch block of one instruction for the last core at word 0 of its SRAM and handle 31
FREE alone. -/
def launching : State :=
  { lastHandle (.cp 0) with mem := [(0x3000_0000_0004, 1), (0x3000_0000_00EB, 0x80)] }

theorem witness_RunLaunches : claimIssuesTensor wc 31 launching ∧ poisonOk launching = true ∧
    launching.rdBad 0x3000_0000_0000 256 = false ∧ blockField (launching.rdBytes 0x3000_0000_0000 256) 0 4 = 0 ∧
    blockField (launching.rdBytes 0x3000_0000_0000 256) 4 4 = 1 ∧
    blockField (launching.rdBytes 0x3000_0000_0000 256) 8 8 = 0 ∧
    (∀ c, c < 800 → ((blockField (launching.rdBytes 0x3000_0000_0000 256) 0x88 100).testBit c = true ↔ c = 799)) ∧
    (launching.seq wc.u).works = [] ∧ launching.launches = [] ∧ launching.coreRefuses 799 = false ∧
    (launching.seq (.core 799)).run = .idle :=
  ⟨tensor_of (issues_of (by decide)) (by decide), by decide +kernel⟩

/-- Core 0 runs with a1 at the last 32 words of its chamber, and pool 15 holds one entry of zeros. -/
def pooling (isOpen : Bool) (entries : List (List Byte)) : State :=
  { prog (.core 0) { a := [(1, 524256)] } with pools := [(15, { isOpen := isOpen, entries := entries })] }

theorem issue_pooling : Issues w0 (pooling false []) ∧ Issues w0 (pooling true [List.replicate 128 0]) :=
  ⟨issues_of (by decide), issues_of (by decide)⟩

theorem witness_PoolInstructions :
    (claimIssuesTensor w0 0 (pooling true [List.replicate 128 0]) ∧ 524256 % 32 = 0 ∧ 524256 + 32 ≤ storeWords w0.u ∧
      (pooling true [List.replicate 128 0]).poolWaits 15 = [] ∧ ((pooling true [List.replicate 128 0]).seq w0.u).works = [] ∧
      (pooling true [List.replicate 128 0]).rdBad (storeBase w0.u + 4 * 524256) 128 = false ∧
      (pooling true [List.replicate 128 0]).coreRefuses 0 = false ∧
      ([List.replicate 128 0] : List (List Byte)).find? ((pooling true [List.replicate 128 0]).fits w0.u.num) =
        some (List.replicate 128 0)) ∧
    (claimIssuesTensor w0 0 (pooling false []) ∧ ((pooling false []).pool 15).isOpen = false ∧
      ((pooling false []).pool 15).entries.find? ((pooling false []).fits w0.u.num) = none ∧
      headerOk ((pooling false []).rdBytes (storeBase w0.u + 4 * 524256) 128) = true) ∧
    headerOk ((pooling true []).rdBytes (storeBase w0.u + 4 * 524256) 128) = true ∧ ((pooling true []).pool 15).isOpen = true ∧
      ((pooling true []).pool 15).entries.length < ringSize ((pooling true []).reg (Reg.ctlPoolCfg 15)) :=
  ⟨⟨tensor_of issue_pooling.2 (by decide), by decide⟩, ⟨tensor_of issue_pooling.1 (by decide), by decide +kernel⟩,
    by decide +kernel⟩

/-- Core 0 runs with a1 at the last 16 words, a2 at the last 32 words of its chamber, and a3 off the boundary. -/
def slots : State := prog (.core 0) { a := [(1, 524272), (2, 524256), (3, 524273)] }

theorem witness_FenceDescriptors : Issues w0 slots ∧ poisonOk slots = true ∧ 524272 % 16 = 0 ∧ 524272 + 16 ≤ storeWords w0.u ∧
    slots.rdBad (storeBase w0.u + 4 * 524272) 64 = false ∧ 524256 % 32 = 0 ∧ 524256 + 32 ≤ storeWords w0.u ∧
    slots.rdBad (storeBase w0.u + 4 * 524256) 128 = false ∧ 524273 % 16 ≠ 0 ∧ 524273 % 32 ≠ 0 :=
  ⟨issues_of (by decide), by decide⟩

/-- The block of a descriptor of two dimensions without exponents: its head, its strides, its sizes and its region's length. -/
def makeBlock (d : Desc) (size0 : Nat) : List Byte :=
  natLE 28 (d.extractLsb' 0 224).toNat ++ natLE 4 0 ++ natLE 8 (d.extractLsb' 248 20).toNat ++
    natLE 8 (d.extractLsb' 296 20).toNat ++ natLE 32 0 ++ natLE 4 size0 ++ natLE 4 (d.extractLsb' 272 24).toNat ++ natLE 16 0 ++
    natLE 8 0x20_0000

/-- Core 0 runs with such a block in the last 32 words of its chamber. -/
def making (size0 : Nat) : State :=
  { slots with mem := memAt 0x2000_001F_FF80 (makeBlock (desc2 0x2000_0000_0000 0 0x0C 2 2 64 1) size0) }

theorem witness_FenceDescriptors_make :
    (let d := desc2 0x2000_0000_0000 0 0x0C 2 2 64 1
     let b := (making 2).rdBytes (storeBase w0.u + 4 * 524256) 128
     (making 2).rdBad (storeBase w0.u + 4 * 524256) 128 = false ∧ (d.extractLsb' 0 224).toNat = blockField b 0 28 ∧
      (∀ k, k < 6 → (d.extractLsb' (224 + 48 * k) 24).toNat = blockField b (0x50 + 4 * k) 4 ∧
        (d.extractLsb' (248 + 48 * k) 20).toInt * 2 ^ (d.extractLsb' (268 + 48 * k) 4).toNat =
          (BitVec.ofNat 64 (blockField b (0x20 + 8 * k) 8)).toInt ∧ (d.extractLsb' (268 + 48 * k) 4).toNat = 0) ∧
      (td d).ok = true ∧ (td d).inRegion (blockField b 0x68 8) = true) ∧
    ∀ d : Desc, (d.extractLsb' 224 24).toNat ≠
      blockField ((making 0x100_0000).rdBytes (storeBase w0.u + 4 * 524256) 128) 0x50 4 := by
  refine ⟨by decide +kernel, fun d => ?_⟩
  rw [show blockField ((making 0x100_0000).rdBytes (storeBase w0.u + 4 * 524256) 128) 0x50 4 = 0x100_0000 by decide +kernel]
  have := (d.extractLsb' 224 24).isLt
  omega

/-- Control processor 3 runs at its last instruction with s1 = 2 and s2 = 0, and handle 0 in one state. -/
def looping (h : Handle) : State := prog (.cp 3) { pc := 2097151, s := [(1, 2)], h := [(0, h)] }

theorem witness_CommitFenceLoop :
    (Issues (by_ (.cp 3)) (looping .free) ∧ (∀ u, u < 1068 → (looping .free).unitOff u = false →
      0 ≤ (SMap.get 0 (looping .free).unitEpoch u - (((looping .free).seq (.cp 3)).getS 2).setWidth 32).toInt)) ∧
    ((SMap.get 0 (looping .free).unitEpoch 0 - (((looping .free).seq (.cp 3)).getS 1).setWidth 32).toInt < 0 ∧
      (looping .free).unitOff 0 = false) ∧
    ((∀ i, i < 32 → ((looping .free).seq (.cp 3)).getH i ≠ .busy) ∧
      (looping .free).loopHeld (((looping .free).seq (.cp 3)).step + 1).toNat = false ∧
      0 < (((looping .free).seq (.cp 3)).getS 1 - (((looping .free).seq (.cp 3)).step + 1)).toInt ∧
      ¬0 < (((looping .free).seq (.cp 3)).getS 2 - (((looping .free).seq (.cp 3)).step + 1)).toInt ∧
      (0 : Int) ≤ 2097151 + (0 : Imm).toInt ∧ (2097151 : Int) + (0 : Imm).toInt < pcLimit (.cp 3)) ∧
    Issues (by_ (.cp 3)) (looping .busy) ∧ ((looping .busy).seq (.cp 3)).getH 0 = .busy :=
  ⟨⟨issues_of (by decide), by decide +kernel⟩, by decide +kernel, by decide +kernel, issues_of (by decide), by decide⟩

/-! ### Engines -/

/-- A 2 × 2 BF16 tensor in rows at the start of the last core's chamber. -/
def bfTile : Desc := desc2 (chamberBase 799) 0 0x0C 2 2 64 1

/-- The work of an instruction that has been issued, at place 0 with handle 0. -/
def work0 (i : Instr) (ds : List Desc) (vs : List Word) (st : WStatus) : Work := ⟨0, 0, i, ds, vs, [], 0, [], st, [], .ok, 0, [], [], false⟩

/-- A unit runs with one work. -/
def holds (u : SeqId) (w : Work) : State := prog u { h := [(0, .busy)], works := [w], nseq := 1 }

theorem witness_HandleDone :
    (((holds (.core 0) (work0 (.nop w0) [] [] (.ended .ecc))).seq (.core 0)).works.find? (fun x => x.handle == 0) =
        some (work0 (.nop w0) [] [] (.ended .ecc)) ∧
      ((holds (.core 0) (work0 (.nop w0) [] [] (.ended .ecc))).seq (.core 0)).run = .running) ∧
    ∀ w ∈ ((holds (.core 0) (work0 (.nop w0) [] [] .running)).seq (.core 0)).works, w.status = .running := by decide +kernel

/-- An LDS of `bfTile` on sub-array 3 (in G11) or on the gang. -/
def ldsWork (opt : Opt) (st : WStatus) : Work := work0 (.lds (by_ (.core 799)) 0 0 opt) [bfTile] [] st

theorem witness_DenseStartRuns :
    (∃ p, let s := holds (.core 799) (ldsWork 0 .queued); nextDense (s.seq (.core 799)).works 0 = some (ldsWork 0 .queued) ∧
      s.mayStart (s.seq (.core 799)) (ldsWork 0 .queued) = true ∧ planOf (ldsWork 0 .queued) = some p ∧ p.hs = true ∧
      p.wgr = false ∧ p.mode = (s.core 799).mode ∧ s.startedRuns 799 = [] ∧ (s.core 799).tile p.array = none ∧
      p.ok s 799 none = true ∧ p.gather = false) ∧
    ∃ p, let s := holds (.core 799) (ldsWork 0x3_C000 .queued);
      nextDense (s.seq (.core 799)).works 3 = some (ldsWork 0x3_C000 .queued) ∧
      planOf (ldsWork 0x3_C000 .queued) = some p ∧ p.hs = true ∧ p.wgr = false ∧ p.mode ≠ (s.core 799).mode ∧
      (s.core 799).idle = true ∧ p.array = 3 ∧ p.ok s 799 none = true ∧ p.gather = false :=
  ⟨⟨_, by decide +kernel, by decide +kernel, rfl, by decide +kernel⟩, _, by decide +kernel, rfl, by decide +kernel⟩

/-- An SCL that writes field `f` of the last amax slot. -/
def sclWork (f : BitVec 2) : Work :=
  work0 (.sclWrite (by_ (.core 799)) 0 0 0 f) [bfTile ||| 1023#512 <<< 108] [0xFFFF_FFFF_FFFF_FF00] .queued

/-- An SCL that reads field `f` of the last amax slot to the last word of its core's chamber. -/
def sclReads (f : BitVec 2) : Work :=
  work0 (.sclRead (by_ (.core 799)) 0 0 0 f) [bfTile ||| 1023#512 <<< 108] [524287] .queued

/-- A CVT of a tensor into another place. -/
def cvtGood : Work :=
  work0 (.cvt (by_ (.core 799)) 0 0 1 0) [bfTile, desc2 (chamberBase 799 + 0x1000) 0 0x0C 2 2 64 1] [] .queued

/-- A CVT between tensors of different sizes. -/
def cvtWork : Work :=
  work0 (.cvt (by_ (.core 799)) 0 0 1 0) [bfTile, desc2 (chamberBase 799) 0 0x0C 2 3 64 1] [] .queued

theorem witness_DenseStartSclCvt :
    (∀ f : BitVec 2, f ≠ 3 → let s := holds (.core 799) (sclWork f); nextDense (s.seq (.core 799)).works 0 = some (sclWork f) ∧
      s.mayStart (s.seq (.core 799)) (sclWork f) = true ∧ sclWork f ∈ (s.seq (.core 799)).works ∧ (∀ x ∈ (s.seq (.core 799)).works, x.race = []) ∧ s.poison = [] ∧
      (td ((sclWork f).descs.getD 0 0)).isStream = false ∧ ((sclWork f).vals.getD 0 0 = 0xFFFF_FFFF_FFFF_FF00) ∧
      (td ((sclWork f).descs.getD 0 0)).ok = true ∧ (td ((sclWork f).descs.getD 0 0)).amax = 1023) ∧
    (let s := holds (.core 799) cvtWork; nextDense (s.seq (.core 799)).works 0 = some cvtWork ∧
      s.mayStart (s.seq (.core 799)) cvtWork = true ∧ (td (cvtWork.descs.getD 0 0)).sizes ≠ (td (cvtWork.descs.getD 1 0)).sizes) ∧
    (let s := holds (.core 799) cvtGood; nextDense (s.seq (.core 799)).works 0 = some cvtGood ∧
      s.mayStart (s.seq (.core 799)) cvtGood = true ∧ (s.seq (.core 799)).works = [cvtGood] ∧
      cvtOk 799 (td (cvtGood.descs.getD 0 0)) (td (cvtGood.descs.getD 1 0)) = true) ∧
    (∀ f : BitVec 2, f ≠ 3 → let s := holds (.core 799) (sclReads f);
      nextDense (s.seq (.core 799)).works 0 = some (sclReads f) ∧ s.mayStart (s.seq (.core 799)) (sclReads f) = true ∧
      (td ((sclReads f).descs.getD 0 0)).ok = true ∧ ((sclReads f).vals.getD 0 0).toNat < 524288) := by
  decide +kernel

/-- A loaded tile of one element. -/
def tile0 : Tile := ⟨false, 0x0C, false, 1, [[(0, 0x3F80)]], [], [], 0, 0, [], []⟩

/-- A computed tile of one accumulator row that waits for its conversion. -/
def held0 (ovr_ : Bool) : HeldTile := ⟨0, 1, ovr_, []⟩

/-- The run of the instruction at place 0. -/
def dense0 (load redo ovr_ : Bool) : Dense :=
  ⟨0, load, if load then none else some tile0, 0, if load then 0 else 1, if load then [] else [held0 ovr_], 0, 0, redo, [], 2,
    true, [], [], .ok⟩

/-- The last core runs one dense instruction on the gang, with a tile loaded. -/
def engaged (w : Work) (d : Dense) : State :=
  { holds (.core 799) w with cores := [(799, { runs := [(0, [d])], tiles := [(0, some tile0)] })] }

/-- An MMA of one feed row that holds its stationary operand. -/
def mmaWork : Work :=
  work0 (.mma (by_ (.core 799)) 0 0 1 2 0 0) [desc2 (chamberBase 799) 3 0x0C 1 1 0 0,
    desc2 (chamberBase 799 + 0x1000) 3 0x0C 1 1 0 0, desc2 (chamberBase 799 + 0x2000) 3 0x0C 1 1 0 0] [] .running

theorem witness_StationaryLoadResult :
    (∃ p, let s := engaged (ldsWork 0 .running) (dense0 true false false);
      (s.core 799).runsOf 0 = [dense0 true false false] ∧ (s.core 799).mode = 0 ∧
      (s.seq (.core 799)).works.find? (fun x => x.seq == 0) = some (ldsWork 0 .running) ∧
      planOf (ldsWork 0 .running) = some p ∧ p.array = 0 ∧ p.lds = true ∧ s.poison = [] ∧ (ldsWork 0 .running).own 799 = []) ∧
    ∃ p, (engaged mmaWork (dense0 true false false)).poison = [] ∧
      ((engaged mmaWork (dense0 true false false)).core 799).runsOf 0 = [dense0 true false false] ∧
      planOf mmaWork = some p ∧ p.array = 0 ∧ p.lds = false ∧ p.outp = 0 ∧ mmaWork.own 799 = [] :=
  ⟨⟨_, by decide +kernel, by decide +kernel, by decide +kernel, rfl, by decide +kernel⟩, _, by decide +kernel, by decide +kernel, rfl, by decide +kernel⟩

theorem witness_TileEvents :
    ∃ p, planOf mmaWork = some p ∧ p.array = 0 ∧ p.inp ≠ 1 ∧ p.compressed = false ∧ p.accTiles ≤ 0 + 1 ∧
      (∀ b c : Bool, let s := engaged mmaWork (dense0 false b c);
        (s.core 799).runsOf 0 = [dense0 false b c] ∧ (dense0 false b c).stat = some tile0 ∧ (s.core 799).mode = 0 ∧
        (dense0 false b c).tiles = [held0 c] ∧
        (s.seq (.core 799)).works.find? (fun x => x.seq == 0) = some mmaWork ∧ mmaWork.race = []) ∧
      (dense0 false false true).recomp = true ∧ (dense0 false false true).tries ≠ (dense0 false false true).maxRetry :=
  ⟨_, rfl, by decide +kernel⟩

/-- A sparse instruction of core 0 that is first in its order. -/
def sparseWork (i : Instr) : Work :=
  work0 i [desc2 (chamberBase 0) 0 0x0C 2 2 64 1, desc2 (chamberBase 0 + 0x1000) 0 0x0C 2 2 64 1,
    desc2 (chamberBase 0 + 0x2000) 0 0x0C 2 2 64 1, 0] [1] .queued

theorem witness_SparseStartRuns :
    (∀ i ∈ ([.gth w0 0 0 1 2 0, .sct w0 0 0 1 2 0, .sca w0 0 0 1 2 0, .mrgMerge w0 0 0 1 2 0, .mrgBitmap w0 0 0 1 2 0,
        .topk w0 0 0 1 2 3 0, .seg w0 0 0 1 2 0, .cmp w0 0 0 1 0, .prn w0 0 0 1 0 0] : List Instr),
      let s := holds (.core 0) (sparseWork i)
      (s.seq (.core 0)).works.find? (fun x => isSparse x.instr && x.isQueued) = some (sparseWork i) ∧
      s.mayStart (s.seq (.core 0)) (sparseWork i) = true ∧ s.unitHeld 0 i = false ∧ (sparseWork i).own 0 = []) ∧ (td (desc2 0 4 0x0C 2 2 0 0)).isStream = true := by decide +kernel

/-- A packet for core 1 in core 0's buffer to the east, on channel 2. -/
def meshed : State := { up with mesh := [(16 * 0 + 4 * meshOut 0 1 + 2, [⟨1, .nothing, false⟩])] }

/-- Core 0's buffer to the east on channel 3 holds as many packets as it can. -/
def meshFull : State :=
  { up with mesh := [(16 * 0 + 4 * meshOut 0 1 + 3, List.replicate (Config.vcMore + 1) ⟨1, .nothing, false⟩)] }

theorem mesh_room : up.vcRoom 0 3 ⟨1, .nothing, false⟩ = true := by
  have h : up.vcBuf 0 (meshOut 0 1) 3 = [] := by decide
  unfold State.vcRoom
  simp [h]

theorem mesh_full : meshFull.vcRoom 0 3 ⟨1, .nothing, false⟩ = false := by
  have h : meshFull.vcBuf 0 (meshOut 0 1) 3 = List.replicate (Config.vcMore + 1) ⟨1, .nothing, false⟩ := rfl
  unfold State.vcRoom
  simp [h]

theorem witness_ChamberAndMesh : (up.domUp (5 + grottoOf 799) = true ∧ up.domUp 4 = true ∧ up.poison = [] ∧ up.fresh = [] ∧
      (List.replicate 128 (none : Option Byte)).length ≤ portBytes 3 ∧ (0x1F_FF80 : BitVec 21).toNat % 128 = 0 ∧
      (4 : Fin 129).val ≤ portBytes 0 ∧ (0x1F_FFFC : BitVec 21).toNat % 4 = 0 ∧ ¬(0x1F_FFFD : BitVec 21).toNat % 4 = 0) ∧
    (up.vcRoom 0 3 ⟨1, .nothing, false⟩ = true ∧ meshFull.vcRoom 0 3 ⟨1, .nothing, false⟩ = false) ∧
    ∃ d : Fin 4, meshNext 1 d.val = some 0 ∧ meshed.vcBuf 0 (meshBack d.val) 2 = [⟨1, .nothing, false⟩] ∧
      meshed.vcTurn 0 (meshBack d.val) = some 2 ∧ meshed.vcTurn 0 (meshBack d.val) ≠ some 1 :=
  ⟨by decide +kernel, ⟨mesh_room, mesh_full⟩, 1, by decide +kernel⟩

/-- A transfer of siphon 0 between two rows of four I8 elements in core 0's chamber, at one program word. -/
def emitting (w : Word) : Transfer :=
  { newTransfer 0 0 (work0 (.nop w0) [desc2 0x2000_0000_0000 0 0x10 1 4 4 1, desc2 0x2000_0000_1000 0 0x10 1 4 4 1] [] .running)
      .prog with prog := [w] }

/-- The released block with that transfer. -/
def emits (w : Word) : State := { up with siphons := [(0, { transfers := [emitting w] })] }

/-- EMIT of one element along dimension 1. -/
def emit1 : Word := BitVec.ofNat 64 (7 <<< 58 + 1 <<< 55 + 1)

/-- PAD of one element. -/
def pad1 : Word := BitVec.ofNat 64 (6 <<< 58 + 1)

theorem witness_SiphonEmitAndPad :
    (∀ i, i < 2 → let w := [emit1, pad1].getD i 0; (emits w).xfer 0 0 = some (emitting w) ∧ (emitting w).mode = .prog ∧ (emitting w).ended = false ∧
      (emitting w).waiting = false ∧ (emitting w).spoiled = false ∧ (emitting w).drv = false ∧ (emits w).poison = [] ∧
      (emits w).pools = [] ∧ (emits w).upds = [] ∧ (emits w).meets ((emitting w).access (emits w) true)
        (((td (emitting w).dst).elemBit ((td (emitting w).dst).walkAt 0)).toNat / 8) 1 = false ∧
      (((emitting w).prog.getD 0 0).extractLsb' 0 24).toNat = 1 ∧ (td (emitting w).dst).fm = .i8 ∧
      (td (emitting w).dst).lay = .rm ∧ (td (emitting w).dst).hasBlocks = false ∧ (emitting w).pos < (td (emitting w).dst).count) ∧
    up.target (((td (emitting emit1).dst).elemBit ((td (emitting emit1).dst).walkAt 0)).toNat / 8) = .chamber 0 0x1000 ∧
    ((emit1.extractLsb' 58 6).toNat = 7 ∧ (td (emitting emit1).src).fm = .i8 ∧ (td (emitting emit1).src).lay = .rm ∧
      (td (emitting emit1).src).hasBlocks = false ∧ up.target (((td (emitting emit1).src).elemBit [0, 0]).toNat / 8) = .chamber 0 0 ∧
      (emits emit1).meets ((emitting emit1).access (emits emit1) false)
        (((td (emitting emit1).src).elemBit [0, 0]).toNat / 8) 1 = false ∧
      (emitting emit1).mapped (td (emitting emit1).src) (emitCoords (emits emit1) (emitting emit1) 1 0) = some [0, 0]) ∧
    (pad1.extractLsb' 58 6).toNat = 6 := by decide +kernel

/-- Control processor 0 has issued an XFR to the last siphon and its last program slot. -/
def xfrWork : Work :=
  work0 (.xfrProg wc 0 0 1 2 0 215 15 false) [desc2 0x2000_0000_0000 0 0x10 1 4 4 1, desc2 0x2000_0000_1000 0 0x10 1 4 4 1, 0]
    [0] .queued

/-- That slot filled with one word. -/
def slotOf (w : Word) : State :=
  { holds (.cp 0) xfrWork with regs := (List.range 32).map fun i => (Reg.sipStore 215 + 256 * 15 + 8 * i, w) }

/-- XFRs of core 0 on siphon 1, of a stream of one tile and a region, and of a region to a rope. -/
def packWork (pack : Bool) : Work :=
  let st := desc2 0x2000_0000_0000 4 0x10 32 32 0 0
  let re := desc2 0x2000_0000_4000 0 0x10 4096 1 1 1
  if pack then work0 (.xfrPack w0 0 0 1 2 1 1) [st, re] [0] .queued else work0 (.xfrUnpack w0 0 0 1 2 1 1) [re, st] [0] .queued
def ropeWork : Work :=
  { work0 (.xfrRope w0 0 0 1 1 200) [desc2 0x2000_0000_0000 0 0x10 128 1 1 1] [0] .queued with
    block := List.replicate 32 0 ++ [128, 0, 1, 0, 1, 0, 0, 0, 1] ++ List.replicate 23 0 }

theorem witness_TransferLife :
    (∀ i, i < 2 → let w : Word := [0, 0xFC00_0000_0000_0000].getD i 0; nextXfr ((slotOf w).seq (.cp 0)) 215 = some xfrWork ∧
      (slotOf w).mayStart ((slotOf w).seq (.cp 0)) xfrWork = true ∧ (slotOf w).sipActive 215 < 64 ∧
      (slotOf w).domUp (sipDom 215) = true ∧ (slotOf w).sipOff 215 = false) ∧
    (sipProgram ((slotOf 0).sipSlot 215 15) = some [0] ∧
      progOk { newTransfer 0 (SeqId.cp 0).num xfrWork .prog with slot := 15 } [0] = true) ∧
    sipProgram ((slotOf 0xFC00_0000_0000_0000).sipSlot 215 15) = none ∧
    (let x := { emitting 0 with ended := true };
      ({ emits 0 with siphons := [(0, { transfers := [x] })] } : State).xfer 0 0 = some x ∧ x.mode = .prog ∧
      SeqId.ofNum x.unit = .core 0 ∧ ∃ k ∈ ((holds (.core 0) (work0 (.nop w0) [] [] .running)).seq (.core 0)).works,
        k.seq = x.work ∧ k.status = .running) ∧
    (emits 0).acksOpen 0 (emitting 0) = false ∧
    (let s := holds (.core 0) (packWork true); nextXfr (s.seq (.core 0)) 1 = some (packWork true) ∧
      s.mayStart (s.seq (.core 0)) (packWork true) = true ∧ s.sipActive 1 < 64 ∧ s.sipOff 1 = false ∧
      packOk (newTransfer 0 0 (packWork true) .pack) true = true) ∧
    (let s := holds (.core 0) (packWork false); nextXfr (s.seq (.core 0)) 1 = some (packWork false) ∧
      s.mayStart (s.seq (.core 0)) (packWork false) = true ∧
      packOk (newTransfer 0 0 (packWork false) .unpack) true = true) ∧
    (let s := holds (.core 0) ropeWork; nextXfr (s.seq (.core 0)) 200 = some ropeWork ∧
      s.mayStart (s.seq (.core 0)) ropeWork = true ∧ (ropePass 0 0 0 (some 200) (ropeWork.block.drop 0x20)).isSome = true ∧
      (td (ropeWork.descs.getD 0 0)).isRegion = true ∧ (td (ropeWork.descs.getD 0 0)).size 0 = 128 * 1 ∧
      barsOk ropeWork.block = true ∧ s.launchBuffers 200 = [] ∧
      (s.sipRead 200 (ropeWork.access 0 false) 0x2000_0000_0000 128).fault = none) ∧
    (let x := { emitting 0 with ended := true, mode := .pack, result := 0x3FFE_FFFF_FFC0 }; x.result < 0x3FFF_0000_0000) := by
  decide +kernel

/-- A transfer of siphon 0 at a WAITB of B1 on core 0's first word. -/
def waiting : Transfer := { emitting (BitVec.ofNat 64 (8 <<< 58 + 1 <<< 46 + 1)) with bar := [0, 0x2000_0000_0000] }

/-- Page tables of GDDR7 that map the first GiB by one leaf. -/
def tables : State :=
  { up with
    regs := [(Reg.memStat 0, 1)], snaps := [(0, [(Reg.sipPtRoot, 1)])]
    mem := [(0, 1), (1, 0x10), (0x1000, 0x0F), (0x1001, 0x01)], siphons := [(0, { transfers := [waiting] })] }

theorem witness_SiphonRegistersTlb :
    (∀ i, i < 7 → let w := ([BitVec.ofNat 64 (1 <<< 58 + 5 <<< 52 + 5 <<< 55 + 1), BitVec.ofNat 64 (1 <<< 58 + 2), BitVec.ofNat 64 (2 <<< 58),
        BitVec.ofNat 64 (3 <<< 58 + 3), BitVec.ofNat 64 (4 <<< 58), BitVec.ofNat 64 (5 <<< 58), 0] : List Word).getD i 0;
      (emits w).xfer 0 0 = some (emitting w) ∧ (emitting w).mode = .prog ∧ (emitting w).ended = false ∧
      (emitting w).waiting = false ∧ (emitting w).x.length = 6 ∧ (emitting w).c.length = 6 ∧ (emitting w).rot.length = 6 ∧ (emitting w).rev.length = 6 ∧
      (w.extractLsb' 55 3).toNat < 6 ∧ (w.extractLsb' 52 3).toNat < 6) ∧
    ((0 + 1) % 2 ^ 32 < 2 ∧ ¬(0 + 1) % 2 ^ 32 < 1) ∧
    (tables.xfer 0 0 = some waiting ∧ inChamberWindow (waiting.bar.getD 1 0 % 2 ^ 48) = true ∧
      tables.translate 0 0x2000_0000_0000 0 true false = .local_ 0x2000_0000_0000 ∧ tables.target 0x2000_0000_0000 = .chamber 0 0 ∧
      waiting.t.length = 2 ∧ tables.poison = [] ∧
      (tables.word32 0x2000_0000_0000 - (waiting.t.getD 1 0 + 1)).toInt < 0 ∧
      0 ≤ (tables.word32 0x2000_0000_0000 - waiting.t.getD 0 0).toInt) ∧
    (tables.siph 0).transfers ≠ [] ∧ inChamberWindow 0 = false ∧ (tables.siph 0).tlb = [] ∧
      tables.walk (tables.epReg (sipUnit 0) Reg.sipPtRoot) 0 = ([0, 0x1000], .leaf 0x10F 30) := by decide +kernel

/-- The pass of `pass` in another place or on its start. -/
def passAt (f : Pass → Pass) : State := { pass with passes := pass.passes.map f }

/-- A ROP of core 0 along its row. -/
def ropWork : Work :=
  { work0 (.rop w0 0 0) [] [] .queued with block := [0, 0, 2, 0, 1, 0, 0, 0, 3] ++ List.replicate 15 0 ++ [0xFF, 0xFF, 0xFF, 0xFF, 0, 0, 0, 0] }

/-- `pass` seen from its unit, whose work runs. -/
def passRuns : State :=
  { holds (.core 0) (work0 (.rop w0 0 0) [] [] .running) with passes := pass.passes.map fun p => { p with pos := 2 } }

theorem witness_RopePasses :
    (∃ x, (passAt fun p => { p with launched := false }).passes = [x] ∧ x.launched = false ∧ pass.poison = []) ∧
    (∃ x, pass.passes = [x] ∧ x.launched = true ∧ x.pos < x.span ∧ x.take.testBit x.pos = true ∧
      pass.fwdOnly x.nextCore = false ∧ x.ctr = none ∧ x.nextCore < 800 ∧ x.dest + x.data.length ≤ 0x20_0000) ∧
    (∃ x, (passAt fun p => { p with take := 2 }).passes = [x] ∧ x.take.testBit x.pos = false) ∧
    (∃ x, pass.passes = [x] ∧ ({ pass with offline := [1] } : State).fwdOnly x.nextCore = true) ∧
    (∃ x, passRuns.passes = [x] ∧ x.span ≤ x.pos ∧ SeqId.ofNum x.unit = .core 0 ∧
      ∃ w ∈ (passRuns.seq (.core 0)).works, w.seq = x.work ∧ w.status = .running) ∧
    (let s := holds (.core 0) ropWork; (s.seq (.core 0)).works.find? (fun w => w.handle == 0 && w.status == .queued) = some ropWork ∧
      s.mayStart (s.seq (.core 0)) ropWork = true ∧ (ropePass s.nextPass 0 0 none ropWork.block).isSome = true ∧
      s.poison = [] ∧ s.meets (ropWork.access 0 false) 0x2000_0000_0000 128 = false) ∧
    pass.meets ⟨0, some (0, 0), true⟩ 0x2000_0040_0100 128 = false ∧ pass.count (Reg.nocRopeStallCnt 1) ≤ 2 ^ 48 - 1 := by
  refine ⟨⟨_, rfl, by decide +kernel⟩, ⟨_, rfl, by decide +kernel⟩, ⟨_, rfl, by decide +kernel⟩, ⟨_, rfl, by decide +kernel⟩, ⟨_, rfl, by decide +kernel⟩, by decide +kernel⟩

/-- Core 0 waits at its chamber's first word with a target, a watch of its own registered there. -/
def waits (fired poll : Bool) (target : BitVec 32) : State :=
  { up with
    seqs := [(0, { run := .waiting, barWait := some (0x2000_0000_0000, target) })]
    watches := [⟨0x2000_0000_0000, target, .seq (.core 0), poll, fired⟩] }

theorem witness_Barriers :
    (let k := work0 (.barArrive w0 0 1 0 5) [] [0x2000_0000_0040, 0] .queued; let s := holds (.core 0) k;
      (s.seq (.core 0)).works = [k] ∧ k.handle = (0 : BitVec 5).toNat ∧ k.after = [] ∧ k.fence ≤ k.seq ∧ s.paused = false ∧
      s.storesOpen (.core 0) k = false ∧ s.training 0x2000_0000_0040 4 = false ∧ 0x2000_0000_0040 % 4 = 0 ∧ s.counterHome (s.epReg (SeqId.core 0).epochUnit Reg.sipPtRoot) 0x2000_0000_0040 0 true =
        .local_ 0x2000_0000_0040 ∧ s.poison = [] ∧ s.clearing 0x2000_0000_0040 = false) ∧
    (let k := work0 (.barArrive w0 0 1 0 5) [] [0, 0] .queued
      let s : State := { remoteMap with seqs := (holds (.core 0) k).seqs };
      s.counterHome (s.epReg (SeqId.core 0).epochUnit Reg.sipPtRoot) 0 0 true = .remote 1 0 ∧ (s.linkTo 1 0).2.isSome = true ∧
        s.storesOpen (.core 0) k = false) ∧
    (let s := prog (.core 0) { a := [(1, 0x2000_0000_0040)], s := [(1, 1)] }; Issues w0 s ∧ s.poison = [] ∧
      s.counterHome (s.epReg (SeqId.core 0).epochUnit Reg.sipPtRoot) 0x2000_0000_0040 0 false = .local_ 0x2000_0000_0040 ∧
      s.clearing 0x2000_0000_0040 = false ∧ (s.word32 0x2000_0000_0040 - 1).toInt < 0 ∧
      0 ≤ (s.word32 0x2000_0000_0040 - 0).toInt) ∧
    (∃ x, (waits true false 1).watches = [x] ∧ x.who = .seq (.core 0) ∧ x.fired = true ∧
      ((waits true false 1).seq (.core 0)).barWait.isSome = true) ∧
    ∃ x, (waits false true 0).watches = [x] ∧ x.poll = true ∧ (waits false true 0).clearing x.home = false ∧
      (waits false true 0).clearing (x.home + 3) = false ∧ 0 ≤ ((waits false true 0).counterAt x.home - x.target).toInt :=
  ⟨by decide +kernel, by decide +kernel, ⟨issues_of (by decide +kernel), by decide +kernel⟩, ⟨_, rfl, by decide +kernel⟩, _,
    rfl, by decide +kernel⟩

/-! ### Commands, queues, pools and epochs -/

/-- The released block with every memory controller ready and nothing queued. -/
def ready : State := { up with regs := (List.range 16).map fun m => (Reg.memStat m, 1) }

/-- `ready` with more registers. -/
def with_ (rs : SMap Word) : State := { ready with regs := rs ++ ready.regs }

/-- Queue 5 with a submission ring of 256 entries. -/
def ring5 (head tail : Word) : State :=
  with_ [(Reg.ctlSqCfg 5, 0x8005_0000_0010_0008), (Reg.ctlCqCfg 5, 0x8000_0000_0011_0008), (Reg.ctlSqStat 5, head),
    (Reg.ctlSqDoorbell 5, tail)]

theorem witness_DoorbellRules : (ring5 0 0).domUp 4 = true ∧ ringSize ((ring5 0 0).reg (Reg.ctlSqCfg 5)) = 256 ∧
    (0 < (256 - 0 : BitVec 32).toInt ∧ (256 - 0 : BitVec 32).toInt ≤ 256) ∧ (0 - 0 : BitVec 32).toInt ≤ 0 ∧
    (256 < (257 - 0 : BitVec 32).toInt ∧ (ring5 0 0).bit (Reg.ctlSqStat 5) 63 = false) ∧
    ((ring5 0 3).reg (Reg.ctlSqDoorbell 5) = 3 ∧ (2 - 3 : BitVec 32).toInt < 0) := by decide +kernel

/-- A fetched command that does not run. -/
def fetched (entry : List Byte) : State := { up with cmds := [newCmd 5 0x101 entry] }

theorem witness_CommandLife :
    (let s := ring5 0xFFFF_FFFF 0; s.isOff 7 51 = false ∧ s.cmds = [] ∧ s.cancels = [] ∧ s.bit (Reg.ctlSqCfg 5) 63 = true ∧
      s.bit (Reg.ctlSqStat 5) 63 = false ∧ 0 < dist32 (s.sqTail 5) (s.sqHead 5) ∧ s.cqOn (s.sqCq 5) = true ∧
      s.cqFull (s.sqCq 5) = false ∧ (∀ j : Fin 16, j ≠ 5 → s.bit (Reg.ctlSqCfg (16 * 0 + j.val)) 63 = false) ∧
      s.ringPlace (ringBase (s.reg (Reg.ctlSqCfg 5)) + 64 * (0xFFFF_FFFF % 256)) = true ∧
      s.accessFail (ringBase (s.reg (Reg.ctlSqCfg 5)) + 64 * (0xFFFF_FFFF % 256)) = none ∧
      s.training (ringBase (s.reg (Reg.ctlSqCfg 5)) + 64 * (0xFFFF_FFFF % 256)) 64 = false ∧
      s.rdBad (ringBase (s.reg (Reg.ctlSqCfg 5)) + 64 * (0xFFFF_FFFF % 256)) 64 = false) ∧
    (∃ c, (fetched [0]).cmds.filter (fun x => x.q == 5) = [c] ∧ c.running = false ∧ c.finished = false ∧ c.cancelled = false ∧
      c.ok = true) ∧
    ∃ c, (fetched [7]).cmds.filter (fun x => x.q == 5) = [c] ∧ c.ok = false :=
  ⟨by decide +kernel, ⟨newCmd 5 0x101 [0], by decide +kernel⟩, newCmd 5 0x101 [7], by decide +kernel⟩

/-- The command that `running` holds. -/
def command (entry : List Byte) : Cmd := { newCmd 5 0x101 entry with running := true }

/-- An entry: its operation, FLAGS and three operands of 64 bits. -/
def entry (op flags a b c : Nat) : List Byte :=
  [BitVec.ofNat 8 op, BitVec.ofNat 8 flags, 0, 0, 0, 0, 0, 0] ++ natLE 8 a ++ natLE 8 b ++ natLE 8 c

/-- The conditions of a running command from their test. -/
theorem runs_of {q : Fin 64} {idx : BitVec 32} {op : Nat} {c : Cmd} {s : State}
    (h : (s.cmdOf q idx op == some c && s.cmds.filter (fun x => x.q == q.val && x.idx == idx.toNat && !x.finished) == [c] &&
      c.q == q.val && c.idx == idx.toNat && !c.finished && !c.cancelled) = true) : claimRuns q idx op c s := by
  simp only [Bool.and_eq_true, beq_iff_eq, Bool.not_eq_true'] at h
  exact ⟨h.1.1.1.1.1, h.1.1.1.1.2, h.1.1.1.2, h.1.1.2, h.1.2, h.2⟩

/-- A running CANCEL of queue 6 from index 3 on, one command, and that command, fetched and not started. -/
def cancelling : State :=
  { up with cmds := [command (entry 5 0 0x3_0000_0006 1 0), newCmd 6 3 [0]] }

theorem witness_ImmediateCancel :
    (claimRuns 5 0x101 0 (command (entry 0 0 0 0 0)) (running (entry 0 0 0 0 0))) ∧
    (∀ a : Fin 3, claimRuns 5 0x101 4 (command (entry 4 0 (15 + 256 * a) 0 0)) (running (entry 4 0 (15 + 256 * a) 0 0)) ∧
      (command (entry 4 0 (15 + 256 * a) 0 0)).fld 9 1 = a ∧ (running (entry 4 0 (15 + 256 * a) 0 0)).poolWaits 15 = []) ∧
    (claimRuns 5 0x101 6 (command (entry 6 3 0 0 0)) (running (entry 6 3 0 0 0)) ∧ (command (entry 6 3 0 0 0)).begun = false ∧
      ((command (entry 6 3 0 0 0)).fld 1 1).testBit 2 = false) ∧
    (claimRuns 5 0x101 5 (command (entry 5 0 63 0 0)) (running (entry 5 0 63 0 0)) ∧
      (∀ x ∈ (running (entry 5 0 63 0 0)).cmds, x.q ≠ 63) ∧ (running []).sqTail 63 = (running []).sqHead 63) ∧
    (claimRuns 5 0x101 5 (command (entry 5 0 0x3_0000_0006 1 0)) cancelling ∧
      cancelling.cmds.filter (fun y => y.q == 6 && inCancel 3 1 y.idx && !y.finished) = [newCmd 6 3 [0]] ∧
      (command (entry 5 0 0x3_0000_0006 1 0)).fld 8 1 = 6 ∧ (command (entry 5 0 0x3_0000_0006 1 0)).fld 0xC 4 = 3 ∧
      (command (entry 5 0 0x3_0000_0006 1 0)).fld 0x10 4 = 1 ∧ cancelling.sqTail 6 = cancelling.sqHead 6) := by
  refine ⟨runs_of (by decide +kernel), ?_, ⟨runs_of (by decide +kernel), by decide +kernel⟩,
    ⟨runs_of (by decide +kernel), by decide +kernel⟩, runs_of (by decide +kernel), by decide +kernel⟩
  intro a
  match a with
  | 0 => exact ⟨runs_of (by decide +kernel), by decide +kernel⟩
  | 1 => exact ⟨runs_of (by decide +kernel), by decide +kernel⟩
  | 2 => exact ⟨runs_of (by decide +kernel), by decide +kernel⟩

/-- A running CORES with the launch block of `launching`. -/
def coresRun : State := { running (entry 2 0 0 0 0) with mem := launching.mem }

/-- A running COPY of one word inside core 0's chamber. -/
def copyRun : State := running (entry 3 0 0x2000_0000_0000 0x2000_0000_0004 4)

theorem witness_WorkCommands :
    (claimRuns 5 0x101 1 (command (entry 1 0 0 7 0)) (running (entry 1 0 0 7 0)) ∧ poisonOk (running (entry 1 0 0 7 0)) = true ∧
      (command (entry 1 0 0 7 0)).begun = false ∧ (command (entry 1 0 0 7 0)).fld 0x18 8 = 0 ∧ (0 : Fin 4).val = 5 / 16 ∧
      ((running (entry 1 0 0 7 0)).seq (.cp 0)).run = .idle) ∧
    (claimRuns 5 0x101 2 (command (entry 2 0 0 0 0)) coresRun ∧ poisonOk coresRun = true ∧ coresRun.launches = [] ∧
      (let b := coresRun.rdBytes 0x3000_0000_0000 256; blockField b 0 4 < blockField b 4 4 ∧ blockField b 4 4 ≤ 8192 ∧
        blockField b 8 8 + 2 * blockField b 4 4 ≤ 16777216 ∧
        ∀ c, c < 800 → ((blockField b 0x88 100).testBit c = true ↔ c = 799)) ∧
      coresRun.coreRefuses 799 = false ∧ (coresRun.seq (.core 799)).run = .idle) ∧
    (claimRuns 5 0x101 3 (command (entry 3 0 0x2000_0000_0000 0x2000_0000_0004 4)) copyRun ∧ poisonOk copyRun = true ∧
      copyRun.sipRefuses 205 = false ∧ copyRun.poison = [] ∧
      ∀ i, i < 4 → copyRun.accessFail (0x2000_0000_0000 + i) = none ∧ copyRun.accessFail (0x2000_0000_0004 + i) = none ∧
        copyRun.clearing (0x2000_0000_0000 + i) = false) ∧
    (copyRun.training 0x2000_0000_0000 4 = false ∧ copyRun.training 0x2000_0000_0004 4 = false ∧
      copyRun.poolHit 0x2000_0000_0000 4 = [] ∧ copyRun.poolHit 0x2000_0000_0004 4 = []) :=
  ⟨⟨runs_of (by decide +kernel), by decide +kernel⟩, ⟨runs_of (by decide +kernel), by decide +kernel⟩,
    ⟨runs_of (by decide +kernel), by decide +kernel⟩, by decide +kernel⟩

/-- `record` with its memory controllers ready. -/
def recorded : State := { record with regs := record.regs ++ ready.regs }

theorem witness_CompletionRecord : ∃ c, recorded.cmds.find? (fun c => c.finished && recorded.sqCq c.q == 5) = some c ∧
    recorded.cqOn 5 = true ∧ recorded.cqFull 5 = false ∧ recorded.ringPlace 0x11_1FE0 = true ∧
    ringBase (recorded.reg (Reg.ctlCqCfg 5)) + 32 * (0xFF % 256) = 0x11_1FE0 ∧ recorded.accessFail 0x11_1FE0 = none ∧
    recorded.training 0x11_1FE0 32 = false ∧ recorded.poison = [] := ⟨_, rfl, by decide +kernel⟩

/-- Completion ring 5 with its tail at 5. -/
def tail5 : State := with_ [(Reg.ctlCqTail 5, 5), (Reg.ctlCqCfg 5, 0x8000_0000_0011_0008), (Reg.ctlSqCfg 63, 0x8005_0000_0010_0008)]

theorem witness_RingRegisters : tail5.domUp 4 = true ∧ 0 < (6 - 5 : BitVec 32).toInt ∧ (5 - 5 : BitVec 32).toInt ≤ 0 ∧
    rsvdBits (Reg.ctlCqHead 5) 5 = 0 ∧ rsvdBits (Reg.ctlCqHead 5) 6 = 0 ∧
    rsvdBits (Reg.ctlSqCfg 63) 0x8005_0000_0010_0008 = 0 ∧ (0x8005_0000_0010_0008 : Word).getLsbD 63 = true ∧
    rsvdBits (Reg.ctlSqCfg 63) 0 = 0 ∧ (0 : Word).getLsbD 63 = false ∧ rsvdBits (Reg.ctlCqCfg 5) 0 = 0 ∧ tail5.cqOn 5 = true ∧
    (tail5.storeReg (Reg.ctlCqCfg 5) 0 allOnes).cqOn 5 = false ∧
    (tail5.storeReg (Reg.ctlCqCfg 5) 0x8000_0000_0011_0008 allOnes).cqOn 5 = true ∧
    tail5.sqCq 63 = 5 ∧ tail5.bit (Reg.ctlSqStat 63) 63 = false := by decide +kernel

theorem witness_EpochSwitch : (let s : State := { up with epoch := 1 };
      (∀ u ∈ [799, 1015, 1047, 1049, 1065, 1066, 1067], SMap.get 0 s.unitEpoch u ≠ s.epoch ∧ s.unitOff u = false) ∧
      (s.seq (SeqId.ofNum 799)).works = [] ∧ s.cfgChanges 799 0 = false ∧ (s.siph 215).transfers = [] ∧ s.passes = [] ∧
      (s.link 11).retry = [] ∧ s.xch.blocks = [] ∧ s.xch.batches = [] ∧ (s.upd 15).inv = none ∧ s.rsl.cairn = none ∧
      ∀ n : Fin 4, (s.seq (.cp n)).inLoop = false) ∧
    SMap.get 0 up.unitEpoch 0 = up.epoch ∧ ({ up with offline := [0] } : State).unitOff 0 = true ∧
    (let w := work0 (.nop w0) [] [] .running; (holds (.core 0) w).seq (SeqId.ofNum 0) = (holds (.core 0) w).seq (.core 0) ∧
      w ∈ ((holds (.core 0) w).seq (.core 0)).works ∧ ¬0 < (w.epoch - SMap.get 0 (holds (.core 0) w).unitEpoch 0).toInt) := by
  decide +kernel

/-! ### Parameter update and the exchange unit -/

/-- An update block: a BF16 parameter of 2 × 2 elements in GDDR7 and a gradient like it. -/
def updBlock : List Byte :=
  List.replicate 128 0 ++ natLE 64 (desc2 0x1000 0 0x0C 2 2 2 1).toNat ++ natLE 64 (desc2 0x2000 0 0x0C 2 2 2 1).toNat ++
    List.replicate 256 0

/-- An UPD of the last engine by the last control processor. -/
def updWork (i : Word) (st : WStatus) : Work := work0 (.upd (by_ (.cp 3)) 0 0 0x8000) [] [i] st

/-- The released block with that work, its block at word 0. -/
def updates (w : Work) : State := { holds (.cp 3) w with mem := memAt 0x3000_0000_0000 updBlock }

/-- That engine's part, in one phase. -/
def updPart (phase1 : Bool) : Inv :=
  { claimPart (updates (updWork 0 .running)) 15 3 (updWork 0 .running) 0x3000_0000_0000 with phase1 := phase1 }

/-- The released block with that part taken up. -/
def engine (phase1 : Bool) : State := { updates (updWork 0 .running) with upds := [(15, { inv := some (updPart phase1) })] }

theorem witness_UpdateEngines :
    (let s := updates (updWork 0 .queued); let v := claimPart s 15 3 (updWork 0 .queued) 0x3000_0000_0000;
      (s.seq (.cp 3)).works = [updWork 0 .queued] ∧ s.poison = [] ∧ (claimOpt 0x8000 0 16).getLsbD 15 = true ∧ s.paused = false ∧
      (s.upd 15).inv = none ∧ s.domUp 3 = true ∧ s.isOff 7 49 = false ∧ v.pcEn = false ∧
      v.ok (s.upd 15).row.isSome false = true) ∧
    (1 % 32 ≠ 0 ∧ (claimOpt 0x8000 0 16).toNat = 2 ^ 15 ∧
      ∀ j, j < 16 → ((updates (updWork 1 .queued)).upd j).inv = none) ∧
    ((engine true).upd 15).inv = some (updPart true) ∧ (updPart true).fld (0x180 + 15) 1 = 0 ∧ grottoOf 0 = 0 ∧
      (updPart true).done = false ∧ (∀ c : Fin 800, grottoOf c.val = 0 → ((engine true).seq (.core c)).run = .idle) ∧
      (∀ c : Fin 800, grottoOf c.val = 0 → (engine true).coreOff c.val = false) ∧
      ({ engine true with offline := [0] } : State).coreOff 0 = true ∧
      (({ engine true with seqs := [(0, { run := .running })] } : State).seq (.core 0)).run ≠ .idle ∧
    (engine true).vaTraining ((engine true).updRoot 15) 2 (updPart true).reads = false ∧
      (engine false).vaTraining ((engine false).updRoot 15) 2 ((updPart false).reads ++ (updPart false).writes) = false ∧
    ((engine false).upd 15).inv = some (updPart false) ∧ (updPart false).phase1 = false ∧ (updPart false).pcEn = false ∧
      (updPart false).unit = 0x3FC + 3 ∧ (updPart false).work = 0 := by decide +kernel

/-- An exchange block of ring 3, index 0, at the first slot of its ring in GDDR7: operation, T, step, START, TGT, LINK and its
three descriptors. -/
def xBytes (op t step start tgt link : Nat) (a b c : Desc) : List Byte :=
  natLE 4 op ++ natLE 4 t ++ natLE 8 step ++ natLE 8 0 ++ natLE 8 start ++ natLE 8 tgt ++ natLE 16 0 ++ natLE 8 link ++
    natLE 64 a.toNat ++ natLE 64 b.toNat ++ natLE 64 c.toNat

/-- A ROUTE of one token over one expert. -/
def routeBytes (step start tgt : Nat) : List Byte :=
  xBytes 0 1 step start tgt 0 (desc2 0x1000 0 0x0F 1 1 1 1) (desc2 0x1000 0 0x0F 1 1 1 1) (desc2 0x1000 0 0x0F 1 0 1 1)

/-- A DISPATCH of one token of 32 elements. -/
def dispatchBytes : List Byte :=
  xBytes 1 1 0 0 0 0 (desc2 0x1000 0 0x0C 1 32 64 1) (desc2 0x1000 0 0x13 1 1 1 1) (desc2 0x1000 0 0x0F 1 1 1 1)

/-- An ALL_REDUCE between devices 0 and 1, whose ids stand in core 0's chamber. -/
def reduceBytes : List Byte :=
  natLE 4 0 ++ natLE 4 2 ++ natLE 8 0 ++ natLE 24 0 ++ natLE 8 0x2000_0000_0000 ++ natLE 16 0 ++
    natLE 64 (desc2 0x1000 0 0x0C 2 2 2 1).toNat ++ natLE 64 (desc2 0x1000 0 0x0C 2 2 2 1).toNat

/-- Layer 0 in GDDR7: one expert, K = 1, BF16 answers, its counters in core 0's chamber. -/
def layer : SMap Byte :=
  [(0, 1), (2, 1), (4, 1), (6, 1), (0x14, 0x0C), (0x45, 0x20), (0x4D, 0x20)]

/-- The block whose work and collective rings 3 hold one block, the members' ids and a layer. -/
def ringed (bs : List Byte) : State :=
  { with_ [(Reg.xchWringCfg 3, 0x8004_0000_0010_0000), (Reg.xchCringCfg 3, 0x8004_0000_0010_0000)] with
    mem := layer ++ (0x10_0000, 1) :: memAt 0x10_0100 bs ++ [(0x2000_0000_0002, 1)] }

/-- That block taken by a ring. -/
def taken (ring : Nat) (bs : List Byte) : State :=
  { ringed bs with xch := { blocks := [newBlock ring 0 0x10_0100 bs] } }

/-- That block taken while its START counter lies on device 1, which link 11 leads to. -/
def takenFar : State :=
  { taken 3 (routeBytes 0 0x1000 1) with
    regs := (Reg.memStat 0, 1) :: remoteMap.regs, snaps := [(0, [(Reg.sipPtRoot, 0x8001)])]
    mem := layer ++ [(0x8000, 1), (0x8001, 0x90), (0x9000, 0x0F), (0x9001, 0x08), (0x9006, 1), (0x9007, 0x10)] }

/-- A block as it starts, at the layer slot that a state gives it. -/
def startsAt (s : State) (b : XBlock) : XBlock := { b with slot := s.layerAt b.layer }

/-- A state whose exchange unit stands in the newest epoch. -/
def newEpoch (s : State) : State := (s.switchAll 1048).switchAll 1049

theorem witness_ExchangeRings :
    (rsvdBits (Reg.xchWringCfg 3) 0x8004_0000_0010_0000 = 0 ∧ rsvdBits (Reg.xchCringCfg 3) 0x8004_0000_0010_0000 = 0 ∧
      rsvdBits (Reg.xchWringCfg 3) 0 = 0 ∧ rsvdBits (Reg.xchCringCfg 3) 0 = 0) ∧
    ((ringed (routeBytes 0 0 0)).domUp 4 = true ∧ (ringed (routeBytes 0 0 0)).ringNext 3 = some (0, 0x10_0100) ∧
      (ringed (routeBytes 0 0 0)).poison = [] ∧ (ringed (routeBytes 0 0 0)).xch.step = none ∧
      (newBlock 3 0 0x10_0100 ((ringed (routeBytes 0 0 0)).rdBytes 0x10_0100 256)).op = 0) ∧
    (let s : State := { ringed (routeBytes 1 0 0) with xch := { step := some 0 } }; s.ringNext 3 = some (0, 0x10_0100) ∧
      s.xch.step = some 0 ∧ 0 < (newBlock 3 0 0x10_0100 (s.rdBytes 0x10_0100 256)).step) ∧
    (let s := ringed reduceBytes; s.ringNext (4 + 3) = some (0, 0x10_0100) ∧ s.xch.doomed = [] ∧
      let y := s.takeColl 7 0 0x10_0100; let x := (chain y.1).members y.2;
      x.1.fault = none ∧ x.2 = [0, 1] ∧ x.1.s.checkColl y.2 x.2 = true) ∧
    (let s := taken 3 (routeBytes 0 0 0); (∃ b ∈ s.xch.blocks, s.xch.blocks.find? (fun x => x.ring == 3 && !x.started) = some b ∧
      s.startX b = (none, true) ∧ s.startFails (startsAt s b) = none ∧ b.op = 0) ∧ s.paused = false ∧ s.isOff 7 32 = false ∧
      s.isOff 7 33 = false) ∧
    (let s := taken 3 (routeBytes 0 0x2000_0000_0000 0x2_0000); ∀ b ∈ s.xch.blocks, s.startX b = (none, false) ∧
      s.startAway b = false) ∧
    (∃ b ∈ takenFar.xch.blocks, takenFar.startX b = (none, false) ∧ b.asked = false ∧ b.start = 0x1000 ∧
      takenFar.counterHome takenFar.xchRoot 0x1000 3 false = .remote 1 0x1000 ∧ (takenFar.linkTo 1 0x1000).2 = some 11) ∧
    (let s := taken 3 dispatchBytes; (∃ b ∈ s.xch.blocks, s.startX b = (none, true) ∧
      (newEpoch s).startFails (startsAt (newEpoch s) b) = none ∧ b.op = 1) ∧ s.xch.batches = []) ∧
    (let s := taken 3 (xBytes 1 1 0 0 0 0 0 0 0); ∃ b ∈ s.xch.blocks, s.startX b = (none, true) ∧
      (newEpoch s).startFails (startsAt (newEpoch s) b) = some .desc ∧ b.op = 1) ∧
    (let s := taken 7 reduceBytes; ∃ b ∈ s.xch.blocks, s.startX b = (none, true)) ∧
    (let s := taken 3 (xBytes 0 0 0 0 0 0 0 0 0); ∃ b ∈ s.xch.blocks, s.startX b = (none, true) ∧
      s.startFails (startsAt s b) = some .desc) :=
  ⟨by decide +kernel, by decide +kernel, by decide +kernel, by decide +kernel, by decide +kernel, by decide +kernel,
    by decide +kernel, by decide +kernel, by decide +kernel, by decide +kernel, by decide +kernel⟩

/-- A started block of ring 3, whose LINK names the batch at core 0's first byte. -/
def begun (op : Nat) : XBlock :=
  { newBlock 3 0 0x10_0100 (xBytes op 1 0 0 0 0x2000_0000_0000 0 0 0) with started := true, tag := 7 }

/-- The batch under tag 7, with its assignment in one state. -/
def batch7 (st : AssignState) (live due : Bool) : Batch :=
  ⟨7, 3, 0x2000_0000_0000, [], 0, 0, 0, 32, 1, 1, 64, true, [⟨0, 1, st⟩], [1], [], .ok, live, due, []⟩

/-- The exchange unit with a started block and the batch. -/
def exchanging (op : Nat) (st : AssignState) (live due : Bool) : State :=
  { with_ [(Reg.cslLinkStat 11, 0x3000_0000_0000_0000)] with
    mem := layer, xch := { blocks := [begun op], batches := [batch7 st live due] } }

/-- A started DISPATCH of one token whose operands stand in core 0's chamber. -/
def dispatched : XBlock :=
  { newBlock 3 0 0x10_0100 (xBytes 1 1 0 0 0 0 (desc2 0x2000_0000_1000 0 0x0C 1 32 64 1) (desc2 0x2000_0000_2000 0 0x13 1 1 1 1)
      (desc2 0x2000_0000_3000 0 0x0F 1 1 1 1)) with started := true, tag := 7 }
def dispatching : State :=
  { exchanging 1 .pending true false with xch := { blocks := [dispatched], batches := [batch7 .pending true false] } }

/-- A started COMBINE_B like it, with the record and the LINK block in the chamber too. -/
def backing : XBlock :=
  let b := dispatched.bytes
  let head := BitVec.ofNat 8 3 :: (b.drop 1).take 0x27
  { dispatched with bytes := head ++ natLE 8 0x2000_0000_4000 ++ natLE 8 0 ++ natLE 8 0x2000_0000_5000 ++ b.drop 0x40 }
def backward : State :=
  { exchanging 3 .pending true false with xch := { blocks := [backing], batches := [batch7 .pending true false] } }

theorem witness_ExchangeOperations :
    (∀ op, op < 6 → (exchanging op .landed true false).xOf 3 0 op = some (begun op)) ∧
    (exchanging 2 .landed true false).linkBatch (begun 2).link = some (batch7 .landed true false) ∧
    (batch7 .landed true false).pending = false ∧
    (exchanging 4 .pending true false).linkBatch (begun 4).link = some (batch7 .pending true false) ∧
    (batch7 .pending true false).pending = true ∧
    (let s : State := { exchanging 2 .landed true false with xch := { blocks := [begun 2, begun 4] } };
      s.linkBatch (begun 2).link = none ∧ s.linkBatch (begun 4).link = none) ∧
    (let s := exchanging 1 .pending true false; let y := s.selections (begun 1);
      (y.1.batchRows (begun 1) 1 (inOrder 1 (s.admitted (begun 1) y.2))).1.fault.isSome = true) ∧
    (let s := dispatching; let b := dispatched; s.xOf 3 0 1 = some b ∧ (s.batch b.tag).isSome = true ∧
      let y := s.selections b;
      (y.1.batchRows b (s.layerK b.slot) (inOrder (b.t * s.layerK b.slot) (s.admitted b y.2))).1.fault = none) ∧
    ((exchanging 3 .pending true false).backRun (begun 3)).1.fault.isSome = true ∧
    (backward.xOf 3 0 3 = some backing ∧ (backward.batch backing.tag).isSome = true ∧
      (backward.backRun backing).1.fault = none) := by decide +kernel

/-- A header of device 1 for a step. -/
def header (step : BitVec 64) : XHead := ⟨1, 7, step, 0, true, false, 32, []⟩

/-- A batch at this destination, placed or not, its counter's target, and pool entries not yet put. -/
def inbound_ (placed : Bool) (target : BitVec 32) (left : List (List Byte)) : Inbound :=
  ⟨0, 0, 0, 1, 0, [⟨1, 7, 32, [], false⟩], placed, left, target⟩

/-- The exchange unit with that batch; `member` is a live member of the roster, none for an empty roster. -/
def inboundState (g : Inbound) (member : Option Nat) : State :=
  { with_ ((Reg.cslLinkStat 11, 0x3000_0000_0000_0000) :: if member.isSome then [(Reg.rslRoster, 0x3000_0000_0000)] else []) with
    mem := layer ++ (match member with | some d => [(0x3000_0000_0000 + d / 8, BitVec.ofNat 8 (2 ^ (d % 8)))] | none => [])
    xch := { inbound := [g] } }

/-- Exchange packets of device 1 under a tag, with these payloads, have come in on link 11. -/
def posted (tag : Nat) (ms : List (List Byte)) (s : State) : State :=
  { s with links := [(11, { inbox := ms.map fun b => ⟨s.devId, 0, 5, 1, 0, 1, tag, 0, b⟩ })] }

/-- The packets of a header that names one expert's layer. -/
def headed (step : BitVec 64) : State :=
  posted 7 (arrived (XHead.msgs (header step) 1)) (exchanging 0 .pending true false)

/-- The packets of an answer row of 64 zero bytes for the assignment at place 0. -/
def answered (live : Bool) : State :=
  posted 7 (arrived [routeRecord 0 0 0 ++ List.replicate 64 0]) (exchanging 0 .pending live false)

theorem member_awaited : (inboundState (inbound_ false 0 []) (some 4095)).headsIn (inbound_ false 0 []) = false :=
  List.all_eq_false.mpr ⟨4095, List.mem_filter.mpr ⟨List.mem_range.mpr (by decide), by decide +kernel⟩, by decide⟩

theorem witness_ExchangeTraffic :
    (inboundState (inbound_ false 0 []) (some 4095)).headsIn (inbound_ false 0 []) = false ∧
    (∀ k : Fin 3, let s := headed (BitVec.ofNat 64 k.val); s.linkState 11 = 3 ∧ s.holdsRows = false ∧
      (header 1).src.toNat ≠ s.devId ∧ s.dropped 1 = false ∧ (s.expertsOf (s.layerAt 0) s.devId).length = 1 ∧
      (let ms := arrived (XHead.msgs (header (BitVec.ofNat 64 k.val)) 1);
        (s.takeXch 11 1 7 ms.length (· == ms)).isSome = true) ∧
      s.stepAgrees k.val = decide (k.val < 2)) ∧
    (let s := inboundState (inbound_ false 0 []) none; s.oldest 0 1 false = some (inbound_ false 0 []) ∧
      s.headsIn (inbound_ false 0 []) = true ∧ s.paused = false ∧ s.layerOk 0 = true) ∧
    (let s := inboundState (inbound_ true 0 []) none; s.oldest 0 1 true = some (inbound_ true 0 []) ∧
      ahead (s.ctrValue (s.rdLE (0 + 0x40 + 8 * 1) 8)) 0 = true ∧
      ahead (s.ctrValue (s.rdLE (0 + 0x40 + 8 * 1) 8)) 1 = false) ∧
    (∀ live : Bool, let s := answered live; s.linkState 11 = 3 ∧ s.batch 7 = some (batch7 .pending live false) ∧
      (s.takeAnswer 11 7 0 (List.replicate 64 0)).isSome = true ∧
      ∃ a ∈ (batch7 .pending live false).assigns, a.slot = 0 ∧ a.st = .pending) ∧
    (let s := heard 1 "refuse" [7] (exchanging 0 .pending true false); s.linkState 11 = 3 ∧
      (s.takeNote 1 "refuse" [7]).isSome = true ∧ s.batch 7 = some (batch7 .pending true false)) ∧
    (let s : State := { ringed (routeBytes 1 0 0) with
        xch := { step := some 0 }, regs := (Reg.xchWringCfg 0, 0x8004_0000_0010_0000) :: ready.regs };
      s.ringNext 0 = some (0, 0x10_0100) ∧ 0 < blockField (s.rdBytes 0x10_0100 256) 8 8 ∧ s.xch.blocks = []) ∧
    ((exchanging 0 .landed true true).batch 7 = some (batch7 .landed true true) ∧ (exchanging 0 .landed true true).domUp 4 = true ∧
      (exchanging 0 .landed true false).batch 7 = some (batch7 .landed true false)) ∧
    ((heard 1 "retire" [7] up).takeNote 1 "retire" [7]).isSome = true ∧ (heard 1 "retire" [7] up).domUp 4 = true ∧
    ((heard 1 "retired" [7] up).takeNote 1 "retired" [7]).isSome = true :=
  ⟨member_awaited, by decide +kernel⟩

/-- A contribution of a device to the ALL_REDUCE. -/
def part (d : BitVec 12) (second : Bool) : CollPart := ⟨d, 0, 0, second, [], 0, []⟩

/-- The started collective of ring 3. -/
def reducing (op sent : Nat) : XBlock :=
  { newBlock 7 0 0x10_0100 (BitVec.ofNat 8 op :: reduceBytes.drop 1) with started := true, sent := sent }

/-- The exchange unit with that collective and some contributions. -/
def collects (op sent : Nat) (ps : List CollPart) : State :=
  { ringed [] with
    regs := (Reg.cslLinkStat 11, 0x3000_0000_0000_0000) :: ready.regs
    xch := { blocks := [reducing op sent], parts := ps } }

/-- A contribution of device 1 for a step. -/
def stepPart (step : BitVec 64) : CollPart := ⟨1, 5, step, false, [], 0, []⟩

theorem witness_Collectives :
    (∀ op : Fin 4, let s := collects op.val 1 [part 0 false, part 1 false]; s.xOf (4 + 3) 0 op.val = some (reducing op.val 1) ∧
      ((chain s).members (reducing op.val 1)).1.fault = none ∧ ((chain s).members (reducing op.val 1)).2 = [0, 1] ∧
      (s.partOf (reducing op.val 1) false 0).isSome = true ∧ (s.partOf (reducing op.val 1) false 1).isSome = true ∧
      (reducing op.val 1).code = .ok) ∧
    (let s := collects 0 2 [part 0 false, part 1 false, part 0 true, part 1 true]; (reducing 0 2).sent = 2 ∧
      (s.partOf (reducing 0 2) true 0).isSome = true ∧ (s.partOf (reducing 0 2) true 1).isSome = true) ∧
    (let b : XBlock := { reducing 0 1 with code := .peer };
      ({ collects 0 1 [] with xch := { blocks := [b] } } : State).xOf 7 0 0 = some b) ∧
    (let s := collects 0 0 []; s.xOf 7 0 0 = some (reducing 0 0) ∧ s.devId = 0 ∧ s.dropped 1 = false ∧
      (s.partOf (reducing 0 0) false 1).isSome = false ∧ s.stepAgrees (reducing 0 0).step = true) ∧
    (∀ k : Fin 3, let p := stepPart (BitVec.ofNat 64 k.val); let s := posted 5 (arrived [partWire p]) (collects 0 0 []);
      s.linkState 11 = 3 ∧ s.holdsRows = false ∧ p.src.toNat ≠ s.devId ∧ s.dropped 1 = false ∧ s.xch.parts = [] ∧
      (s.takeXch 11 1 5 (arrived [partWire p]).length (· == arrived [partWire p])).isSome = true ∧
      s.stepAgrees k.val = decide (k.val < 2)) ∧
    (∀ refused : Bool, let kind := if refused then "collRefuse" else "collCancel";
      let s := heard 1 kind [0, 0] (collects 0 0 []);
      s.linkState 11 = 3 ∧ s.holdsRows = false ∧ s.domUp 4 = true ∧
      (s.takeAny fun p => p.kind == 6 && p.body == pad4 (noteBytes kind [0, 0])).isSome = true ∧
      s.xch.blocks.find? (fun y => decide (4 ≤ y.ring) && y.coll == 0 && y.step == 0) = some (reducing 0 0) ∧
      (reducing 0 0).ring < 8) ∧
    (let s := heard 1 "collCancel" [5, 0] (collects 0 0 []); (∀ y ∈ s.xch.blocks, ¬(y.coll = 5 ∧ y.step = 0)) ∧
      (s.takeAny fun p => p.kind == 6 && p.body == pad4 (noteBytes "collCancel" [5, 0])).isSome = true ∧
      s.collPast 5 0 = false) :=
  by decide +kernel
/-! ### Memory, CXL, links and the group -/

/-- Controller 0 ready, with slices, scrub and a clear under way as named. -/
def memory (stat : Word) : State :=
  { up with
    regs := [(Reg.memStat 0, stat), (Reg.memDieMark 7, 0x8000_0000_0000_0000)]
    snaps := [(0, [(Reg.memRetrainCfg 0, 0x1_0000), (Reg.memScrubCfg 0, 0x1_0000)])]
    sliceAt := [(0, 7)], scrubAt := [(0, 2 ^ 28 - 2)] }

theorem witness_MemoryCommands :
    (let s := memory 1; s.domUp 3 = true ∧ s.target 0 = .gddr 0 (gddrOff 0) ∧ s.bit (Reg.memStat 0) 0 = true ∧
      s.bit (Reg.memStat 0) (40 + gddrPair 0) = false ∧ s.bit (Reg.memStat 0) (32 + gddrPair 0) = false ∧
      s.poison.contains 0 = false ∧ s.mark 0 = none ∧ decodeWord (s.mark 0) ⟨[], []⟩ = .clean ∧
      decodeWord (s.mark 0) ⟨[(3, 8)], []⟩ = .symbols ∧ decodeWord (s.mark 0) ⟨[(3, 9)], []⟩ = .bad ∧
      s.fresh.contains 0 = false) ∧
    ((4 : Fin 7).val < 5 ∧ (5 : Fin 7).val < 6 ∧ (6 : Fin 7).val = 6 ∧ (List.replicate 128 (0 : Byte)).length = 128) ∧
    (let s := memory 1; s.epFld 1016 (Reg.memRetrainCfg 0) 16 16 = 1 ∧ s.fld (Reg.memStat 0) 39 32 = 0 ∧
      SMap.get 0 s.sliceAt 0 = 7 ∧ s.bit (Reg.memStat 0) (40 + 7) = false) ∧
    ((memory 0x1_0000_0001).fld (Reg.memStat 0) 39 32 ≠ 0 ∧ (memory 0x1_0000_0001).mgt.func = none) ∧
    (let s := memory 1; s.epFld 1016 (Reg.memScrubCfg 0) 16 16 = 1 ∧ SMap.get 0 s.scrubAt 0 + 1 < 2 ^ 28 ∧
      s.bit (Reg.memStat 0) (32 + gddrPair (scrubAddr 0 (2 ^ 28 - 2))) = false ∧
      s.poison.contains (scrubAddr 0 (2 ^ 28 - 2)) = false) ∧
    (rsvdBits (Reg.memClear 0) 1 = 0 ∧ (1 : BitVec 64).getLsbD 0 = true ∧ rsvdBits (Reg.memClear 15) 0 = 0 ∧ (memory 1).bit (Reg.memStat 0) 2 = false ∧ (memory 5).bit (Reg.memStat 0) 2 = true) ∧
    ((memory 1).bit (Reg.memDieMark 7) 63 = true ∧ (0xFFFF_0000 : BitVec 64).extractLsb' 63 1 = 0 ∧
      rsvdBits (Reg.memDieMark 7) 0xFFFF_0000 = 0) := by decide +kernel

/-- CXL port 3 enabled, with link a up and decoder 7 over its first 256 MiB; a configuration request is in progress where
`busy`. -/
def cxlPort (busy : Bool) (link : Word) : State :=
  { up with
    regs := [(Reg.cxmPortCfg 3, 0x8000_0000_0000_0004), (Reg.cxmPortStat 3, 1 + link), (Reg.cxmHdmSize 3 7, 0x1000_0000),
      (Reg.cxmHdmCtl 3 7, 0x8000_0000_0000_0000), (Reg.cxmCfgAddr 3, if busy then 0x8000_0000_0000_0000 else 0)] }

theorem witness_CxlCommands :
    (let s := cxlPort false 2; s.domUp 4 = true ∧ rsvdBits (Reg.cxmHdmCtl 3 7) 1 = 0 ∧
      rsvdBits (Reg.cxmHdmCtl 3 7) 0 = 0 ∧ (s.storeReg (Reg.cxmHdmCtl 3 7) 1 allOnes).bit (Reg.cxmHdmCtl 3 7) 0 = true ∧
      (s.storeReg (Reg.cxmHdmCtl 3 7) 0 allOnes).bit (Reg.cxmHdmCtl 3 7) 0 = false ∧ s.bit (Reg.cxmPortStat 3) 0 = true ∧
      s.bit (Reg.cxmCfgAddr 3) 63 = false ∧ rsvdBits (Reg.cxmCfgAddr 3) 0x2000_0000_0000_0000 = 0) ∧
    ((cxlPort true 2).bit (Reg.cxmCfgAddr 3) 63 = true ∧ (cxlPort true 2).bit (Reg.cxmCfgAddr 3) 61 = false) ∧
    (let s := cxlPort false 2; s.target 0x1C00_0FFF_FFC0 = .cxl 3 0x0FFF_FFC0 ∧ s.accessFail 0x1C00_0FFF_FFC0 = none ∧
      s.poison = [] ∧ s.fresh.contains 0x1C00_0FFF_FFC0 = false ∧ 63 + [(0 : Byte)].length ≤ 64 ∧ s.accessFail 0x1C00_1000_0000 = some .trans ∧
      s.target 0x1C00_1000_0000 = .cxl 3 0x1000_0000) ∧
    (cxlPort false 0).accessFail 0x1C00_0000_0000 = some .link ∧
    ((cxlPort false 2).bit (Reg.cxmPortStat 3) (1 + false.toNat) = true ∧
      (cxlPort false 2).bit (Reg.cxmPortStat 3) (1 + true.toNat) = false ∧ (cxlPort false 2).bit (Reg.cxmPortCfg 3) 63 = true ∧
      (cxlPort false 2).isOff 5 3 = false ∧ (cxlPort false 2).fld (Reg.cxmPortCfg 3) 3 2 = 1 ∧
      (8 : BitVec 8).toNat = 8 ∧ (cxlPort false 2).fld (Reg.cxmPortCfg 3) 1 0 ≤ (0 : BitVec 4).toNat ∧ (3 : BitVec 4).toNat ≤ 3) ∧
    (((cxlPort false 2).storeReg (Reg.cxmPortCfg 3) 0x8000_0000_0000_0000 allOnes).bit (Reg.cxmPortCfg 3) 63 = true ∧
      ((cxlPort false 2).storeReg (Reg.cxmPortCfg 3) 0 allOnes).bit (Reg.cxmPortCfg 3) 63 = false ∧
      rsvdBits (Reg.cxmPortCfg 3) 0x8000_0000_0000_0000 = 0 ∧ rsvdBits (Reg.cxmPortCfg 3) 0 = 0) := by decide +kernel

/-- Link 11 in a state, with what stands beside its registers. -/
def linked (st : Word) (k : Link) : State := { up with regs := [(Reg.cslLinkStat 11, st <<< 60)], links := [(11, k)] }

/-- A hello of device 1 for firmware `fw`. -/
def hello (session fw : BitVec 32) : Hello := ⟨1, 0, session, fw, 0x0100, 0⟩

/-- 256 zero bytes, and the word behind them with its CRC. -/
def goodFrame : List Byte × BitVec 32 :=
  let body := List.replicate 256 (0 : Byte)
  (body, (frameCrc body 0).setWidth 32)

/-- The frame in a retry buffer, replayed seven times. -/
def replayed : Frame := ⟨4095, [], 7, none⟩

/-- The master. -/
def master : State := { up with regs := [(Reg.rstStrap, 0x1000)] }

theorem witness_LinkLife :
    (let s := linked 1 {}; s.domUp 4 = true ∧ s.linkState 11 = 1 ∧ (s.link 11).prior = 0 ∧ s.isOff 4 11 = false) ∧
    (let s := linked 2 {}; s.linkState 11 = 2 ∧ (s.link 11).hello = none ∧ s.helloReason (hello 1 0) = 0 ∧
      (s.link 11).attest = .pending) ∧
    (let s := linked 3 { hello := some (hello 1 0) }; s.linkState 11 = 3 ∧ (s.link 11).hello = some (hello 1 0) ∧
      s.helloReason (hello 1 1) ≠ 0 ∧ (hello 1 0).session = (hello 1 1).session ∧ s.linkGone 11 = false ∧
      (hello 1 0).session ≠ (hello 2 0).session) ∧
    (let s := linked 2 { hello := some (hello 1 1), attest := .verified }; s.linkGone 11 = false ∧ s.linkState 11 = 2 ∧
      (s.link 11).hello = some (hello 1 1) ∧ (s.link 11).attest = .verified ∧ s.helloReason (hello 1 0) = 0) ∧
    (∀ a : Bool, let s := linked 1 { prior := 3, asked := a, hello := some (hello 1 0) }; s.linkState 11 = 1 ∧
      s.linkGone 11 = false ∧ (s.link 11).prior = 3 ∧ s.mgt.func = none ∧ (s.link 11).asked = a) ∧
    (let s := linked 3 {}; s.linkGone 11 = false ∧ s.reqs = [] ∧ s.routedBy 11 = [] ∧ s.mgt.func = none ∧
      (s.link 11).attest ≠ .failed ∧ s.reportOk 11 [] [] [] [] = false) ∧
    (let s := heard 4095 "quarantine" [11, 1, 3] master; s.isMaster = true ∧ s.domUp 4 = true ∧ s.bit Reg.cslQlog 63 = false ∧
      (s.takeNote 4095 "quarantine" [11, 1, 3]).isSome = true) ∧
    ((up.storeReg (Reg.cslLinkCfg 11) 0x8000_0000_0000_0000 allOnes).bit (Reg.cslLinkCfg 11) 63 = true ∧
      rsvdBits (Reg.cslLinkCfg 11) 0x8000_0000_0000_0000 = 0 ∧ rsvdBits (Reg.cslLinkCfg 11) 0 = 0 ∧
      (up.storeReg (Reg.cslLinkCfg 11) 0 allOnes).bit (Reg.cslLinkCfg 11) 63 = false ∧ up.linkState 11 = 0 ∧
      up.isOff 4 11 = false) ∧
    (goodFrame.1.length = 256 ∧ frameCrc goodFrame.1 goodFrame.2 = goodFrame.2.setWidth 16 ∧ goodFrame.2.extractLsb' 28 4 = 0 ∧
      (goodFrame.2.extractLsb' 16 12).toNat = ((linked 3 {}).link 11).rxSeq ∧ ((linked 3 {}).link 11).naked = false) ∧
    (let s := linked 3 { retry := [replayed] }; (s.link 11).retry = [replayed] ∧
      (s.link 11).waiting = [] ∧ ((0 : BitVec 12).toNat + 4096 - 4095) % 4096 ≤ (s.link 11).retry.length ∧
      ((s.link 11).retry.drop (((4095 : BitVec 12).toNat + 4096 - 4095) % 4096)).map
        (fun g => { g with replays := g.replays + 1 }) = [{ replayed with replays := 8 }] ∧
      ∃ g ∈ [{ replayed with replays := 8 }], 8 ≤ g.replays) := by
  decide +kernel

/-- The clause on a verified report has its other condition beside the report's own check, which rests on the opaque
`Config.slhVerify`. -/
theorem witness_LinkLife_report (r dev mid root : List Byte)
    (h : (linked 2 { hello := some (hello 1 0) }).reportOk 11 r dev mid root = true) :
    (linked 2 { hello := some (hello 1 0) }).linkState 11 = 2 ∧
      ((linked 2 { hello := some (hello 1 0) }).link 11).attest ≠ .failed ∧
      (linked 2 { hello := some (hello 1 0) }).reportOk 11 r dev mid root = true := ⟨by decide +kernel, by decide +kernel, h⟩

/-- A request of device 1 at an address of this device. -/
def request (addr : BitVec 64) (op : RemoteOp) : Remote := ⟨addr, 0, 1, 5, op⟩

/-- One request of each kind at the last word of the chambers. -/
def requests : List Remote := [.write [1, 2, 3, 4], .read 1024, .add 1, .wait 1].map (request 0x8000_2000_C7DF_FFFC)

/-- The packet of a request has come in on link 11, which is ACTIVE. -/
def asking (r : Remote) : State :=
  linked 3 { inbox := [{ Remote.packet r with body := pad4 (RemoteOp.wire r.op).2 }] }

/-- An arrival of core 0 at a peer, or a wait of it, unanswered under tag 5, with an answer's packet on link 11. -/
def asked (p : ReqFor) (kind code : Nat) (q : Machine.Seq) : State :=
  { up with
    seqs := [(0, q)], reqs := [⟨0x1_0005, 11, 1, p⟩]
    links := [(11, { inbox := [⟨up.devId, 0, kind, 2, 0, 1, 5, code, []⟩] })] }

/-- The master of a group with member 4095. -/
def group : State :=
  { up with regs := [(Reg.rstStrap, 0x1000), (Reg.rslRoster, 0x3000_0000_0000), (Reg.rslPolicy, 2)], mem := [(0x3000_0000_01FF, 0x80)] }

theorem witness_RemoteAndGroup :
    (∀ r ∈ requests, let s := asking r; s.linkState 11 = 3 ∧ r.addr.toNat >>> 48 % 4096 = s.devId ∧
      (s.takeIn 11 (Remote.isIn r)).isSome = true ∧ RemoteOp.managed r.op = false ∧ s.remoteRefuse r.addr.toNat = none ∧
      s.paused = false ∧ s.training (r.addr.toNat % 2 ^ 48) (RemoteOp.reach r.op) = false ∧ s.poison = [] ∧
      s.clearing (r.addr.toNat % 2 ^ 48) = false ∧ r.addr.toNat % 2 ^ 48 % 4 = 0 ∧
      r.addr.toNat % 2 ^ 48 + 4 ≤ 0x2000_C800_0000 ∧ (s.word32 (r.addr.toNat % 2 ^ 48) - 1).toInt < 0) ∧
    (let r := request 0x8000_3000_0000_0000 (.add 1); (asking r).remoteRefuse r.addr.toNat = some .prot ∧
      ((asking r).takeIn 11 (Remote.isIn r)).isSome = true) ∧
    (∀ k ∈ [((3, 0), RemoteAns.ack), ((7, 0x20), .neg 0x20)],
      let s := asked (.arrive 0 0) k.1.1 k.1.2 { works := [work0 (.nop w0) [] [] .running] };
      (s.takeAny (s.isAnswer 5 k.2)).isSome = true ∧
      (s.reqs.find? (fun x => x.id % 65536 == 5)).map (·.purpose) = some (.arrive 0 0) ∧ SeqId.ofNum 0 = .core 0 ∧
      work0 (.nop w0) [] [] .running ∈ (s.seq (.core 0)).works) ∧
    (let s := asked (.wait (.seq (.core 0))) 1 0 { run := .waiting, barWait := some (0, 1) };
      (s.takeAny (s.isAnswer 5 .ack)).isSome = true ∧
      (s.reqs.find? (fun x => x.id % 65536 == 5)).map (·.purpose) = some (.wait (.seq (.core 0))) ∧
      (s.seq (.core 0)).barWait.isSome = true) ∧
    (member.domUp 4 = true ∧ member.isMaster = false ∧ rsvdBits Reg.rslDrop 0xFFF = 0 ∧
      ((heard 0 "gstep" [9] member).takeNote 0 "gstep" [9]).isSome = true ∧
      ((heard 4095 "lost" [7] member).takeNote 4095 "lost" [7]).isSome = true ∧
      (let s := heard 0 "drop" [4095, 2 ^ 48] member; (s.takeNote 0 "drop" [4095, 2 ^ 48]).isSome = true ∧
        s.bit Reg.rslDropLog 63 = false)) ∧
    (let s := heard 0 "lost" [4095] group; s.domUp 4 = true ∧ s.isMaster = true ∧ (4095 : BitVec 12) ≠ 0 ∧
      s.isLive 4095 = true ∧ s.bit Reg.rslPolicy 0 = false ∧ s.bit Reg.rslPending 63 = false ∧
      (s.takeNote 0 "lost" [4095]).isSome = true ∧ (0xFFF : BitVec 64).extractLsb' 0 12 = 4095) := by decide +kernel

/-! ### Surviving failures -/

/-- A cairn block at word 0 whose one segment stands in a list at word 64: FLAGS; its region is the first 0x7_6000 bytes of
GDDR7. -/
def cairnBytes (flags : Nat) : List Byte :=
  natLE 4 9 ++ natLE 4 flags ++ natLE 8 0 ++ natLE 8 0x7_6000 ++ natLE 4 64 ++ natLE 4 1 ++ List.replicate 96 0

/-- That segment: 4 KiB behind the region. -/
def cairnSegs : List Byte := natLE 8 0x10_0000 ++ natLE 8 0x1000

/-- Control processor 3 runs with that block, and an image header in the region. -/
def cairns (flags : Nat) : State :=
  { prog (.cp 3) { h := [] } with
    mem := [(0, 0x31), (1, 0x43), (2, 0x59), (3, 0x52), (4, 1)] ++ memAt 0x3000_0000_0000 (cairnBytes flags) ++
      memAt 0x3000_0000_0100 cairnSegs }

/-- A CAIRN with these flags that pauses the device, with a transfer under way or not. -/
def cairnRuns (flags : Nat) (busy : Bool) : State :=
  { holds (.cp 3) { work0 (.cairn (by_ (.cp 3)) 0 0) [] [] .running with block := cairnBytes flags ++ cairnSegs } with
    rsl := { cairn := some (0x3FC + 3, 0) }, siphons := if busy then [(0, { transfers := [emitting 0] })] else [] }

/-- A restore of two segments of 4 KiB from device 1, verified by a device or not. -/
def restoring (b : Nat) : Restore :=
  ⟨natLE 4 2 ++ List.replicate 60 0,
    [0x10_0000, 0x30_0000].flatMap fun a => natLE 8 a ++ natLE 8 0x20_0000 ++ natLE 8 0x1000 ++ natLE 2 1 ++ natLE 6 b,
    0, 0, false⟩

/-- Its block at word 0 and its segments at word 16. -/
def restoreMem : SMap Byte :=
  memAt 0x3000_0000_0000 (natLE 4 2 ++ List.replicate 12 0 ++ natLE 4 16) ++ memAt 0x3000_0000_0040 (restoring 0xFFFF).segs

/-- A device that holds them, with the link to device 1 ACTIVE or not, and a restore in progress or not. -/
def restores (active : Bool) (x : Option Restore) : State :=
  { up with
    mem := restoreMem, rsl := { restore := x }
    regs := [(Reg.memStat 0, 1), (Reg.cslRoute 1, 0x800)] ++ if active then [(Reg.cslLinkStat 11, 0x3000_0000_0000_0000)] else [] }

/-- A master whose hold at step 5 stands. -/
def holding : State := { up with regs := [(Reg.rstStrap, 0x1000), (Reg.rslHold, 0x4000_0000_0000_0005)] }

theorem issue_cairns (f : Nat) : Issues (by_ (.cp 3)) (cairns f) := issues_of (by rfl)

theorem witness_Resilience :
    (∀ r : Bool, let s := cairns r.toNat; (∀ k : Fin 4, (s.seq (.cp k)).works = []) ∧ s.poison = [] ∧
      (claimCairn s 0).nseg = 1 ∧ (claimCairn s 0).fld 0x18 4 + 4 ≤ 16777216 ∧ s.cairnOk (claimCairn s 0) = true ∧
      (claimCairn s 0).restore = r ∧ s.isOff 7 50 = false ∧ s.rsl.drains = [] ∧ (r = true → s.restoreOk (claimCairn s 0) = true)) ∧
    (∀ r busy : Bool, let s := cairnRuns r.toNat busy; ∃ w, s.rsl.cairn = some (0x3FC + 3, w.seq) ∧
      s.seqs = [(0x3FC + 3, s.seq (.cp 3))] ∧ (s.seq (.cp 3)).works = [w] ∧ w.status = .running ∧ s.quiet = !busy ∧
      Cairn.restore ⟨w.block⟩ = r ∧ s.imageLen ⟨w.block⟩ ≤ Cairn.snapLen ⟨w.block⟩ ∧ Cairn.drain ⟨w.block⟩ = false) ∧
    (({ up with rsl := { drains := [⟨0, 0, 0, 0, 0, 0, []⟩] } } : State).rsl.drains ≠ []) ∧
    (master.domUp 4 = true ∧ master.isMaster = true ∧ (5 : BitVec 64).getLsbD 63 = false ∧ rsvdBits Reg.rslHold 5 = 0 ∧
      master.loopStep ≤ (master.storeReg Reg.rslHold 5 allOnes).fld Reg.rslHold 47 0 ∧
      (let s : State := { master with seqs := [(0x3FC, { run := .running, inLoop := true, step := 6 })] };
        (s.storeReg Reg.rslHold 5 allOnes).fld Reg.rslHold 47 0 < s.loopStep) ∧
      (∀ k : Bool, let s := heard 4095 "holdReport" [k.toNat] holding;
        s.isMaster = true ∧ s.bit Reg.rslHold 62 = true ∧ (s.takeNote 4095 "holdReport" [k.toNat]).isSome = true)) ∧
    (let s := heard 0 "hold" [5] member; s.domUp 4 = true ∧ s.isMaster = false ∧ (s.takeNote 0 "hold" [5]).isSome = true ∧
      s.loopStep ≤ (5 : BitVec 48).toNat ∧
      (let s : State := { s with seqs := [(0x3FC, { run := .running, inLoop := true, step := 6 })] };
        (s.takeNote 0 "hold" [5]).isSome = true ∧ (5 : BitVec 48).toNat < s.loopStep) ∧
      ((heard 0 "release" [] member).takeNote 0 "release" []).isSome = true) ∧
    (up.bit Reg.rslRestoreStat 63 = false ∧ 16777216 < (16777201 : BitVec 32).toNat + 16 ∧
      ∀ active : Bool, let s := restores active none;
        let b := s.rdBytes 0x3000_0000_0000 64;
        let x : Restore := ⟨b, s.rdBytes (0x3000_0000_0000 + 4 * blockField b 0x10 4) (32 * blockField b 0 4), 0, 0, false⟩;
        s.domUp 4 = true ∧ s.bit Reg.rslRestoreStat 63 = false ∧ blockField b 0x10 4 + 8 * blockField b 0 4 ≤ 16777216 ∧
        x.ok s = true ∧ x.len 0 ≠ 0 ∧ x.sources.all s.linksUp = active) ∧
    (∀ b ∈ [1, 0xFFFF], let x := restoring b; let s := restores true (some x); s.rsl.restore = some x ∧ x.pieceLen = 0x1000 ∧
      s.linksUp x.devA = true ∧ x.seg < x.nseg ∧ x.dst x.seg + x.off + x.pieceLen ≤ 0x100_0000_0000 ∧
      x.devB = b ∧ (b = 1 → s.linksUp x.devB = true) ∧ x.advance.more = true ∧
      ({ x with noted := true } : Restore).advance.more = true) ∧
    (let s := heard 4095 "rejoin" [9] master; s.domUp 4 = true ∧ s.isMaster = true ∧
      s.fld Reg.rslRoster 47 0 + 1024 ≤ sramBase + 0x03FD_0000 ∧ (s.takeNote 4095 "rejoin" [9]).isSome = true) ∧
    (let s := heard 0 "rejoin" [4095, 10] member; s.domUp 4 = true ∧
      s.fld Reg.rslRoster 47 0 + 1024 ≤ sramBase + 0x03FD_0000 ∧ (s.takeNote 0 "rejoin" [4095, 10]).isSome = true) ∧
    ((heard 1 "digestAsk" [0x1000, 1, 4096] member).takeNote 1 "digestAsk" [0x1000, 1, 4096]).isSome = true := by
  refine ⟨by decide +kernel, fun r busy => ⟨_, rfl, rfl, rfl, ?_⟩, by decide +kernel⟩
  cases r <;> cases busy <;> decide +kernel

theorem witness_Resilience_issue (r : Bool) : claimIssuesTensor (by_ (.cp 3)) 0 (cairns r.toNat) :=
  tensor_of (issue_cairns r.toNat) (by cases r <;> decide +kernel)
/-! ### Host, security, management, functions and resets -/

/-- Page tables that map the first GiB to host memory, which can be reached; core 0 runs, and siphon 0 has a transfer. -/
def hostMap : State :=
  { with_ [(Reg.hifLinkStat, 3), (Reg.ctlSqCfg 5, 0x8005_4000_0010_0008), (Reg.ctlSqDoorbell 5, 1)] with
    snaps := [(0, [(Reg.sipPtRoot, 1)])]
    mem := [(0, 1), (1, 0x10), (0x1000, 0x0F), (0x1001, 0x0F), (0x1005, 0x40)]
    siphons := [(0, { transfers := [emitting 0] })], seqs := [(0, { run := .running })] }

/-- A running PROG whose arguments stand in host memory. -/
def progArgs : Cmd := command (entry 1 0 0 0 0x4000_0000_0000)

/-- The booted device with its link up and vector 2047 pending and unmasked. -/
def booted : State :=
  { up with
    regs := [(Reg.secBootStat, 0x1000_0000_0000_0000), (Reg.hifLinkStat, 3), (Reg.hifMsixData 2047, 0x42),
      (Reg.hifPba 31, 0x8000_0000_0000_0000)]
    msixWait := [2047] }

theorem witness_HostInterface :
    (window.domUp 2 = true ∧ window.bit Reg.hifLinkStat 0 = true ∧ (0x6740_0140 : BitVec 40).toNat % 128 + 64 ≤ 128 ∧
      (0xFFFF_FFC0 : BitVec 40).toNat + 64 ≤ 2 ^ window.bar4 ∧ window.windowMiss (window.windowAddr 0x6740_0140) = false ∧
      window.windowWaits (window.windowAddr 0x6740_0140) 64 = false ∧ window.poison = [] ∧
      (∀ i, i < 64 → window.clearing (window.windowAddr 0x6740_0140 + i) = false) ∧
      window.windowMiss (window.windowAddr 0xFFFF_FFC0) = true ∧ HostAcc.len (.read 64) = 64 ∧
      HostAcc.len (.write (List.replicate 64 0)) = 64) ∧
    (window.hostMisses .bar0 0x0FFF_FFF8 = true ∧ window.bit Reg.hifBadAddr 63 = false ∧
      ({ window with regs := window.regs ++ [(Reg.hifBadAddr, 0x8000_0000_0000_0000)] } : State).bit Reg.hifBadAddr 63 = true) ∧
    (hostMap.bit (Reg.ctlSqCfg 5) 63 = true ∧ hostMap.bit (Reg.ctlSqStat 5) 63 = false ∧
      0 < dist32 (hostMap.sqTail 5) (hostMap.sqHead 5) ∧
      hostMap.hostAt (ringBase (hostMap.reg (Reg.ctlSqCfg 5)) + 64 * (hostMap.sqHead 5 % 256)) = true) ∧
    (claimRuns 5 0x101 1 progArgs { hostMap with cmds := [progArgs] } ∧ progArgs.begun = false ∧
      hostMap.hostAt (progArgs.fld 0x18 8) = true) ∧
    (hostMap.xfer 0 0 = some (emitting 0) ∧ (emitting 0).ended = false ∧
      hostMap.hostVa (hostMap.epReg (sipUnit 0) Reg.sipPtRoot) 0 (sipEng 0) true = true) ∧
    ((hostMap.seq (.core 0)).run = .running ∧
      hostMap.hostVa (hostMap.epReg (SeqId.core 0).epochUnit Reg.sipPtRoot) 0 0 false = true) ∧
    (booted.msixWait = [2047] ∧ booted.bit (Reg.hifMsixData 2047) 32 = false ∧ booted.fnMask = false ∧ booted.hostUp = true ∧
      booted.bit (Reg.hifPba (2047 / 64)) (2047 % 64) = true ∧ booted.bit (Reg.hifPba 0) 0 = false) ∧
    (booted.booted = true ∧ booted.bit Reg.hifLinkStat 0 = true ∧ booted.doeBusy = false) := by
  refine ⟨by decide +kernel, by decide +kernel, by decide +kernel, ⟨runs_of (by decide +kernel), by decide +kernel⟩,
    by decide +kernel⟩

/-- The header of an image of 256 bytes, its signer's key all zeros. -/
def imageHead : List Byte := natLE 4 0x57465731 ++ natLE 4 1 ++ natLE 4 5 ++ natLE 4 0 ++ natLE 8 256 ++ List.replicate 232 0

/-- Slot 0 holds that image and slot 1 none. -/
def flashed : State :=
  { up with
    sec := { flash := imageHead.zipIdx.map (fun (b, i) => (i, b)) ++ (List.range 16).map fun i => (0x80_0000 + i, 0) }
    fuses := { keyHash := [shake256 (List.replicate 64 0) 64] } }

/-- A slot passes the ROM's checks once the opaque `Config.slhVerify` accepts its signature. -/
theorem image_passes (h : Config.slhVerify (flashed.flashBytes (slotSize * 0 + 0x20) 64) (flashed.imageSigned 0)
    (flashed.flashBytes (slotSize * 0 + 0x100 + flashed.imageFld 0 0x10 8) 29792) = true) : flashed.imageFail 0 true = 0 := by
  have e : flashed.flashBytes (slotSize * 0 + 0x20) 64 = List.replicate 64 0 := by decide +kernel
  have k : flashed.imageFld 0 0xC 4 = 0 := by decide +kernel
  have v : (!Config.slhVerify (flashed.flashBytes (slotSize * 0 + 0x20) 64) (flashed.imageSigned 0)
    (flashed.flashBytes (slotSize * 0 + 0x100 + flashed.imageFld 0 0x10 8) 29792)) = false := by rw [h]; rfl
  unfold State.imageFail
  simp only []
  rw [if_neg (by decide +kernel), if_neg (by rw [e, k]; simp [flashed, up, State.reset]), if_neg (by decide +kernel), v]
  rfl

/-- A message of a TYPE at an address. -/
def message (ty addr : Nat) (body : List Byte) : List Byte := natLE 4 ty ++ natLE 4 body.length ++ natLE 8 addr ++ body

/-- The conditions of a message that is taken up now from their test. -/
theorem asked_of {m : Msg} {bs : List Byte} {s : State}
    (h : (!s.recovery && s.domUp 1 && s.mgt.serving.isNone && (parseMsg bs).any fun x =>
      x.ty == m.ty && x.addr == m.addr && x.body == m.body) = true) : claimAsked (.mctp bs) m .mctp s := by
  simp only [Bool.and_eq_true, Bool.not_eq_true', Option.isNone_iff_eq_none, Option.any_eq_true, beq_iff_eq] at h
  obtain ⟨⟨⟨a, b⟩, c⟩, x, d, e⟩ := h
  obtain ⟨ty, addr, body⟩ := x
  obtain ⟨ty', addr', body'⟩ := m
  simp only at e
  obtain ⟨⟨rfl, rfl⟩, rfl⟩ := e
  exact ⟨a, b, c, by simp, rfl, d⟩

theorem witness_SecurityManagement :
    (up.domUp 0 = true ∧ up.fld Reg.secBootStat 63 60 = 0 ∧ ∀ k, up.imageFail k false ≠ 0) ∧
    (flashed.domUp 0 = true ∧ flashed.fld Reg.secBootStat 63 60 = 0 ∧ flashed.firstSlot = 0) ∧
    (let s : State := { booted with sec := { svn := 5 }, fuses := { rollback := 4 } }; s.domUp 0 = true ∧ s.booted = true ∧
      rsvdBits Reg.secRollbackAdv 5 = 0 ∧
      rsvdBits Reg.secRollbackAdv 6 = 0 ∧ s.fuses.rollback < ((5 : BitVec 64).extractLsb' 0 7).toNat ∧ ((5 : BitVec 64).extractLsb' 0 7).toNat ≤ s.sec.svn ∧
      ((4 : BitVec 64).extractLsb' 0 7).toNat ≤ s.fuses.rollback ∧ s.sec.svn < ((6 : BitVec 64).extractLsb' 0 7).toNat) ∧
    (booted.booted = true ∧ booted.tokenOk [] = false) ∧
    (claimAsked (.mctp (message 1 0x200008 [])) ⟨1, 0x200008, []⟩ .mctp booted ∧ (booted.msgReg 0x200008).isSome = true ∧
      claimAsked (.mctp (message 2 0x0FFF_FFF8 (natLE 8 7))) ⟨2, 0x0FFF_FFF8, natLE 8 7⟩ .mctp booted ∧
      booted.msgReg 0x0FFF_FFF8 = none ∧ claimAsked (.mctp (message 2 0x200008 (natLE 8 7))) ⟨2, 0x200008, natLE 8 7⟩ .mctp booted ∧
      claimAsked (.mctp (message 3 0x40 [])) ⟨3, 0x40, []⟩ .mctp booted ∧ (booted.msgReg 0x40).any (·.1.isCnt) = true ∧
      claimAsked (.mctp (message 4 0 (natLE 8 0x1000_0000))) ⟨4, 0, natLE 8 0x1000_0000⟩ .mctp booted ∧
      booted.bit Reg.mgtFuncStat 63 = false ∧
      claimAsked (.mctp (message 5 0x80_0000 [7])) ⟨5, 0x80_0000, [7]⟩ .mctp booted ∧
      claimAsked (.mctp (message 5 0x7F_FFFF [7])) ⟨5, 0x7F_FFFF, [7]⟩ .mctp booted ∧ booted.fld Reg.secBootStat 59 56 = 0 ∧
      claimAsked (.mctp (message 7 0 [])) ⟨7, 0, []⟩ .mctp booted ∧ claimAsked (.mctp (message 8 0 [])) ⟨8, 0, []⟩ .mctp booted) ∧
    (booted.domUp 2 = true ∧ booted.doeBusy = false ∧ booted.sec.reports = [] ∧ (List.replicate 32 (0 : Byte)).length = 32 ∧
      (let s : State := { booted with sec := { reports := List.replicate 16 ⟨.mctp, [], none⟩ } };
        16 ≤ s.sec.reports.length ∧ s.doeBusy = false) ∧
      ({ booted with sec := { reports := [⟨.mctp, [], some []⟩] } } : State).sec.reports = [⟨.mctp, [], some []⟩]) ∧
    (booted.domUp 1 = true ∧ booted.recovery = false ∧ (0x4B49_434B_0000_0000 : BitVec 64).extractLsb' 32 32 = 0x4B49434B ∧
      (0 : BitVec 64).extractLsb' 32 32 ≠ 0x4B49434B ∧
      rsvdBits Reg.mgtWdogKick 0x4B49_434B_0000_0000 = 0 ∧ rsvdBits Reg.mgtWdogKick 0 = 0 ∧
      (let s : State := { up with regs := [(Reg.mgtWdog, 0x8000_0000_0000_03E8)] };
        s.bit Reg.mgtWdog 63 = true ∧ s.bit Reg.mgtWdog 62 = false)) :=
  ⟨⟨by decide, by decide, fun _ => by simp [State.imageFail]⟩, by decide +kernel, by decide +kernel, ⟨by decide, by rfl⟩,
    ⟨asked_of (by decide +kernel), by decide +kernel, asked_of (by decide +kernel), by decide +kernel,
      asked_of (by decide +kernel), asked_of (by decide +kernel), by decide +kernel, asked_of (by decide +kernel),
      by decide +kernel, asked_of (by decide +kernel), asked_of (by decide +kernel), by decide +kernel,
      asked_of (by decide +kernel), asked_of (by decide +kernel)⟩, by decide +kernel, by decide +kernel⟩

/-- The clause on an accepted token has its other conditions beside the token's own check, which rests on the opaque
`Config.slhVerify`. -/
theorem witness_SecurityManagement_token (b : List Byte) (h : booted.tokenOk b = true) :
    booted.domUp 0 = true ∧ booted.booted = true ∧ booted.tokenOk b = true := ⟨by decide, by decide, h⟩

/-- A request of R512 runs on the last core. -/
def requested (action : Nat) (going : Bool) : State := { up with mgt := { func := some ⟨action, 0, 799, going, none⟩ } }

theorem witness_FunctionsPower :
    (up.domUp 1 = true ∧ claimFunc 1 .funcDisable ∧ claimFunc 2 .funcEnable ∧ claimFunc 3 .funcSelfTest ∧ claimFunc 4 .funcRetrain) ∧
    (let v : BitVec 64 := 0x1000_031F; rsvdBits Reg.mgtFuncReq v = 0 ∧ (v.extractLsb' 28 4).toNat = 1 ∧ (v.extractLsb' 24 4).toNat = 0 ∧
      (v.extractLsb' 0 16).toNat = 799 ∧ up.bit Reg.mgtFuncStat 63 = false ∧ funcAllowed 1 0 = true ∧ 799 < funcCount 0 ∧
      funcCount 0 ≤ 800 ∧ up.funcOff 0 799 = false ∧
      ({ up with regs := [(Reg.mgtFuncStat, 0x8000_0000_0000_0000)] } : State).bit Reg.mgtFuncStat 63 = true) ∧
    (funcAllowed 2 0 = true ∧ ({ up with offline := [799] } : State).funcOff 0 799 = true ∧ funcAllowed 3 1 = true ∧
      funcAllowed 4 6 = true ∧ 127 < funcCount 6 ∧ ready.isOff 6 127 = false ∧ ready.domUp 3 = true ∧
      ready.bit (Reg.memStat (127 / 8)) 0 = true ∧ ready.fld (Reg.memStat (127 / 8)) 39 32 = 0) ∧
    (∀ a : Fin 5, ∀ g : Bool, (requested a.val g).mgt.func = some ⟨a.val, 0, 799, g, none⟩ ∧
      (requested a.val g).funcIdle 0 799 = true) ∧
    ({ requested 1 false with seqs := [(799, { run := .running })] } : State).funcIdle 0 799 = false ∧
    (let s := holds (.core 0) (work0 (.nop w0) [] [] .running); s.domUp 4 = true ∧
      (s.seq (.core 0)).works.find? (fun x => x.handle == 0) = some (work0 (.nop w0) [] [] .running) ∧
      s.bit Reg.mgtInternal 63 = false ∧ (799 : Fin 1068).val < 800) ∧
    (up.domUp (5 + 99) = true ∧ up.isOff 1 99 = false ∧ ({ up with offline := [1024 + 99] } : State).isOff 1 99 = true) ∧
    (let s : State := { up with regs := [(Reg.pwrStat, 0x000F_FF00_0BB8_02EE)] }; s.domUp 0 = true ∧ s.fld Reg.pwrStat 15 0 ≠ 0 ∧
      up.fld Reg.pwrStat 15 0 = 0 ∧ (List.replicate 64 (1521 : BitVec 16)).length = 64 ∧ 95 * 16 < (1521 : BitVec 16).toInt ∧
      ¬95 * 16 < (1520 : BitVec 16).toInt ∧ (1503 : BitVec 16).toInt < 94 * 16 ∧
      s.envelope < (0xFFFF : BitVec 16).toNat ∧ 100 * (0 : BitVec 16).toNat < 98 * s.envelope) :=
  ⟨⟨by decide, Or.inl ⟨rfl, rfl⟩, Or.inr (Or.inl ⟨rfl, rfl⟩), Or.inr (Or.inr (Or.inl ⟨rfl, rfl⟩)),
    Or.inr (Or.inr (Or.inr ⟨rfl, rfl⟩))⟩, by decide +kernel, by decide +kernel, by decide +kernel, by decide +kernel,
    by decide +kernel, by decide +kernel, by decide +kernel⟩

theorem witness_ResetsRegisters :
    (up.rst.powered = true ∧ up.rst.tripped = false ∧ up.rst.joined = [] ∧ hold.rst.joined ≠ [] ∧ hold.rst.active = [] ∧
      ({ up with rst := { tripped := true } } : State).rst.tripped = true) ∧
    (let s : State := { up with regs := [(Reg.mgtWdog, 0xC000_0000_0000_03E8)] };
      s.domUp 1 = true ∧ s.bit Reg.mgtWdog 63 = true ∧ s.bit Reg.mgtWdog 62 = true ∧ up.bit Reg.mgtWdog 63 = false) ∧
    (up.domUp 0 = true ∧ (0x5253_5457_0000_0001 : BitVec 64).extractLsb' 32 32 = 0x52535457 ∧
      (0x5253_5457_0000_0001 : BitVec 64).getLsbD 0 = true ∧ (0 : BitVec 64).getLsbD 0 = false ∧ up.domUp 2 = true ∧
      rsvdBits Reg.rstSwReset 0x5253_5457_0000_0001 = 0 ∧ rsvdBits Reg.rstSwReset 0 = 0) ∧
    (({ up with regs := [(Reg.secDebugStat, 4)] } : State).bit Reg.secDebugStat 2 = true ∧ up.bit Reg.secDebugStat 2 = false) ∧
    (up.domUp (5 + grottoOf 799) = true ∧ up.domUp 4 = true ∧ (up.seq (.core 799)).barWait = none ∧
      (({ up with seqs := [(799, { barWait := some (0, 1) })] } : State).seq (.core 799)).barWait.isSome = true) ∧
    (({ up with rst := { joined := [7] } } : State).rst.joined = [(7 : Fin 8).val] ∧
      ({ up with rst := { joined := [7], active := [(2, 0)] } } : State).rst.active ≠ []) ∧
    (let s : State := { booted with held := [3, 4, 104] }; s.held = 3 :: [4, 104] ∧ s.rst.holding.contains 3 = false ∧
      s.booted = true ∧ 104 = 5 + grottoOf 799 ∧ s.isOff 0 799 = false ∧ s.isOff 1 (104 - 5) = false ∧
      s.fuses.offCores.contains 799 = false) ∧
    (let s : State := { up with held := [3], rst := { joined := [7], holding := [3] } }; s.held = 3 :: [] ∧
      s.rst.holding.contains 3 = true) ∧
    ((findReg 0x40).any (fun x => x.1.isCnt && up.regUp x.1 0x40 x.2) = true ∧ inMbox 0x40 = false ∧ up.domUp 1 = true ∧ (7 : BitVec 64).toNat < 256) ∧
    (findReg 0x0FFF_FFF8 = none ∧ up.domUp 2 = true ∧ (0x0FFF_FFF8 : BitVec 33).toNat < 0x1_0100_0000) := by decide +kernel

theorem witness_ResetCauseRecord :
    (up.rst.powered = true ∧ up.rst.tripped = false ∧
      ({ up with regs := [(Reg.rstLockup, 0x8000_0000_0000_019D)] } : State).bit Reg.rstLockup 63 = true) ∧
    (let s : State := { up with rst := { joined := [0] } }; s.rst.active = [] ∧ s.rst.joined = [0]) ∧
    (hold.rst.active = [] ∧ hold.rst.joined = [3, 7] ∧ hold.rst.joined.Nodup ∧ ∀ b ∈ hold.rst.joined, 0 < b ∧ b < 8) := by
  decide +kernel

/-! ### The whole block -/

theorem witness_StepRunsFront : ({ up with pending := [.tlbInv, .cairnResume] } : State).pending = .tlbInv :: [.cairnResume] ∧
    up.pending = [] := ⟨rfl, rfl⟩

theorem witness_StepKeepsInvariant : StateOk { up with pending := [.gstepNotice 9] } = true ∧
    goesOn (step { up with pending := [.gstepNotice 9] }) = true := by decide +kernel

theorem witness_ResetMeetsInvariant : StateOk State.reset = true := by decide +kernel

end Sys2Proof.Tests
end

section
/-! The invariant by the parts of the state, what keeps each part, and the rules of branches, folds and loops. -/

namespace Sys2Proof.Machine
open Sys2Proof

/-- What an address that memory does not list reads as, from the generations of undefined contents alone. -/
def unlistedAt (memGen chGen : SMap Nat) : Nat → Byte :=
  ({ State.reset with memGen := memGen, chGen := chGen } : State).unlisted

/-- How many codewords the patrol scrub of a controller walks (R397). -/
def scrubEnd (h5 : Bool) : Nat := if h5 then 2 ^ 28 else 2 ^ 29

/-- `StateOk` as a condition on the nine parts of the state that it reads. -/
structure Sound (mem : SMap Byte) (memGen chGen : SMap Nat) (regs : SMap Word) (cnt : SMap Nat) (poison : List Nat)
    (h5 : Bool) (scrubAt : SMap Nat) (bar4 : Nat) : Prop where
  cells : SMap.wf (unlistedAt memGen chGen) mem = true
  stored : SMap.wf regReset regs = true
  counts : SMap.wf (fun _ => 0) cnt = true
  bounded : ∀ kv ∈ cnt, kv.2 ≤ 2 ^ 48 - 1
  units : ∀ u ∈ poison, eccSize h5 u ≠ 0 ∧ eccUnit h5 u = u
  scrub : ∀ kv ∈ scrubAt, kv.2 < scrubEnd h5
  window : 30 ≤ bar4 ∧ bar4 ≤ 40

/-- The invariant of a state. It unfolds to `Sound` of nine fields, so an update of any other field keeps it by definition. -/
abbrev State.Ok (s : State) : Prop :=
  Sound s.mem s.memGen s.chGen s.regs s.cnt s.poison s.fuses.h5 s.scrubAt s.bar4

theorem stateOk_iff (s : State) : StateOk s = true ↔ s.Ok := by
  have hmem : Memory.wf s = SMap.wf (unlistedAt s.memGen s.chGen) s.mem := rfl
  simp only [StateOk, countersBounded, poisonOk, hmem, Bool.and_eq_true, List.all_eq_true, decide_eq_true_eq, bne_iff_ne,
    beq_iff_eq]
  constructor
  · rintro ⟨⟨⟨⟨⟨⟨⟨hm, hr⟩, hc⟩, hb⟩, hp⟩, hs⟩, h30⟩, h40⟩
    exact ⟨hm, hr, hc, hb, hp, hs, h30, h40⟩
  · rintro ⟨hm, hr, hc, hb, hp, hs, h30, h40⟩
    exact ⟨⟨⟨⟨⟨⟨⟨hm, hr⟩, hc⟩, hb⟩, hp⟩, hs⟩, h30⟩, h40⟩

/-! ### Entries of sparse maps and key lists after a write -/

theorem SMap.mem_ins {α : Type} {k : Nat} {v : α} {m : SMap α} {x : Nat × α} (hx : x ∈ SMap.ins k v m) :
    x = (k, v) ∨ x ∈ m := by
  induction m with
  | nil => exact Or.inl (List.mem_singleton.mp hx)
  | cons y m ih =>
    unfold SMap.ins at hx
    split at hx
    · exact List.mem_cons.mp hx
    · rcases List.mem_cons.mp hx with rfl | hx
      · exact Or.inr List.mem_cons_self
      · exact (ih hx).imp id (List.mem_cons_of_mem _)

theorem SMap.mem_put {α : Type} [DecidableEq α] {d v : α} {k : Nat} {m : SMap α} {x : Nat × α}
    (hx : x ∈ SMap.put d m k v) : x = (k, v) ∨ x ∈ m := by
  unfold SMap.put at hx
  split at hx
  · exact Or.inr (List.mem_of_mem_filter hx)
  · exact (SMap.mem_ins hx).imp id List.mem_of_mem_filter

theorem SMap.get_lt {m : SMap Nat} {n : Nat} (h : ∀ kv ∈ m, kv.2 < n) (hn : 0 < n) (k : Nat) :
    SMap.get 0 m k < n := by
  induction m with
  | nil => exact hn
  | cons x m ih =>
    unfold SMap.get
    split
    · exact h _ List.mem_cons_self
    · exact ih fun kv hkv => h kv (List.mem_cons_of_mem _ hkv)

/-- The canonical form reads the defaults of the listed keys alone. -/
theorem SMap.wf_congr {α : Type} [DecidableEq α] {d e : Nat → α} {m : SMap α} (h : ∀ x ∈ m, d x.1 = e x.1)
    (hw : SMap.wf d m = true) : SMap.wf e m = true := by
  unfold SMap.wf at hw ⊢
  generalize (none : Option Nat) = lo at hw ⊢
  induction m generalizing lo with
  | nil => rfl
  | cons x m ih =>
    obtain ⟨k, v⟩ := x
    have hk : d k = e k := h (k, v) List.mem_cons_self
    simp only [SMap.wfFrom, Bool.and_eq_true, hk] at hw ⊢
    exact ⟨hw.1, ih (fun x hx => h x (List.mem_cons_of_mem _ hx)) _ hw.2⟩

theorem mem_insertKey {l : List Nat} {k x : Nat} (hx : x ∈ insertKey l k) : x = k ∨ x ∈ l := by
  induction l with
  | nil => exact Or.inl (List.mem_singleton.mp hx)
  | cons y l ih =>
    unfold insertKey at hx
    split at hx
    · exact List.mem_cons.mp hx
    · split at hx
      · exact Or.inr hx
      · rcases List.mem_cons.mp hx with rfl | hx
        · exact Or.inr List.mem_cons_self
        · exact (ih hx).imp id (List.mem_cons_of_mem _)

/-! ### What keeps each part -/

namespace Sound

variable {mem : SMap Byte} {mg cg : SMap Nat} {regs : SMap Word} {cnt : SMap Nat} {poison : List Nat} {h5 : Bool}
  {scrubAt : SMap Nat} {bar4 : Nat}

theorem putReg (h : Sound mem mg cg regs cnt poison h5 scrubAt bar4) (o : Nat) (v : Word) :
    Sound mem mg cg (SMap.put (regReset o) regs o v) cnt poison h5 scrubAt bar4 :=
  { h with stored := SMap.wf_put regReset _ _ _ h.stored }

theorem putCount (h : Sound mem mg cg regs cnt poison h5 scrubAt bar4) (o : Nat) {n : Nat} (hn : n ≤ 2 ^ 48 - 1) :
    Sound mem mg cg regs (SMap.put 0 cnt o n) poison h5 scrubAt bar4 :=
  { h with
    counts := SMap.wf_put (fun _ => 0) _ _ _ h.counts
    bounded := fun kv hkv => by
      rcases SMap.mem_put hkv with rfl | hkv
      · exact hn
      · exact h.bounded kv hkv }

theorem putCell (h : Sound mem mg cg regs cnt poison h5 scrubAt bar4) (a : Nat) (v : Byte) :
    Sound (SMap.put (unlistedAt mg cg a) mem a v) mg cg regs cnt poison h5 scrubAt bar4 :=
  { h with cells := SMap.wf_put _ _ _ _ h.cells }

theorem keepRegs (h : Sound mem mg cg regs cnt poison h5 scrubAt bar4) (p q : Nat → Bool) :
    Sound mem mg cg (regs.keep p) (cnt.keep q) poison h5 scrubAt bar4 :=
  { h with
    stored := SMap.wf_keep _ _ _ h.stored
    counts := SMap.wf_keep _ _ _ h.counts
    bounded := fun kv hkv => h.bounded kv (List.mem_of_mem_filter hkv) }

theorem dropPoison (h : Sound mem mg cg regs cnt poison h5 scrubAt bar4) (p : Nat → Bool) :
    Sound mem mg cg regs cnt (poison.filter p) h5 scrubAt bar4 :=
  { h with units := fun u hu => h.units u (List.mem_of_mem_filter hu) }

theorem addPoison (h : Sound mem mg cg regs cnt poison h5 scrubAt bar4) {u : Nat} (hz : eccSize h5 u ≠ 0)
    (hu : eccUnit h5 u = u) : Sound mem mg cg regs cnt (insertKey poison u) h5 scrubAt bar4 :=
  { h with
    units := fun x hx => by
      rcases mem_insertKey hx with rfl | hx
      · exact ⟨hz, hu⟩
      · exact h.units x hx }

/-- Memory may forget bytes, and the generation of undefined contents may change where it forgets all of them. -/
theorem dropCells (h : Sound mem mg cg regs cnt poison h5 scrubAt bar4) {p : Nat → Bool} {mg' cg' : SMap Nat}
    (hp : ∀ a, p a = true → unlistedAt mg cg a = unlistedAt mg' cg' a) :
    Sound (mem.keep p) mg' cg' regs cnt poison h5 scrubAt bar4 :=
  { h with
    cells := SMap.wf_congr (fun x hx => hp x.1 (List.mem_filter.mp hx).2) (SMap.wf_keep _ p _ h.cells) }

theorem putScrub (h : Sound mem mg cg regs cnt poison h5 scrubAt bar4) (m : Nat) {i : Nat} (hi : i < scrubEnd h5) :
    Sound mem mg cg regs cnt poison h5 (SMap.put 0 scrubAt m i) bar4 :=
  { h with
    scrub := fun kv hkv => by
      rcases SMap.mem_put hkv with rfl | hkv
      · exact hi
      · exact h.scrub kv hkv }

theorem clearScrub (h : Sound mem mg cg regs cnt poison h5 scrubAt bar4) :
    Sound mem mg cg regs cnt poison h5 [] bar4 :=
  { h with scrub := fun _ hkv => absurd hkv List.not_mem_nil }

theorem setBar4 (h : Sound mem mg cg regs cnt poison h5 scrubAt bar4) {n : Nat} (hn : 30 ≤ n ∧ n ≤ 40) :
    Sound mem mg cg regs cnt poison h5 scrubAt n := { h with window := hn }

end Sound

/-! ### Outcomes, branches and folds -/

/-- A command keeps the invariant: the state it answers, if it answers one, meets it. -/
def Kept (o : Out) : Prop := ∀ t, o = .next t → t.Ok

theorem Kept.next {t : State} (h : t.Ok) : Kept (.next t) := by
  rintro _ ⟨⟩
  exact h

theorem Kept.ite {c : Prop} {_ : Decidable c} {a b : Out} (ha : Kept a) (hb : Kept b) :
    Kept (if c then a else b) := by
  split <;> assumption

namespace State.Ok

/-! The rules of a branch, of a fold and of a counted loop: for a state, and for a result `r` that carries the state `f r`. -/

variable {α β : Type}

theorem iteOf (f : α → State) {c : Prop} {_ : Decidable c} {a b : α} (ha : (f a).Ok) (hb : (f b).Ok) :
    (f (if c then a else b)).Ok := by
  split <;> assumption

/-- A fold whose step keeps the invariant on the members of the list. -/
theorem foldlMem {g : State → α → State} {l : List α} {t : State} (h : t.Ok) (hg : ∀ t, ∀ x ∈ l, t.Ok → (g t x).Ok) :
    (l.foldl g t).Ok := by
  induction l generalizing t with
  | nil => exact h
  | cons x l ih => exact ih (hg _ x List.mem_cons_self h) fun t y hy => hg t y (List.mem_cons_of_mem _ hy)

theorem foldlOf (f : β → State) {g : β → α → β} {l : List α} {r : β} (h : (f r).Ok)
    (hg : ∀ r x, (f r).Ok → (f (g r x)).Ok) : (f (l.foldl g r)).Ok := by
  induction l generalizing r with
  | nil => exact h
  | cons x l ih => exact ih (hg _ _ h)

theorem forUptoOf (f : β → State) {g : Nat → β → β} {n : Nat} {r : β} (h : (f r).Ok)
    (hg : ∀ i r, (f r).Ok → (f (g i r)).Ok) : (f (Sys2Proof.forUpto n g r)).Ok := by
  unfold Sys2Proof.forUpto
  induction n with
  | zero => exact h
  | succ n ih => exact hg _ _ ih

theorem ite {c : Prop} {_ : Decidable c} {a b : State} (ha : a.Ok) (hb : b.Ok) :
    (if c then a else b).Ok := iteOf id ha hb

theorem iteFst {c : Prop} {_ : Decidable c} {a b : State × α} (ha : a.1.Ok) (hb : b.1.Ok) :
    (if c then a else b).1.Ok :=
  iteOf Prod.fst ha hb

theorem iteSnd {c : Prop} {_ : Decidable c} {a b : α × State} (ha : a.2.Ok) (hb : b.2.Ok) :
    (if c then a else b).2.Ok :=
  iteOf Prod.snd ha hb

theorem foldl {g : State → α → State} {l : List α} {t : State} (h : t.Ok) (hg : ∀ t x, t.Ok → (g t x).Ok) :
    (l.foldl g t).Ok := foldlOf id h hg

theorem foldlFst {g : State × β → α → State × β} {l : List α} {r : State × β} (h : r.1.Ok)
    (hg : ∀ r x, r.1.Ok → (g r x).1.Ok) : (l.foldl g r).1.Ok := foldlOf Prod.fst h hg

theorem forUptoFst {g : Nat → State × β → State × β} {n : Nat} {r : State × β} (h : r.1.Ok)
    (hg : ∀ i r, r.1.Ok → (g i r).1.Ok) : (Sys2Proof.forUpto n g r).1.Ok := forUptoOf Prod.fst h hg

theorem forUpto {g : Nat → State → State} {n : Nat} {t : State} (h : t.Ok) (hg : ∀ i t, t.Ok → (g i t).Ok) :
    (Sys2Proof.forUpto n g t).Ok := forUptoOf id h hg

/-- What a match on a result says of the state that the result carries. -/
theorem of_eq (f : α → State) {p q : α} (e : p = q) (h : (f p).Ok) : (f q).Ok := e ▸ h

end State.Ok

end Sys2Proof.Machine
end

section
/-! The named operations keep the invariant: registers and counters, memory, epochs, and the life of a program. -/

namespace Sys2Proof.Machine
open Sys2Proof

variable {s : State}

theorem State.Ok.setReg (hs : s.Ok) {off : Nat} {v : Word} : (s.setReg off v).Ok := hs.putReg off v

theorem State.Ok.setFld (hs : s.Ok) {off hi lo x : Nat} : (s.setFld off hi lo x).Ok := hs.setReg

theorem State.Ok.bump (hs : s.Ok) {off n : Nat} : (s.bump off n).Ok := hs.putCount off (Nat.min_le_right _ _)

theorem State.Ok.recordFirst (hs : s.Ok) {off : Nat} {v : Word} : (s.recordFirst off v).Ok := .ite hs.setFld hs.setReg

theorem State.Ok.drawn (hs : s.Ok) : s.drawn.Ok := hs

theorem State.Ok.poolTouch (hs : s.Ok) {a n : Nat} : (s.poolTouch a n).Ok := by
  unfold State.poolTouch
  split
  · exact hs
  · exact .drawn hs

theorem State.Ok.noteAccessFail (hs : s.Ok) {a : Nat} : (s.noteAccessFail a).Ok := by
  unfold State.noteAccessFail
  split
  · exact .ite hs.bump hs
  · exact .ite hs hs.bump
  · exact hs

theorem State.Ok.send (hs : s.Ok) {m : Sent} : (s.send m).Ok := hs

theorem State.Ok.msix (hs : s.Ok) {v : Nat} : (s.msix v).Ok := .ite hs.setFld (.ite hs hs.send)

theorem State.Ok.event (hs : s.Ok) {b : Nat} : (s.event b).Ok := .ite hs (.ite hs.setFld.msix hs.setFld)

theorem State.Ok.onMgt (hs : s.Ok) {f : Mgt → Mgt} : (s.onMgt f).Ok := hs

theorem State.Ok.putByte (hs : s.Ok) {a : Nat} {v : Byte} : (s.putByte a v).Ok := by
  unfold State.putByte
  split
  · exact hs
  · exact hs.putCell (s.cell a) v

theorem State.Ok.putBytes (hs : s.Ok) {a : Nat} {bs : List Byte} : (s.putBytes a bs).Ok := by
  induction bs generalizing s a with
  | nil => exact hs
  | cons b bs ih => exact ih hs.putByte

theorem State.Ok.noteUncorr (hs : s.Ok) {u : Nat} : (s.noteUncorr u).Ok := by
  unfold State.noteUncorr
  refine .ite hs ?_
  split
  · exact hs.bump.recordFirst.event
  · exact hs.bump.recordFirst.event
  · exact hs.bump.event
  · exact hs

theorem State.Ok.noteRead (hs : s.Ok) {a n : Nat} : (s.noteRead a n).Ok := by
  unfold State.noteRead
  split
  · exact .ite hs.drawn hs
  · exact .drawn (hs.foldl fun _ _ ht => ht.noteUncorr)

/-- A byte write leaves the list of uncorrectable units alone. -/
@[simp] theorem State.putBytes_poison (s : State) (a : Nat) (bs : List Byte) :
    (s.putBytes a bs).poison = s.poison := by
  induction bs generalizing s a with
  | nil => rfl
  | cons b bs ih =>
    have hb : (s.putByte a b).poison = s.poison := by unfold State.putByte; split <;> rfl
    exact (ih _ _).trans hb

/-- A byte write with repairs: the uncorrectable units that `p` picks stay. -/
theorem State.Ok.putBytesRepaired (hs : s.Ok) (a : Nat) (bs : List Byte) (p : Nat → Bool) :
    ({ s.putBytes a bs with poison := s.poison.filter p } : State).Ok := by
  have hp := (hs.putBytes (a := a) (bs := bs)).dropPoison p
  rwa [putBytes_poison] at hp

theorem State.Ok.wrQuiet (hs : s.Ok) {a : Nat} {bs : List Byte} : (s.wrQuiet a bs).Ok := hs.putBytesRepaired a bs _

theorem State.Ok.wr (hs : s.Ok) {a : Nat} {bs : List Byte} : (s.wr a bs).Ok := by
  unfold State.wr
  split
  · exact hs.putBytes
  · exact .foldl (hs.putBytesRepaired a bs _) fun _ _ ht => ht.noteUncorr

theorem State.Ok.wrLE (hs : s.Ok) {a n v : Nat} : (s.wrLE a n v).Ok := hs.wr

theorem State.Ok.commit (hs : s.Ok) : s.commit.Ok := hs

theorem State.Ok.onLink (hs : s.Ok) {l : Nat} {f : Link → Link} : (s.onLink l f).Ok := hs

theorem State.Ok.sendFrames (hs : s.Ok) {l : Nat} {fs : List Frame} : (s.sendFrames l fs).Ok := hs

theorem State.Ok.transmit (hs : s.Ok) {l : Nat} {p : Packet} : (s.transmit l p).Ok := hs.onLink.sendFrames

theorem State.Ok.pump (hs : s.Ok) {l : Nat} : (s.pump l).Ok :=
  hs.onLink.foldl fun _ _ ht => .ite ht.transmit ht.onLink

theorem State.Ok.sendOn (hs : s.Ok) {l : Nat} {p : Packet} : (s.sendOn l p).Ok := hs.onLink.pump

theorem State.Ok.sendPkt (hs : s.Ok) {l d kind vc tag addr : Nat} {body : List Byte} :
    (s.sendPkt l d kind vc tag addr body).Ok :=
  hs.sendOn

theorem State.Ok.sendManage (hs : s.Ok) {l d : Nat} {body : List Byte} : (s.sendManage l d body).Ok :=
  hs.foldl fun _ _ ht => ht.sendPkt

theorem State.Ok.loseTo (hs : s.Ok) {f : Nat} : (s.loseTo f).Ok := .bump hs

theorem State.Ok.onBatch (hs : s.Ok) {tag : Nat} {f : Batch → Batch} : (s.onBatch tag f).Ok := hs

theorem State.Ok.loseBatchTo (hs : s.Ok) {tag d : Nat} : (s.loseBatchTo tag d).Ok := hs.onBatch.bump

theorem State.Ok.respond (hs : s.Ok) {r : ReplyTo} {status : Nat} {body : List Byte} :
    (s.respond r status body).Ok := by
  unfold State.respond
  split
  · exact hs.onMgt.setReg.event
  · exact hs.onMgt.send
  · exact hs.send
  · exact hs.sendManage

theorem State.Ok.endFunc (hs : s.Ok) {result acount : Nat} : (s.endFunc result acount).Ok := by
  unfold State.endFunc
  split
  · exact hs
  · dsimp only
    split
    · exact hs.onMgt.setReg.event.respond
    · exact hs.onMgt.setReg.event

theorem State.Ok.retrainOver (hs : s.Ok) {kind i result : Nat} : (s.retrainOver kind i result).Ok := by
  unfold State.retrainOver
  split
  · exact .ite hs.endFunc hs
  · exact hs

theorem State.Ok.linkTo (hs : s.Ok) {d a : Nat} : (s.linkTo d a).1.Ok := by
  unfold State.linkTo
  refine .iteFst hs ?_
  split
  · exact hs.bump
  · exact hs

theorem State.Ok.peerRead (hs : s.Ok) {d a n : Nat} : (s.peerRead d a n).1.Ok := by
  unfold State.peerRead
  refine .iteFst (.drawn (hs.foldlFst fun _ _ ht => .iteFst ht ?_)) (hs.foldlFst fun _ _ ht => .iteFst ht ?_)
  all_goals
    split
    · next hl =>
        have ht2 := State.Ok.of_eq Prod.fst hl ht.linkTo
        exact ht2
    · next hl => exact (State.Ok.of_eq Prod.fst hl ht.linkTo).sendPkt

theorem State.Ok.request (hs : s.Ok) {l d : Nat} {p : ReqFor} : (s.request l d p).Ok := hs

theorem State.Ok.peerSend (hs : s.Ok) {d a : Nat} {bs : List Byte} {p : Option ReqFor} :
    (s.peerSend d a bs p).1.Ok := by
  unfold State.peerSend
  refine hs.foldlFst fun _ _ ht => .iteFst ht ?_
  split
  · next hl =>
      have ht2 := State.Ok.of_eq Prod.fst hl ht.linkTo
      exact ht2
  · next hl =>
      have ht2 := State.Ok.of_eq Prod.fst hl ht.linkTo
      split
      all_goals
        split
        · exact ht2.sendPkt.request
        · exact ht2.sendPkt

theorem State.Ok.peerWrite (hs : s.Ok) {d a : Nat} {bs : List Byte} : (s.peerWrite d a bs).1.Ok := by
  unfold State.peerWrite
  split
  · next hl =>
      have ht := State.Ok.of_eq Prod.fst hl hs.peerSend
      exact ht
  · next hl => exact (State.Ok.of_eq Prod.fst hl hs.peerSend).drawn

theorem State.Ok.noteWalk (hs : s.Ok) {root : Word} {va : Nat} : (s.noteWalk root va).Ok := by
  unfold State.noteWalk
  split
  · split
    · exact hs.noteUncorr
    · exact hs
  · exact hs

theorem State.Ok.noteLeaf (hs : s.Ok) {e : Word} {shift va eng : Nat} {rd wr : Bool} :
    (s.noteLeaf e shift va eng rd wr).Ok :=
  .ite hs hs.noteAccessFail

theorem State.Ok.noteXlat (hs : s.Ok) {root : Word} {va eng : Nat} {rd wr : Bool} :
    (s.noteXlat root va eng rd wr).Ok := by
  unfold State.noteXlat
  refine .ite hs ?_
  split
  · exact hs.noteLeaf
  · exact hs.noteWalk

theorem State.Ok.setSeq (hs : s.Ok) {u : SeqId} {q : Seq} : (s.setSeq u q).Ok := hs

theorem State.Ok.onSeq (hs : s.Ok) {u : SeqId} {f : Seq → Seq} : (s.onSeq u f).Ok := hs.setSeq

theorem State.Ok.onSiph (hs : s.Ok) {n : Nat} {f : Siphon → Siphon} : (s.onSiph n f).Ok := hs

theorem State.Ok.addCounts (hs : s.Ok) {u : Nat} {f : Counts → Counts} : (s.addCounts u f).Ok := hs.onSeq

theorem State.Ok.endWork (hs : s.Ok) {u : SeqId} {seq : Nat} {c : Code} : (s.endWork u seq c).Ok := hs.onSeq

theorem State.Ok.finishCmd (hs : s.Ok) {q idx : Nat} {f : Cmd → Cmd} : (s.finishCmd q idx f).Ok := hs

theorem State.Ok.reportEnd (hs : s.Ok) {u : SeqId} {code : Code} : (s.reportEnd u code).Ok := by
  unfold State.reportEnd
  dsimp only
  split
  · exact hs
  · exact hs.addCounts.onSeq
  · refine .ite hs.finishCmd (.ite (.finishCmd ?_) ?_) <;> exact hs

theorem State.Ok.startCore (hs : s.Ok) {l : Launch} : (s.startCore l).Ok := hs.onSeq

theorem State.Ok.startNext (hs : s.Ok) {c : Nat} : (s.startNext c).Ok := by
  unfold State.startNext
  dsimp only
  split
  · exact hs
  · refine .startCore ?_
    exact hs.drawn

theorem State.Ok.endProgram (hs : s.Ok) {u : SeqId} {code : Code} : (s.endProgram u code).Ok := by
  unfold State.endProgram
  dsimp only
  split
  · exact hs.reportEnd.onSeq.startNext
  · exact hs.reportEnd.onSeq

theorem State.Ok.checkEnd (hs : s.Ok) {u : SeqId} : (s.checkEnd u).Ok := .ite hs.endProgram hs

theorem State.Ok.dropWaits (hs : s.Ok) {u : SeqId} : (s.dropWaits u).Ok := hs

theorem State.Ok.beginEnd (hs : s.Ok) {u : SeqId} {f : Option Code} : (s.beginEnd u f).Ok :=
  .checkEnd (.onSeq (.dropWaits (.ite hs.setFld hs)))

theorem State.Ok.seqFault (hs : s.Ok) {u : SeqId} {code : Code} {cause va : Nat} : (s.seqFault u code cause va).Ok :=
  .beginEnd (.ite hs.recordFirst hs.recordFirst.setReg)

theorem State.Ok.noteFetch (hs : s.Ok) {w : Issue} : (noteFetch w s).Ok := by
  unfold Machine.noteFetch
  split
  · exact hs.bump
  · exact hs

theorem State.Ok.issued (hs : s.Ok) {w : Issue} : (issued w s).Ok := hs.noteFetch.onSeq.bump

/-- An instruction keeps the invariant when its stall and its body do. -/
theorem State.Ok.issueWhen (hs : s.Ok) {w : Issue} {ready : State → Bool} {stall body : State → State}
    (hw : ∀ t, t.Ok → (stall t).Ok) (hb : ∀ t, t.Ok → (body t).Ok) : Kept (issueWhen w ready stall s body) := by
  unfold Machine.issueWhen
  exact .ite (.next hs) (.ite (.next hs.seqFault) (.ite (.next hs.seqFault) (.ite (.next hs.issued.onSeq)
    (.ite (.next (hw _ hs)) (.next (hb _ hs.issued))))))

theorem State.Ok.issue (hs : s.Ok) {w : Issue} {body : State → State} (hb : ∀ t, t.Ok → (body t).Ok) :
    Kept (issue w s body) := hs.issueWhen (fun _ ht => ht) hb

theorem State.Ok.adv (hs : s.Ok) {u : SeqId} : (s.adv u).Ok := hs.onSeq

theorem State.Ok.jump (hs : s.Ok) {u : SeqId} {t : Int} {f : Seq → Seq} : (s.jump u t f).Ok :=
  .ite hs.onSeq hs.seqFault

theorem State.Ok.park (hs : s.Ok) {u : SeqId} : (s.park u).Ok := hs.onSeq

end Sys2Proof.Machine
end

section
/-! Reading and writing tensor operands keeps the invariant. -/

namespace Sys2Proof.Machine
open Sys2Proof

variable {s : State}

theorem State.Ok.putBits (hs : s.Ok) {a n v : Nat} : (s.putBits a n v).Ok := .ite hs.putBytes hs.putByte

@[simp] theorem State.putBits_poison (s : State) (a n v : Nat) : (s.putBits a n v).poison = s.poison := by
  unfold State.putBits
  split
  · exact putBytes_poison _ _ _
  · exact putBytes_poison s _ [_]

/-- Element writes keep the invariant and leave the list of uncorrectable units alone. -/
theorem State.Ok.foldl_putBits (hs : s.Ok) (ws : List ElemWrite) :
    (ws.foldl (fun s (a, n, v) => s.putBits a n v) s).Ok ∧
      (ws.foldl (fun s (a, n, v) => s.putBits a n v) s).poison = s.poison := by
  induction ws generalizing s with
  | nil => exact ⟨hs, rfl⟩
  | cons x ws ih =>
    obtain ⟨hok, hp⟩ := ih (hs.putBits (a := x.1) (n := x.2.1) (v := x.2.2))
    exact ⟨hok, hp.trans (putBits_poison _ _ _ _)⟩

theorem State.Ok.wrElems (hs : s.Ok) {ws : List ElemWrite} : (s.wrElems ws).Ok := by
  obtain ⟨hok, hp⟩ := hs.foldl_putBits ws
  have hd := hok.dropPoison
  rw [hp] at hd
  unfold State.wrElems
  split
  · exact hok
  · exact .foldl (hd _) fun _ _ ht => ht.noteUncorr

theorem State.Ok.noteOperand (hs : s.Ok) {t : TD} : (s.noteOperand t).Ok := by
  unfold State.noteOperand
  split
  · exact hs
  · exact .drawn (hs.foldl fun _ _ ht => ht.noteUncorr)

end Sys2Proof.Machine
end

section
/-! Meeting accesses, whose overlap becomes undefined, keep the invariant. -/

namespace Sys2Proof.Machine
open Sys2Proof

variable {s : State}

theorem State.Ok.scribble (hs : s.Ok) {rs : List (Nat × Nat)} : (s.scribble rs).Ok := by
  unfold State.scribble
  split
  · exact hs
  · exact .drawn (hs.foldl fun _ _ ht => ht.putBytes)

theorem State.Ok.raced (hs : s.Ok) {u : SeqId} {w : Work} : (s.raced u w).2.Ok := .iteSnd hs (.iteSnd hs hs)

theorem State.Ok.viewOf (hs : s.Ok) {c : Nat} {w : Work} : (s.viewOf c w).1.Ok := hs.scribble

theorem State.Ok.noteMeet (hs : s.Ok) {m : Access} {a n : Nat} : (s.noteMeet m a n).Ok := hs

theorem State.Ok.readMeet (hs : s.Ok) {m : Access} {a n : Nat} : (s.readMeet m a n).1.Ok := .iteFst hs.drawn hs

theorem State.Ok.writeMeet (hs : s.Ok) {m : Access} {a : Nat} {bs : List Byte} : (s.writeMeet m a bs).1.Ok :=
  .iteFst hs.noteMeet.drawn hs

theorem State.Ok.readUpdated (hs : s.Ok) {root : Word} {va k : Nat} {bs : List Byte} :
    (s.readUpdated root va k bs).1.Ok :=
  .iteFst hs.drawn hs

theorem State.Ok.writeUpdated (hs : s.Ok) {root : Word} {va : Nat} {bs : List Byte} :
    (s.writeUpdated root va bs).1.Ok :=
  .iteFst (.drawn hs) hs

end Sys2Proof.Machine
end

section
/-! The issue of tensor instructions, the fence and the descriptor instructions keep the invariant. -/

namespace Sys2Proof.Machine
open Sys2Proof

variable {s : State}

theorem State.Ok.takeHandle (hs : s.Ok) {u : SeqId} {fd : SReg} {i : Instr} {f : Work → State → Work × State}
    (hf : ∀ x t, t.Ok → (f x t).2.Ok) : (takeHandle u fd i f s).Ok := by
  unfold Machine.takeHandle
  dsimp only
  split
  · exact hs.seqFault
  · exact (hf _ _ hs).raced.onSeq.adv

theorem State.Ok.stallHandle (hs : s.Ok) {u : SeqId} : (stallHandle u s).Ok := hs.bump

theorem State.Ok.issueTensor (hs : s.Ok) {w : Issue} {fd : SReg} {i : Instr} {bad : Option Nat}
    {f : Work → State → Work × State} (hf : ∀ x t, t.Ok → (f x t).2.Ok) :
    Kept (issueTensor w fd i bad s f) := by
  refine hs.issueWhen (fun _ ht => .ite ht ht.stallHandle) fun _ ht => ?_
  split
  · exact ht.seqFault
  · exact ht.takeHandle hf

theorem State.Ok.withDescs (hs : s.Ok) {u : SeqId} {ds : List Slot} {d4 : Slot} {n : Nat} {w : Work} :
    (withDescs u ds d4 n w s).2.Ok := by
  unfold Machine.withDescs
  dsimp only
  split <;> exact hs

theorem State.Ok.withOps (hs : s.Ok) {u : SeqId} {ds : List Slot} {vs : List Word} {w : Work} :
    (withOps u ds vs w s).2.Ok :=
  hs

theorem State.Ok.execLds (hs : s.Ok) {w : Issue} {fd : SReg} {d1 : Slot} {opt : Opt} : Kept (execLds w fd d1 opt s) :=
  hs.issueTensor fun _ _ ht => ht.withOps

theorem State.Ok.execMma (hs : s.Ok) {w : Issue} {fd : SReg} {d1 d2 d3 d4 : Slot} {opt : Opt} :
    Kept (execMma w fd d1 d2 d3 d4 opt s) :=
  hs.issueTensor fun _ _ ht => ht.withDescs

theorem State.Ok.execMmat (hs : s.Ok) {w : Issue} {fd : SReg} {d1 d2 d3 d4 : Slot} {opt : Opt} :
    Kept (execMmat w fd d1 d2 d3 d4 opt s) :=
  hs.issueTensor fun _ _ ht => ht.withDescs

theorem State.Ok.execWgr (hs : s.Ok) {w : Issue} {fd : SReg} {d1 d2 d3 d4 : Slot} {opt : Opt} :
    Kept (execWgr w fd d1 d2 d3 d4 opt s) :=
  hs.issueTensor fun _ _ ht => ht.withDescs

theorem State.Ok.execCvt (hs : s.Ok) {w : Issue} {fd : SReg} {d1 d2 : Slot} {opt : Opt} :
    Kept (execCvt w fd d1 d2 opt s) :=
  hs.issueTensor fun _ _ ht => ht.withOps

theorem State.Ok.execSclRead (hs : s.Ok) {w : Issue} {fd : SReg} {d1 : Slot} {r4 : SReg} {field : BitVec 2} :
    Kept (execSclRead w fd d1 r4 field s) :=
  hs.issueTensor fun _ _ ht => ht.withOps

theorem State.Ok.execSclWrite (hs : s.Ok) {w : Issue} {fd : SReg} {d1 : Slot} {r4 : SReg} {field : BitVec 2} :
    Kept (execSclWrite w fd d1 r4 field s) :=
  hs.issueTensor fun _ _ ht => ht.withOps

theorem State.Ok.execGth (hs : s.Ok) {w : Issue} {fd : SReg} {d1 d2 d3 : Slot} {opt : Opt} :
    Kept (execGth w fd d1 d2 d3 opt s) :=
  hs.issueTensor fun _ _ ht => ht.withOps

theorem State.Ok.execSct (hs : s.Ok) {w : Issue} {fd : SReg} {d1 d2 d3 : Slot} {opt : Opt} :
    Kept (execSct w fd d1 d2 d3 opt s) :=
  hs.issueTensor fun _ _ ht => ht.withOps

theorem State.Ok.execSca (hs : s.Ok) {w : Issue} {fd : SReg} {d1 d2 d3 : Slot} {opt : Opt} :
    Kept (execSca w fd d1 d2 d3 opt s) :=
  hs.issueTensor fun _ _ ht => ht.withOps

theorem State.Ok.execMrgMerge (hs : s.Ok) {w : Issue} {fd : SReg} {d1 d2 d3 : Slot} {r4 : SReg} :
    Kept (execMrgMerge w fd d1 d2 d3 r4 s) :=
  hs.issueTensor fun _ _ ht => ht.withOps

theorem State.Ok.execMrgBitmap (hs : s.Ok) {w : Issue} {fd : SReg} {d1 d2 d3 : Slot} {r4 : SReg} :
    Kept (execMrgBitmap w fd d1 d2 d3 r4 s) :=
  hs.issueTensor fun _ _ ht => ht.withOps

theorem State.Ok.execTopk (hs : s.Ok) {w : Issue} {fd : SReg} {d1 d2 d3 d4 : Slot} {opt : Opt} :
    Kept (execTopk w fd d1 d2 d3 d4 opt s) :=
  hs.issueTensor fun _ _ ht => ht.withOps

theorem State.Ok.execSeg (hs : s.Ok) {w : Issue} {fd : SReg} {d1 d2 d3 : Slot} {opt : Opt} :
    Kept (execSeg w fd d1 d2 d3 opt s) :=
  hs.issueTensor fun _ _ ht => ht.withOps

theorem State.Ok.execCmp (hs : s.Ok) {w : Issue} {fd : SReg} {d1 d2 : Slot} {opt : Opt} :
    Kept (execCmp w fd d1 d2 opt s) :=
  hs.issueTensor fun _ _ ht => ht.withOps

theorem State.Ok.execPrn (hs : s.Ok) {w : Issue} {fd : SReg} {d1 d2 : Slot} {r4 : SReg} {opt : Opt} :
    Kept (execPrn w fd d1 d2 r4 opt s) :=
  hs.issueTensor fun _ _ ht => ht.withOps

theorem State.Ok.execBat (hs : s.Ok) {w : Issue} {fd : SReg} {d1 d2 d3 d4 : Slot} {opt : Opt} :
    Kept (execBat w fd d1 d2 d3 d4 opt s) :=
  hs.issueTensor fun _ _ ht => ht.withDescs

theorem State.Ok.withBlock (hs : s.Ok) {u : SeqId} {i n bound : Nat} {w : Work} : (withBlock u i n bound w s).2.Ok :=
  .iteSnd hs (.iteSnd hs.noteRead hs)

theorem State.Ok.withXfr (hs : s.Ok) {u : SeqId} {ds : List Slot} {r4 : SReg} {siph : BitVec 8} {w : Work} :
    (withXfr u ds r4 siph w s).2.Ok :=
  .iteSnd hs (.iteSnd hs (.iteSnd hs hs.withBlock))

theorem State.Ok.execXfrProg (hs : s.Ok) {w : Issue} {fd : SReg} {d1 d2 d3 : Slot} {r4 : SReg} {siph : BitVec 8}
    {slot : BitVec 4} {drv : Bool} : Kept (execXfrProg w fd d1 d2 d3 r4 siph slot drv s) :=
  hs.issueTensor fun _ _ ht => ht.withXfr

theorem State.Ok.execXfrPack (hs : s.Ok) {w : Issue} {fd : SReg} {d1 d2 d3 : Slot} {r4 : SReg} {siph : BitVec 8} :
    Kept (execXfrPack w fd d1 d2 d3 r4 siph s) :=
  hs.issueTensor fun _ _ ht => ht.withXfr

theorem State.Ok.execXfrUnpack (hs : s.Ok) {w : Issue} {fd : SReg} {d1 d2 d3 : Slot} {r4 : SReg} {siph : BitVec 8} :
    Kept (execXfrUnpack w fd d1 d2 d3 r4 siph s) :=
  hs.issueTensor fun _ _ ht => ht.withXfr

theorem State.Ok.execXfrRope (hs : s.Ok) {w : Issue} {fd : SReg} {d1 d2 : Slot} {r4 : SReg} {siph : BitVec 8} :
    Kept (execXfrRope w fd d1 d2 r4 siph s) :=
  hs.issueTensor fun _ _ ht => ht.withXfr

theorem State.Ok.execRop (hs : s.Ok) {w : Issue} {fd : SReg} {a1 : AReg} : Kept (execRop w fd a1 s) :=
  hs.issueTensor fun _ _ ht => ht.withBlock

theorem State.Ok.execFnc (hs : s.Ok) {w : Issue} : Kept (execFnc w s) := hs.issue fun _ ht => ht.onSeq.adv

theorem State.Ok.onBlock (hs : s.Ok) {u : SeqId} {a2 : AReg} {n : Nat} {body : Nat → State → State}
    (hb : ∀ i t, t.Ok → (body i t).Ok) : (onBlock u a2 n s body).Ok :=
  .ite hs.seqFault (.ite hs.seqFault (hb _ _ hs))

theorem State.Ok.execDscMake (hs : s.Ok) {w : Issue} {fd : SReg} {d1 : Slot} {a2 : AReg} :
    Kept (execDscMake w fd d1 a2 s) :=
  hs.issue fun _ ht => ht.onBlock fun _ _ ht2 => .ite ht2.noteRead.seqFault ht2.onSeq.adv

theorem State.Ok.execDscLd (hs : s.Ok) {w : Issue} {d1 : Slot} {a2 : AReg} : Kept (execDscLd w d1 a2 s) :=
  hs.issue fun _ ht => ht.onBlock fun _ _ ht2 => .ite ht2.noteRead.seqFault ht2.onSeq.adv

theorem State.Ok.execDscSt (hs : s.Ok) {w : Issue} {d1 : Slot} {a2 : AReg} : Kept (execDscSt w d1 a2 s) :=
  hs.issue fun _ ht => ht.onBlock fun _ _ ht2 => ht2.wrLE.adv

theorem State.Ok.execDscBase (hs : s.Ok) {w : Issue} {d1 : Slot} {a2 : AReg} : Kept (execDscBase w d1 a2 s) :=
  hs.issue fun _ ht => ht.onSeq.adv

end Sys2Proof.Machine
end

section
/-! Barrier counters keep the invariant: arrivals, waits, notices and polls. -/

namespace Sys2Proof.Machine
open Sys2Proof

variable {s : State}

theorem State.Ok.arriveAt (hs : s.Ok) {h inc : Nat} : (s.arriveAt h inc).1.Ok := by
  unfold State.arriveAt
  dsimp only
  split
  · exact .bump (.wrQuiet (.ite hs.noteRead hs))
  · exact .wrQuiet (.ite hs.noteRead hs)

theorem State.Ok.arriveVa (hs : s.Ok) {root : Word} {eng va inc : Nat} : (s.arriveVa root eng va inc).1.Ok := by
  unfold State.arriveVa
  refine .iteFst hs ?_
  split
  · exact hs.noteXlat
  · exact hs.arriveAt
  · split
    · next hl =>
        have ht := State.Ok.of_eq Prod.fst hl hs.linkTo
        exact ht
    · next hl => exact (State.Ok.of_eq Prod.fst hl hs.linkTo).sendPkt

theorem State.Ok.watch (hs : s.Ok) {h : Nat} {t : BitVec 32} {who : Waiter} : (s.watch h t who).Ok := hs

theorem State.Ok.execBarArrive (hs : s.Ok) {w : Issue} {fd : SReg} {a1 : AReg} {r2 : SReg} {opt : Opt} :
    Kept (execBarArrive w fd a1 r2 opt s) :=
  hs.issueTensor fun _ _ ht => ht

theorem State.Ok.execBarArrivalApply (hs : s.Ok) {u : SeqId} {h : BitVec 5} : Kept (execBarArrivalApply u h s) := by
  unfold Machine.execBarArrivalApply
  dsimp only
  split
  · exact .next hs
  · split
    · refine .ite (.next hs) (.ite (.next hs.endWork) ?_)
      split
      · exact .next hs.noteXlat.endWork
      · exact .ite (.next hs) (.next hs.arriveAt.endWork)
      · split
        · next hl => exact .next (State.Ok.of_eq Prod.fst hl hs.linkTo).endWork
        · next hl => exact .next (State.Ok.of_eq Prod.fst hl hs.linkTo).sendPkt.request.onSeq
    · exact .next hs

theorem State.Ok.wakeX (hs : s.Ok) {r idx : Nat} {c : Code} : (s.wakeX r idx c).Ok := hs

theorem State.Ok.release (hs : s.Ok) {who : Waiter} : (s.release who).Ok := by
  unfold State.release
  split
  · exact hs.onSeq
  · exact hs.onSiph
  · exact hs.wakeX
  · exact hs.sendPkt

theorem State.Ok.execBarWait (hs : s.Ok) {w : Issue} {a1 : AReg} {r2 : SReg} : Kept (execBarWait w a1 r2 s) := by
  unfold Machine.execBarWait
  refine hs.issue fun _ ht => .ite ht.seqFault ?_
  split
  · exact ht.noteXlat.seqFault
  · exact .ite ht.noteRead.seqFault (.ite ht.adv ht.onSeq.park.watch)
  · split
    · next hl => exact (State.Ok.of_eq Prod.fst hl ht.linkTo).seqFault
    · next hl => exact (State.Ok.of_eq Prod.fst hl ht.linkTo).sendPkt.request.onSeq.park

theorem State.Ok.execBarNotify (hs : s.Ok) {who : Waiter} : Kept (execBarNotify who s) := by
  unfold Machine.execBarNotify
  split
  · exact .next hs
  · refine .next (.release ?_)
    exact hs

theorem State.Ok.waitFails (hs : s.Ok) {who : Waiter} : (s.waitFails who).Ok := by
  unfold State.waitFails
  split
  · exact hs.onSeq.seqFault
  · exact hs.onSiph
  · exact hs.wakeX
  · exact hs.sendOn

theorem State.Ok.execBarPollRead (hs : s.Ok) {who : Waiter} : Kept (execBarPollRead who s) := by
  unfold Machine.execBarPollRead
  split
  · exact .next hs
  · refine .ite (.next (.waitFails (.noteRead ?_))) (.ite (.next (.release ?_)) (.next ?_))
    all_goals
      split
      · exact hs.bump
      · exact hs

end Sys2Proof.Machine
end

section
/-! The output converter, its amax table and its drip table keep the invariant. -/

namespace Sys2Proof.Machine
open Sys2Proof

variable {s : State}

theorem State.Ok.amaxNote (hs : s.Ok) {t : TD} {ys : List F32} : (s.amaxNote t ys).Ok := by
  unfold State.amaxNote
  refine .ite hs ?_
  dsimp only
  split
  · exact .wrLE (.ite hs.wrLE hs)
  · exact .ite (.wrLE (.ite hs.wrLE hs)) (.ite hs.wrLE hs)

theorem State.Ok.amaxRoll (hs : s.Ok) {n slot : Nat} : (s.amaxRoll n slot).Ok := by
  unfold State.amaxRoll
  refine .ite hs ?_
  dsimp only
  split
  · refine .ite (.wrLE (.wrLE (hs.foldl fun _ _ ht => ht.wrLE))) ?_
    split
    · exact .wrLE (.wrLE (hs.foldl fun _ _ ht => ht.wrLE))
    · exact .wrLE (.wrLE (.wrLE (hs.foldl fun _ _ ht => ht.wrLE)))
  · exact .wrLE (.wrLE (hs.foldl fun _ _ ht => ht.wrLE))

theorem State.Ok.amaxRollAll (hs : s.Ok) {n : Nat} : (s.amaxRollAll n).Ok := by
  unfold State.amaxRollAll
  exact hs.forUpto fun _ _ ht => ht.amaxRoll

theorem State.Ok.wrCode (hs : s.Ok) {ws : List ElemWrite} : (s.wrCode ws).1.Ok := hs.wrElems

theorem State.Ok.touch (hs : s.Ok) {root : Word} {eng aptr : Nat} {rows : List Nat} :
    (s.touch root eng aptr rows).1.Ok := by
  unfold State.touch
  split
  · exact hs.noteXlat
  · exact hs
  · with_reducible refine .iteFst hs.noteRead (hs.foldlFst fun _ _ ht => .iteFst ht ?_)
    split
    · exact ht.noteXlat
    · exact ht
    · exact .iteFst ht.noteRead ht.wrLE

end Sys2Proof.Machine
end

section
/-! The dense engine keeps the invariant: tiles, feeds, products and conversions. -/

namespace Sys2Proof.Machine
open Sys2Proof

variable {s : State}

theorem State.Ok.setCore (hs : s.Ok) {c : Nat} {k : Core} : (s.setCore c k).Ok := hs

theorem State.Ok.onCore (hs : s.Ok) {c : Nat} {f : Core → Core} : (s.onCore c f).Ok := hs.setCore

theorem State.Ok.onRuns (hs : s.Ok) {c a : Nat} {f : List Dense → List Dense} : (s.onRuns c a f).Ok := hs.onCore

theorem State.Ok.putRun (hs : s.Ok) {c a : Nat} {r : Dense} : (s.putRun c a r).Ok := hs.onRuns

theorem State.Ok.endCoreWork (hs : s.Ok) {c seq : Nat} {k : Code} : (s.endCoreWork c seq k).Ok := hs.scribble.endWork

theorem State.Ok.noteEvents (hs : s.Ok) {c clips ovf retries : Nat} : (s.noteEvents c clips ovf retries).Ok :=
  hs.bump.bump.bump.addCounts

theorem State.Ok.noteDrops (hs : s.Ok) {c off n : Nat} : (s.noteDrops c off n).Ok := hs.bump.addCounts

theorem State.Ok.noteDensePort (hs : s.Ok) {c cls : Nat} {rs : List (Nat × Nat)} : (s.noteDensePort c cls rs).Ok :=
  hs.bump

theorem State.Ok.planCompute {v : State} (hs : s.Ok) {p : Plan} {c : Nat} {t : Tile} {masked : List Nat} {i r : Nat} :
    (p.compute s v c t masked i r).1.Ok :=
  hs.onCore

theorem State.Ok.freeEntries (hs : s.Ok) {c : Nat} {es : List Nat} : (s.freeEntries c es).1.Ok := by
  unfold State.freeEntries
  split
  · exact hs
  · refine .onCore ?_
    exact hs

theorem State.Ok.planChain (hs : s.Ok) {p : Plan} {c nc : Nat} {masked : List Nat} : (p.chain s c nc masked).Ok :=
  .ite hs hs.freeEntries.onCore

theorem State.Ok.planNoteFeed {v : State} (hs : s.Ok) {p : Plan} {c waited : Nat} :
    (p.noteFeed s v c waited).1.Ok := by
  unfold Plan.noteFeed
  extract_lets +onlyGivenNames tiles rows bad drops empty
  split
  extract_lets ops ecc t1 t2 t3 t4 t5 t6
  have h1 : t1.Ok := hs.foldl fun _ _ ht => ht.noteOperand
  have h3 : t3.Ok := h1.noteDrops.noteDrops.bump.bump.bump
  have h4 : t4.Ok := .ite h3.bump h3
  have h5 : t5.Ok := .ite h4 h4.noteDensePort
  exact h5.noteDensePort.bump

theorem State.Ok.noteTile (hs : s.Ok) {c : Nat} {w : TileWrite} : (s.noteTile c w).Ok := .ite hs.bump hs.bump.bump

theorem State.Ok.writeTiles (hs : s.Ok) {c : Nat} {t : TD} {o : List Nat} {code : Nat → Nat → Nat}
    {how : List (Nat × Nat × Bool)} {masked : List Nat} : (s.writeTiles c t o code how masked).1.Ok :=
  hs.forUptoFst fun _ _ ht => .iteFst ht ht.wr.noteTile

theorem State.Ok.writeStream (hs : s.Ok) {c : Nat} {t : TD} {els : List (List Nat × Nat)}
    {how : List (Nat × Nat × Bool)} {masked : List Nat} : (s.writeStream c t els how masked).1.Ok := by
  unfold State.writeStream
  exact hs.writeTiles

theorem State.Ok.planFinish {p : Plan} (hs : s.Ok) {c : Nat} {run : Dense} {nc : Nat} : (p.finish s c run nc).Ok := by
  unfold Plan.finish
  dsimp only
  split <;> split <;> dsimp only
  · refine .endCoreWork (.onRuns (.touch (.scribble (.foldlFst ?_ fun _ _ ht => ?_))))
    · exact hs
    · exact ht.writeStream
  · exact hs.scribble.touch.onRuns.endCoreWork
  · refine .endCoreWork (.onRuns (.scribble (.foldlFst ?_ fun _ _ ht => ?_)))
    · exact hs
    · exact ht.writeStream
  · exact hs.scribble.onRuns.endCoreWork

theorem State.Ok.planTileStep (hs : s.Ok) {p : Plan} {c : Nat} {w : Work} {run : Dense} {t : Tile} :
    (p.tileStep s c w run t).1.Ok :=
  have h := hs.viewOf.planChain.planCompute
  .iteFst h (.iteFst h.wrCode.noteDensePort h)

theorem State.Ok.streamRun (hs : s.Ok) {c a seq : Nat} : (s.streamRun c a seq).Ok := by
  unfold State.streamRun
  extract_lets +onlyGivenNames l plan older
  split
  · exact hs
  · split
    · refine .ite hs ?_
      split
      next hl =>
      have ht := State.Ok.of_eq Prod.fst hl (.forUptoFst hs fun _ _ ht => .iteFst ht.planTileStep ht)
      exact .ite ht.planFinish ht.putRun
    · exact hs

theorem State.Ok.streamAll (hs : s.Ok) {c a : Nat} : (s.streamAll c a).Ok := hs.foldl fun _ _ ht => ht.streamRun

theorem State.Ok.planReload (hs : s.Ok) {p : Plan} {c : Nat} {t : Tile} : (p.reload s c t).Ok :=
  .ite hs hs.bump.noteDensePort.onCore

theorem State.Ok.planStream (hs : s.Ok) {p : Plan} {c waited : Nat} {w : Work} {t : Tile} {run : Dense} :
    (p.stream s c waited w t run).Ok :=
  hs.viewOf.planNoteFeed.planReload.putRun.streamAll

theorem State.Ok.planLoad (hs : s.Ok) {p : Plan} {c waited : Nat} {w : Work} {run : Dense} :
    (p.load s c waited w run).Ok :=
  have h := hs.viewOf.noteOperand.noteDrops.bump.noteDensePort.onCore
  .ite h.onRuns.endCoreWork h.planStream

theorem State.Ok.planConvertNow (hs : s.Ok) {p : Plan} {c : Nat} {t : Tile} {run : Dense} {exh : Bool} :
    (p.convertNow s c t run exh).Ok :=
  have h := hs.noteEvents.amaxNote.wrCode.noteDensePort
  .streamAll (.ite h.putRun h.planFinish)

theorem State.Ok.planConvert (hs : s.Ok) {p : Plan} {c : Nat} {t : Tile} {run : Dense} : (p.convert s c t run).Ok :=
  .ite (.ite hs.planConvertNow hs.noteEvents.putRun) hs.planConvertNow

theorem State.Ok.planRecompute (hs : s.Ok) {p : Plan} {c : Nat} {w : Work} {t : Tile} {run : Dense} :
    (p.recompute s c w t run).Ok :=
  have hc := hs.viewOf.planReload.planCompute
  have hf := State.Ok.iteFst hc.freeEntries hc
  .putRun (.bump (.noteDensePort (.ite hf hf.noteDensePort)))

theorem State.Ok.doCvt {v : State} (hs : s.Ok) {c : Nat} {a b : TD} {sr crow : Bool} :
    (s.doCvt v c a b sr crow).1.Ok :=
  .iteFst hs hs.noteOperand.noteEvents.amaxNote.noteDensePort.wrCode

theorem State.Ok.doSclRead (hs : s.Ok) {c : Nat} {t : TD} {f : BitVec 2} {word : Nat} :
    (s.doSclRead c t f word).1.Ok :=
  .iteFst hs hs.wrLE

theorem State.Ok.doSclWrite (hs : s.Ok) {t : TD} {f : BitVec 2} {v : Word} : (s.doSclWrite t f v).1.Ok :=
  .iteFst hs hs.wrLE

end Sys2Proof.Machine
end

section
/-! Accesses at a chamber's banks keep the invariant; the units they poison are where such a unit may begin (R198). -/

namespace Sys2Proof.Machine
open Sys2Proof

variable {s : State}

/-- Where a unit of errors may begin, in every part: the hypothesis under which a unit may be recorded as uncorrectable. -/
def UnitAt (a : Nat) : Prop := ∀ h5, eccSize h5 a ≠ 0 ∧ eccUnit h5 a = a

theorem State.Ok.chamberEcc (hs : s.Ok) {c a : Nat} {found : Ecc} (ha : UnitAt a) : (s.chamberEcc c a found).Ok := by
  cases found with
  | clean => exact hs
  | corrected => exact .ite hs hs.bump
  | uncorrectable =>
    obtain ⟨hz, hu⟩ := ha s.fuses.h5
    exact hs.addPoison hz hu

/-- The words of a chamber are its units of errors (R198). -/
theorem unitAt_chamber {c o : Nat} (hc : c < 800) (ho : o < 0x20_0000) (h4 : o % 4 = 0) :
    UnitAt (chamberBase c + o) := by
  intro h5
  have ht : Machine.target h5 (chamberBase c + o) = .chamber c o := by
    unfold Machine.target chamberBase
    rw [if_neg (by omega), if_neg (by simp; omega), if_pos (by simp; omega)]
    have hm : (0x2000_0000_0000 + 0x40_0000 * c + o - 0x2000_0000_0000) % 0x40_0000 = o := by omega
    have hd : (0x2000_0000_0000 + 0x40_0000 * c + o - 0x2000_0000_0000) / 0x40_0000 = c := by omega
    simp only [hm, hd, if_pos ho]
  have hz : eccSize h5 (chamberBase c + o) = 4 := by simp [eccSize, ht]
  have hb : chamberBase c % 4 = 0 := by unfold chamberBase; omega
  refine ⟨by simp [hz], ?_⟩
  simp only [eccUnit, hz, OfNat.ofNat_ne_zero, if_false]
  omega

/-- Every word of an access that a bank serves begins a unit of errors: whole words within one row (R185, R187). -/
theorem unitAt_of_chamberForm {c cls n i : Nat} {off : BitVec 21} (hc : c < 800)
    (hf : chamberForm cls off.toNat n = true) (hi : i < n / 4) : UnitAt (chamberBase c + off.toNat + 4 * i) := by
  simp only [chamberForm, Bool.and_eq_true, bne_iff_ne, beq_iff_eq, decide_eq_true_eq] at hf
  obtain ⟨⟨⟨⟨⟨hn0, hn4⟩, -⟩, hrow⟩, ho⟩, -⟩ := hf
  have hoff := off.isLt
  have hn : n ∣ 2 ^ 21 := (Nat.dvd_of_mod_eq_zero hrow).trans (by decide)
  obtain ⟨k, hk⟩ := Nat.dvd_of_mod_eq_zero ho
  obtain ⟨m, hm⟩ := hn
  have hkm : k + 1 ≤ m := Nat.lt_of_mul_lt_mul_left (a := n) (by omega)
  have hend : off.toNat + n ≤ 2 ^ 21 := by
    calc off.toNat + n = n * (k + 1) := by rw [hk, Nat.mul_succ]
      _ ≤ n * m := Nat.mul_le_mul_left n hkm
      _ = 2 ^ 21 := hm.symm
  have h4 : off.toNat % 4 = 0 :=
    Nat.mod_eq_zero_of_dvd ((Nat.dvd_of_mod_eq_zero hn4).trans (Nat.dvd_of_mod_eq_zero ho))
  rw [Nat.add_assoc]
  exact unitAt_chamber hc (by omega) (by omega)

/-- The reads of an access that a bank serves: each word that it reads begins a unit of errors. -/
theorem State.Ok.chamberReads (hs : s.Ok) {c cls n : Nat} {off : BitVec 21} (hc : c < 800)
    (hf : chamberForm cls off.toNat n = true) {seen : Nat → Bool} {found : List Ecc} :
    ((List.range (n / 4)).foldl (fun s i =>
      if seen i then s.chamberEcc c (chamberBase c + off.toNat + 4 * i) (found.getD i .clean) else s) s).Ok :=
  hs.foldlMem fun _ _ hi ht => .ite (ht.chamberEcc (unitAt_of_chamberForm hc hf (List.mem_range.mp hi))) ht

theorem State.Ok.execChamberAccess (hs : s.Ok) {c : Fin 800} {cls : Fin 7} {load : Bool} {off : BitVec 21}
    {len : Fin 129} {wr : Option (List (Option Byte))} {waited : Bool} {found : List Ecc} :
    Kept (execChamberAccess c cls load off len wr waited found s) := by
  unfold Machine.execChamberAccess
  cases wr with
  | none =>
    dsimp only
    split
    · exact .next hs
    · next hf =>
      simp only [Bool.or_eq_true, Bool.not_eq_true', not_or, Bool.not_eq_false] at hf
      refine .next (.noteRead (.chamberReads ?_ c.isLt hf.2))
      exact .ite (.bump (.ite hs.bump hs)) (.ite hs.bump hs)
  | some bs =>
    dsimp only
    split
    · exact .next hs
    · next hf =>
      simp only [Bool.or_eq_true, Bool.not_eq_true', not_or, Bool.not_eq_false] at hf
      refine .next (.wrElems (.chamberReads ?_ c.isLt hf.2))
      exact .ite (.bump (.ite hs.bump hs)) (.ite hs.bump hs)

end Sys2Proof.Machine
end

section
/-! Register writes by the access codes of their fields keep the invariant. -/

namespace Sys2Proof.Machine
open Sys2Proof

variable {s : State}

theorem bits_lt (hi lo : Nat) (v : Word) : bits hi lo v < 2 ^ (hi + 1 - lo) := by
  unfold bits
  exact Nat.mod_lt _ (Nat.two_pow_pos _)

theorem State.Ok.storeReg (hs : s.Ok) {off : Nat} {v mask : Word} : (s.storeReg off v mask).Ok := by
  unfold State.storeReg
  split
  · exact hs
  · refine .ite (.ite ?_ hs.drawn.setReg) (.ite hs hs.setReg)
    exact hs.putCount off (Nat.le_pred_of_lt (bits_lt 47 0 s.free))

/-- A register write keeps the invariant when the register's action does. -/
theorem State.Ok.writeReg (hs : s.Ok) {off : Nat} {v : Word} {act : Word → State → Out}
    (ha : ∀ v t, t.Ok → Kept (act v t)) : Kept (writeReg off v s act) :=
  .ite (ha _ _ hs) (.ite (ha _ _ hs.drawn) (.next hs.drawn.storeReg))

end Sys2Proof.Machine
end

section
/-! Notices of a group and the checks of a quarantine keep the invariant. -/

namespace Sys2Proof.Machine
open Sys2Proof

variable {s : State}

theorem State.Ok.notify (hs : s.Ok) {d : Nat} {kind : String} {body : List Nat} : (s.notify d kind body).Ok := by
  unfold State.notify
  dsimp only
  split
  · exact hs.send.bump
  · exact .ite hs.send hs.send.sendManage

theorem State.Ok.notifyAll (hs : s.Ok) {kind : String} {body : List Nat} : (s.notifyAll kind body).Ok := by
  unfold State.notifyAll
  exact hs.foldl fun _ _ ht => ht.notify

theorem State.Ok.recordQlog (hs : s.Ok) {reporter l peer reason : Nat} : (s.recordQlog reporter l peer reason).Ok :=
  hs.recordFirst.event

theorem State.Ok.quarantine (hs : s.Ok) {l reason : Nat} : (s.quarantine l reason).Ok :=
  .ite hs.setFld.setFld (.ite hs.setFld.setFld.onLink.recordQlog hs.setFld.setFld.onLink.notify)

theorem State.Ok.settle (hs : s.Ok) {l : Nat} : (s.settle l).Ok := by
  unfold State.settle
  dsimp only
  split
  · exact hs
  · refine .ite hs.quarantine ?_
    split
    · exact hs.quarantine
    · exact .ite hs.quarantine hs
    · exact .pump (.ite hs.setFld.setFld.onLink.setFld hs.setFld.setFld.onLink)

theorem State.Ok.recheck (hs : s.Ok) : s.recheck.Ok := hs.foldl fun _ _ ht => .ite ht.settle ht

end Sys2Proof.Machine
end

section
/-! The siphons keep the invariant: transfers, packing, stream programs. -/

namespace Sys2Proof.Machine
open Sys2Proof

variable {s : State}

theorem State.Ok.sipLookup (hs : s.Ok) {n va : Nat} : (s.sipLookup n va).1.Ok := by
  unfold State.sipLookup
  refine .iteFst hs ?_
  split
  · exact hs.onSiph
  · dsimp only
    split
    · exact hs.bump.bump.onSiph
    · exact hs.bump.bump.noteWalk

theorem State.Ok.sipXlate (hs : s.Ok) {n va : Nat} {rd wr : Bool} : (s.sipXlate n va rd wr).1.Ok := by
  unfold State.sipXlate
  refine .iteFst hs ?_
  dsimp only
  split
  · exact hs.sipLookup
  · split
    · exact hs.sipLookup.noteLeaf
    · exact hs.sipLookup

theorem State.Ok.sipRead (hs : s.Ok) {n : Nat} {m : Access} {va len : Nat} : (s.sipRead n m va len).s.Ok := by
  unfold State.sipRead
  refine hs.foldlOf SipRead.s fun _ _ ht => .iteOf SipRead.s ht ?_
  split
  · next hl =>
      have ht2 := State.Ok.of_eq Prod.fst hl ht.sipXlate
      exact ht2
  · next hl => exact (State.Ok.of_eq Prod.fst hl ht.sipXlate).readMeet.readUpdated
  · next hl =>
      have ht2 := State.Ok.of_eq Prod.fst hl ht.sipXlate
      split
      all_goals
        next hl2 =>
          have ht3 := State.Ok.of_eq Prod.fst hl2 ht2.peerRead
          exact ht3

theorem State.Ok.noteWrote (hs : s.Ok) {m : Access} {a k : Nat} : (s.noteWrote m a k).Ok := by
  unfold State.noteWrote
  split
  · exact hs
  · exact hs.onSeq

theorem State.Ok.sipWrite (hs : s.Ok) {n : Nat} {m : Access} {va b w v : Nat} : (s.sipWrite n m va b w v).s.Ok := by
  unfold State.sipWrite
  refine hs.foldlOf SipWrite.s fun _ _ ht => .iteOf SipWrite.s ht ?_
  split
  all_goals
    split
    · next hl =>
        have ht2 := State.Ok.of_eq Prod.fst hl ht.sipXlate
        exact ht2
    · next hl => exact (State.Ok.of_eq Prod.fst hl ht.sipXlate).writeMeet.writeUpdated.noteWrote
    · next hl =>
        have ht2 := State.Ok.of_eq Prod.fst hl ht.sipXlate
        dsimp only
        split
        all_goals
          next hl2 =>
            have ht3 := State.Ok.of_eq Prod.fst hl2 ht2.peerSend
            exact ht3

theorem State.Ok.sipFault (hs : s.Ok) {n : Nat} {t : Transfer} {f : SipFault} : (s.sipFault n t f).Ok :=
  .ite hs.recordFirst hs.recordFirst.setReg

theorem State.Ok.notePlaces (hs : s.Ok) {ps : List (Nat × Nat)} : (s.notePlaces ps).1.Ok :=
  .iteFst hs (.drawn (hs.foldl fun _ _ ht => ht.noteUncorr))

theorem State.Ok.sipPut (hs : s.Ok) {n : Nat} {m : Access} {va : Nat} {bs : List Byte} : (s.sipPut n m va bs).1.Ok :=
  hs.sipWrite.wrElems

theorem State.Ok.packTileMove {r : PackRun} (hs : r.s.Ok) {n : Nat} {m : Access} {src dst : TD} {i : Nat} :
    (packTileMove n m src dst i r).s.Ok := by
  unfold Machine.packTileMove
  refine .iteOf PackRun.s hs ?_
  dsimp only
  split
  · exact hs.sipRead
  · with_reducible refine .iteOf PackRun.s hs.sipRead.notePlaces (.ite (.bump ?_) ?_)
    all_goals exact hs.sipRead.notePlaces.sipRead.notePlaces.sipPut

theorem State.Ok.unpackTileMove {r : PackRun} (hs : r.s.Ok) {n : Nat} {m : Access} {src dst : TD} {i : Nat} :
    (unpackTileMove n m src dst i r).s.Ok := by
  unfold Machine.unpackTileMove
  refine .iteOf PackRun.s hs (.iteOf PackRun.s hs ?_)
  dsimp only
  split
  · exact hs.sipRead
  · refine .iteOf PackRun.s hs.sipRead.notePlaces (.ite (.bump (.iteFst ?_ ?_)) (.iteFst ?_ ?_))
    · exact hs.sipRead.notePlaces.sipRead.notePlaces.sipPut
    · exact hs.sipRead.notePlaces.sipRead.notePlaces.sipPut.sipPut
    · exact hs.sipRead.notePlaces.sipRead.notePlaces.sipPut
    · exact hs.sipRead.notePlaces.sipRead.notePlaces.sipPut.sipPut

theorem State.Ok.movePacked (hs : s.Ok) {n : Nat} {t : Transfer} : (s.movePacked n t).1.Ok := by
  unfold State.movePacked
  extract_lets a b r drops t' c x
  have hr : r.s.Ok := by
    unfold r
    split
    · exact .foldlOf PackRun.s hs fun _ _ ht => ht.forUptoOf PackRun.s fun _ _ ht2 => ht2.packTileMove
    · exact .foldlOf PackRun.s hs fun _ _ ht => ht.forUptoOf PackRun.s fun _ _ ht2 => ht2.unpackTileMove
  clear_value r
  split
  · exact hr.addCounts.sipFault
  · exact hr.addCounts

theorem State.Ok.runWork (hs : s.Ok) {u : SeqId} {seq : Nat} : (s.runWork u seq).Ok := hs.onSeq

theorem State.Ok.addTransfer (hs : s.Ok) {n : Nat} {t : Transfer} : (s.addTransfer n t).Ok := hs.onSiph

theorem State.Ok.stage (hs : s.Ok) {n : Nat} {u : SeqId} {w : Work} : (s.stage n u w).Ok := by
  unfold State.stage
  dsimp only
  split
  · exact hs.endWork
  · refine .ite hs.endWork (.ite hs ?_)
    split
    · exact hs.sipRead.notePlaces.sipFault.addTransfer.runWork
    · with_reducible exact hs.sipRead.notePlaces.runWork

theorem State.Ok.execTransferStart (hs : s.Ok) {n : Fin 216} {u : SeqId} : Kept (execTransferStart n u s) := by
  unfold Machine.execTransferStart
  dsimp only
  split
  · exact .next hs
  · refine .ite (.next hs) ?_
    split
    · split
      · exact .next hs.endWork
      · exact .ite (.next hs.addTransfer.runWork) (.next hs.endWork)
    · exact .ite (.next hs.movePacked.addTransfer.runWork) (.next hs.endWork)
    · exact .ite (.next hs.movePacked.addTransfer.runWork) (.next hs.endWork)
    · exact .next hs.stage
    · exact .next hs

theorem State.Ok.setXfer (hs : s.Ok) {n : Nat} {t : Transfer} : (s.setXfer n t).Ok := hs.onSiph

/-- A row of a siphon's program keeps the invariant when its effect on the transfer does. -/
theorem State.Ok.onProg (hs : s.Ok) {n : Fin 216} {id op : Nat} {f : Word → Transfer → State × Transfer}
    (hf : ∀ w t, (f w t).1.Ok) : Kept (onProg n id op s f) := by
  unfold Machine.onProg
  split
  · exact .next hs
  · exact .ite (.next hs) (.next (.setXfer (hf _ _)))

theorem State.Ok.execSipLoop (hs : s.Ok) {n : Fin 216} {id : Nat} : Kept (execSipLoop n id s) :=
  hs.onProg fun _ _ => .iteFst hs hs

theorem State.Ok.execSipAdd (hs : s.Ok) {n : Fin 216} {id : Nat} : Kept (execSipAdd n id s) := by
  unfold Machine.execSipAdd
  refine hs.onProg fun _ _ => .iteFst hs (.iteFst hs.bump.addCounts ?_)
  dsimp only
  split
  · exact hs.sipRead.sipFault
  · with_reducible exact .iteFst hs.sipRead.notePlaces.bump.addCounts hs.sipRead.notePlaces

theorem State.Ok.execSipMod (hs : s.Ok) {n : Fin 216} {id : Nat} : Kept (execSipMod n id s) := hs.onProg fun _ _ => hs

theorem State.Ok.execSipRev (hs : s.Ok) {n : Fin 216} {id : Nat} : Kept (execSipRev n id s) := hs.onProg fun _ _ => hs

theorem State.Ok.execSipRot (hs : s.Ok) {n : Fin 216} {id : Nat} : Kept (execSipRot n id s) := hs.onProg fun _ _ => hs

theorem State.Ok.emitFail (hs : s.Ok) {n : Nat} {e : Emit} {f : SipFault} : (e.fail n s f).s.Ok := hs.sipFault

theorem State.Ok.emitRead {e : Emit} (hs : e.s.Ok) {n : Nat} {a : TD} {m : List Nat} : (e.read n a m).1.s.Ok := by
  unfold Emit.read
  dsimp only
  split
  · exact hs.sipRead.emitFail
  · refine .iteOf (fun r : Emit × _ => r.1.s) ?_ hs.sipRead
    split
    · exact hs.sipRead.sipRead.emitFail
    · refine .iteOf (fun r : Emit × _ => r.1.s) ?_ hs.sipRead.sipRead
      split
      · exact hs.sipRead.sipRead.sipRead.emitFail
      · exact hs.sipRead.sipRead.sipRead

theorem State.Ok.emitWrite {e : Emit} (hs : e.s.Ok) {n : Nat} {b : TD} {m : List Nat} {x : SipEl} :
    (e.write n b m x).s.Ok := by
  unfold Emit.write
  split
  all_goals
    dsimp only
    split
    · exact .emitFail (hs.foldlFst fun _ _ ht => .iteFst ht ht.sipWrite)
    · exact hs.foldlFst fun _ _ ht => .iteFst ht ht.sipWrite

theorem State.Ok.emitDrop {e : Emit} (hs : e.s.Ok) {n : Nat} : (e.drop n).s.Ok := hs.bump.addCounts

theorem State.Ok.emitOob {e : Emit} (hs : e.s.Ok) {n : Nat} {a : TD} : (e.oob n a).1.s.Ok := hs.bump

theorem State.Ok.emitOne {e : Emit} (hs : e.s.Ok) {n : Nat} {pad : Option Nat} {y : List Int} :
    (e.one n pad y).s.Ok := by
  unfold Emit.one
  refine .iteOf Emit.s hs ?_
  extract_lets a b t e' drv lst
  have he' : e'.s.Ok := hs
  refine .iteOf Emit.s ?_ ?_
  · have hdrv : drv.1.s.Ok := by
      unfold drv
      split
      · exact hs
      · exact .iteOf (fun r : Emit × _ => r.1.s) (.emitRead he') (.emitOob he')
    clear_value drv
    split
    · exact hdrv
    · refine .iteOf Emit.s hdrv ?_
      split
      · exact hdrv.emitDrop
      · exact hdrv.emitWrite
  · have hlst : lst.1.s.Ok := by
      unfold lst
      split
      · exact hs
      · split
        · exact hs.emitOob
        · exact hs.emitRead
    clear_value lst
    split
    · exact hlst
    · refine .iteOf Emit.s hlst.emitDrop ?_
      dsimp only
      refine .iteOf Emit.s ?_ (.emitWrite ?_) <;> exact hlst

theorem State.Ok.wrAccesses (hs : s.Ok) {ws : List ElemWrite} : (s.wrAccesses ws).1.Ok :=
  hs.foldlFst fun _ _ ht => ht.wrElems

theorem State.Ok.emitRun (hs : s.Ok) {n : Nat} {pad : Option Nat} {d k : Nat} {t : Transfer} :
    (emitRun n pad d k s t).1.Ok := by
  unfold Machine.emitRun
  extract_lets +onlyGivenNames e ws at_
  have he : e.s.Ok := hs.forUptoOf Emit.s fun _ _ ht => ht.emitOne
  clear_value e
  refine .iteFst hs ?_
  split
  next hp =>
  have hp := State.Ok.of_eq Prod.fst hp (he.foldl fun _ _ ht => ht.poolTouch).notePlaces
  split
  next hw =>
  have hw := State.Ok.of_eq Prod.fst hw hp.wrAccesses
  exact .ite hw.drawn hw

theorem State.Ok.execSipPad (hs : s.Ok) {n : Fin 216} {id : Nat} : Kept (execSipPad n id s) :=
  hs.onProg fun _ _ => hs.emitRun

theorem State.Ok.execSipEmit (hs : s.Ok) {n : Fin 216} {id : Nat} : Kept (execSipEmit n id s) :=
  hs.onProg fun _ _ => hs.emitRun

theorem State.Ok.execSipWaitb (hs : s.Ok) {n : Fin 216} {id : Nat} : Kept (execSipWaitb n id s) := by
  unfold Machine.execSipWaitb
  refine hs.onProg fun _ _ => ?_
  dsimp only
  split
  · next hl => exact (State.Ok.of_eq Prod.fst hl hs.sipXlate).sipFault
  · next hl =>
      have ht := State.Ok.of_eq Prod.fst hl hs.sipXlate
      exact .iteFst ht.sipFault (.iteFst ht.noteRead (.iteFst ht ht.watch))
  · next hl =>
      have ht := State.Ok.of_eq Prod.fst hl hs.sipXlate
      split
      · next hl2 => exact (State.Ok.of_eq Prod.fst hl2 ht.linkTo).sipFault
      · next hl2 => exact (State.Ok.of_eq Prod.fst hl2 ht.linkTo).sendPkt.request

theorem State.Ok.execSipEnd (hs : s.Ok) {n : Fin 216} {id : Nat} : Kept (execSipEnd n id s) := hs.onProg fun _ _ => hs

theorem State.Ok.execTransferComplete (hs : s.Ok) {n : Fin 216} {id : Nat} : Kept (execTransferComplete n id s) := by
  unfold Machine.execTransferComplete
  split
  · exact .next hs
  · exact .ite (.next hs) (.next (.endWork (.onSiph (.ite hs.wr hs))))

theorem State.Ok.execTlbWalkDone (hs : s.Ok) {n : Fin 216} {va : BitVec 48} : Kept (execTlbWalkDone n va s) :=
  .ite (.next hs) (.next hs.sipLookup)

theorem State.Ok.dropTlbs (hs : s.Ok) : s.dropTlbs.Ok := hs.forUpto fun _ _ ht => ht.onSiph

theorem State.Ok.execTlbInv (hs : s.Ok) : Kept (execTlbInv s) := .next hs.dropTlbs

end Sys2Proof.Machine
end

section
/-! Accesses at job virtual addresses keep the invariant. -/

namespace Sys2Proof.Machine
open Sys2Proof

variable {s : State}

theorem State.Ok.vaRead (hs : s.Ok) {root : Word} {eng : Nat} {reach : Reach} {va len : Nat} :
    (s.vaRead root eng reach va len).s.Ok := by
  unfold State.vaRead
  refine hs.foldlOf VaRes.s fun _ _ ht => .iteOf VaRes.s ht ?_
  split
  · exact ht.noteXlat
  · exact ht.noteRead
  · split
    all_goals
      next hl =>
        have ht2 := State.Ok.of_eq Prod.fst hl ht.peerRead
        exact ht2

theorem State.Ok.vaWrite (hs : s.Ok) {root : Word} {eng : Nat} {reach : Reach} {va : Nat} {bs : List Byte} :
    (s.vaWrite root eng reach va bs).s.Ok := by
  unfold State.vaWrite
  refine hs.foldlOf VaRes.s fun _ _ ht => .iteOf VaRes.s ht ?_
  split
  · exact ht.noteXlat
  · exact ht.wr
  · dsimp only
    split
    all_goals
      next hl =>
        have ht2 := State.Ok.of_eq Prod.fst hl ht.peerWrite
        exact ht2

theorem State.Ok.vaElem (hs : s.Ok) {root : Word} {eng : Nat} {reach : Reach} {t : TD} {m : List Nat} :
    (s.vaElem root eng reach t m).1.s.Ok := by
  unfold State.vaElem
  extract_lets x r c also
  have hr : r.s.Ok := hs.vaRead
  have halso {q : VaRes} {va n w : Nat} {b : Prop} [Decidable b] (hq : q.s.Ok) :
      (if b then also q va n else (q, w)).1.s.Ok :=
    .iteOf (fun r : VaRes × Nat => r.1.s) (.iteOf (fun r : VaRes × Nat => r.1.s) hq hq.vaRead) hq
  clear_value also r
  split
  · exact hr
  · split
    next hw =>
    have hr := State.Ok.of_eq (fun r : VaRes × Nat => r.1.s) hw (halso hr)
    split
    next hb =>
    have hr := State.Ok.of_eq (fun r : VaRes × Nat => r.1.s) hb (halso hr)
    split
    next hq =>
    have hr := State.Ok.of_eq (fun r : VaRes × Nat => r.1.s) hq (halso hr)
    split
    next hz => exact State.Ok.of_eq (fun r : VaRes × Nat => r.1.s) hz (halso hr)

theorem State.Ok.vaPut (hs : s.Ok) {root : Word} {eng : Nat} {reach : Reach} {ws : List ElemWrite} :
    (s.vaPut root eng reach ws).s.Ok := by
  unfold State.vaPut
  refine hs.foldlOf VaRes.s fun _ _ ht => .iteOf VaRes.s ht (.iteOf VaRes.s ht.vaWrite ?_)
  split
  · exact ht.noteXlat
  · exact ht.wrElems
  · dsimp only
    split
    all_goals
      next hl =>
        have ht2 := State.Ok.of_eq Prod.fst hl ht.peerWrite
        exact ht2

end Sys2Proof.Machine
end

section
/-! The parameter update engines keep the invariant. -/

namespace Sys2Proof.Machine
open Sys2Proof

variable {s : State}

theorem State.Ok.onUpd (hs : s.Ok) {m : Nat} {f : Upd → Upd} : (s.onUpd m f).Ok := hs

theorem State.Ok.onInv (hs : s.Ok) {m : Nat} {f : Inv → Inv} : (s.onInv m f).Ok := hs.onUpd

theorem State.Ok.loadRow (hs : s.Ok) {step : Word} : (s.loadRow step).Ok :=
  .forUpto (.ite hs hs.noteRead) fun _ _ ht => ht.onUpd

theorem State.Ok.pcRead (hs : s.Ok) {m : Nat} {v : Inv} : (s.pcRead m v).1.s.Ok := hs.vaRead

theorem State.Ok.pcRunRead {x : Pc} (hs : x.s.Ok) {m : Nat} {t : TD} {n : Nat} {at_ : Nat → Nat → Option (List Nat)}
    {k : Nat} : (x.read m t n at_ k).1.s.Ok := by
  unfold Pc.read
  refine .foldlOf (fun r : Pc × _ => r.1.s) hs fun _ _ ht => .foldlOf (fun r : Pc × _ => r.1.s) ht fun _ _ ht2 => ?_
  split
  · exact ht2
  · exact .iteOf (fun r : Pc × _ => r.1.s) ht2 ht2.vaElem

theorem State.Ok.pcRunWrite {x : Pc} (hs : x.s.Ok) {m unit : Nat} {t : TD} {b n : Nat} {key : Option DripKey}
    {a : Mat} : (x.write m unit t b n key a).1.s.Ok :=
  .iteOf (fun r : Pc × _ => r.1.s) hs hs.vaPut.amaxNote.addCounts

theorem State.Ok.pcRunRoot {x : Pc} (hs : x.s.Ok) {m : Nat} {v : Inv} {t : TD} {b n : Nat} {a old : Mat} :
    (x.root m v t b n a old).1.s.Ok := by
  unfold Pc.root
  refine .iteOf (fun r : Pc × _ => r.1.s) hs ?_
  split
  · exact hs.bump.pcRunWrite
  · exact hs.pcRunWrite
  · exact hs.bump

theorem State.Ok.pcBlock {x : Pc} (hs : x.s.Ok) {m : Nat} {v : Inv} {pb : PcBlk} {b : Nat} :
    (pcBlock m v pb b x).s.Ok := by
  unfold Machine.pcBlock
  refine .iteOf Pc.s hs ?_
  extract_lets br bc r c perRow r0 c0 co inner upd due
  split
  next hl =>
  have h1 := State.Ok.of_eq (fun r : Pc × Mat => r.1.s) hl hs.pcRunRead
  extract_lets gb gbt
  split
  next hl =>
  have h2 := State.Ok.of_eq (fun r : Pc × Mat => r.1.s) hl h1.pcRunRead
  split
  next hl =>
  have h3 := State.Ok.of_eq (fun r : Pc × Mat => r.1.s) hl h2.pcRunRead
  split
  next hl =>
  have h4 := State.Ok.of_eq (fun r : Pc × Mat => r.1.s) hl h3.pcRunRead
  split
  next hl =>
  have h5 := State.Ok.of_eq (fun r : Pc × Mat => r.1.s) hl h4.pcRunRead
  split
  next hl =>
  have h6 := State.Ok.of_eq (fun r : Pc × Mat => r.1.s) hl h5.pcRunWrite
  split
  next hl =>
  have h7 := State.Ok.of_eq (fun r : Pc × Mat => r.1.s) hl h6.pcRunWrite
  split
  next hl =>
  have h8 := State.Ok.of_eq (fun r : Pc × Mat => r.1.s) hl (.iteOf (fun r : Pc × Mat => r.1.s) h7.pcRunRoot h7)
  split
  next hl =>
  have h9 := State.Ok.of_eq (fun r : Pc × Mat => r.1.s) hl (.iteOf (fun r : Pc × Mat => r.1.s) h8.pcRunRoot h8)
  exact .iteOf Pc.s h9 h9

theorem State.Ok.updRows (hs : s.Ok) {m : Nat} {v : Inv} : (s.updRows m v).1.s.Ok :=
  .iteOf (fun r : VaRes × _ => r.1.s) hs (.iteOf (fun r : VaRes × _ => r.1.s) hs.vaRead hs.vaRead.vaRead)

theorem State.Ok.catchDelta (hs : s.Ok) {m : Nat} {v : Inv} {row : Nat} : (s.catchDelta m v row).1.s.Ok := hs.vaRead

theorem State.Ok.updRunStop (hs : s.Ok) {r : UpdRun} {c : Code} : (r.stop s c).s.Ok := hs

theorem State.Ok.stateFault (hs : s.Ok) {root : Word} {v : Inv} {co : List Nat} :
    ∀ t ∈ s.stateFault root v co, t.1.Ok := by
  intro t ht
  obtain ⟨va, -, hva⟩ := List.exists_of_findSome?_eq_some ht
  split at hva
  · cases hva
    exact hs.noteXlat
  · cases hva

theorem State.Ok.updRunElem {r : UpdRun} (hs : r.s.Ok) {m : Nat} {gts : List (Nat × F32)} {delta : Nat}
    {co : List Nat} : (r.elem m gts delta co).s.Ok := by
  unfold UpdRun.elem
  refine .iteOf UpdRun.s hs ?_
  extract_lets v t own root rp rg ru rv bad e g decay n s' conv one
  have hrp : rp.1.s.Ok := hs.vaElem
  have hrg : rg.1.s.Ok := hrp.vaElem
  have hru : ru.1.s.Ok := .iteOf (fun r : VaRes × FVal => r.1.s) hrg.vaElem hrg
  have hrv : rv.1.s.Ok := .iteOf (fun r : VaRes × FVal => r.1.s) hru.vaElem hru
  have hs' : s'.Ok := .ite hrv.drawn hrv
  clear_value s' rp rg ru rv
  refine .iteOf UpdRun.s hs ?_
  split
  · exact hrp.updRunStop
  split
  · exact hrg.updRunStop
  split
  · exact hru.updRunStop
  split
  · exact hrv.updRunStop
  split
  split
  · next hf => exact (hs'.stateFault _ hf).updRunStop
  split
  split
  split
  extract_lets w
  have hw : w.s.Ok := hs'.vaPut
  split
  · exact hw.updRunStop
  · exact .ite hw.bump.bump.addCounts hw.bump.bump.addCounts.bump

theorem State.Ok.updRunRow {r : UpdRun} (hs : r.s.Ok) {m : Nat} {gts : List (Nat × F32)} {row : Nat} :
    (r.row m gts row).s.Ok := by
  unfold UpdRun.row
  refine .iteOf UpdRun.s hs (.iteOf UpdRun.s hs ?_)
  split
  · dsimp only
    split
    · exact hs.catchDelta.updRunStop
    · exact hs.catchDelta.foldlOf UpdRun.s fun _ _ ht => ht.updRunElem
  · exact .foldlOf UpdRun.s hs fun _ _ ht => .updRunElem ht

theorem State.Ok.writeState (hs : s.Ok) {m : Nat} {v : Inv} {t : TD} {vals : List (Nat × F32)} :
    (s.writeState m v t vals).1.Ok := by
  unfold State.writeState
  refine .foldlFst hs fun _ _ hr => ?_
  split
  extract_lets members got
  have hgot : got.1.Ok := by
    refine .foldlFst hr fun _ _ ht => ?_
    split
    · exact ht
    · exact ht.vaElem
  clear_value got
  exact hgot.vaPut.addCounts

theorem State.Ok.writeStamps (hs : s.Ok) {m : Nat} {v : Inv} {rows : List Nat} : (s.writeStamps m v rows).1.Ok :=
  hs.foldlFst fun _ _ ht => .ite ht.catchDelta.vaWrite ht.catchDelta.vaWrite.bump

theorem State.Ok.clearList (hs : s.Ok) {m : Nat} {v : Inv} : (s.clearList m v).1.Ok :=
  .iteFst hs.vaRead hs.vaRead.vaWrite

theorem State.Ok.endUpd (hs : s.Ok) {unit work : Nat} : (s.endUpd unit work).Ok := by
  unfold State.endUpd
  extract_lets +onlyGivenNames ps
  clear_value ps
  split
  · exact hs
  · extract_lets ran c news
    split
    next hl =>
    refine (fun h => .endWork (.foldl h fun _ _ ht => ht.onUpd)) (State.Ok.of_eq Prod.fst hl (.iteFst hs ?_))
    split
    next hu =>
    have h1 := State.Ok.of_eq Prod.fst hu hs.writeState
    split
    next hv =>
    have h2 := State.Ok.of_eq Prod.fst hv h1.writeState
    split
    next hst =>
    have h3 := State.Ok.of_eq Prod.fst hst (.iteFst h2.writeStamps h2)
    split
    next hc =>
    have h4 := State.Ok.of_eq Prod.fst hc (.iteFst h3.clearList h3)
    exact h4

theorem State.Ok.checkUpd (hs : s.Ok) {unit work mask : Nat} : (s.checkUpd unit work mask).Ok := .ite hs.endUpd hs

theorem State.Ok.execUpd (hs : s.Ok) {w : Issue} {fd : SReg} {a1 : AReg} {opt : Opt} : Kept (execUpd w fd a1 opt s) :=
  hs.issueTensor fun _ _ ht => ht

theorem State.Ok.switchAll (hs : s.Ok) {u : Nat} : (s.switchAll u).Ok := hs

theorem State.Ok.takeInv (hs : s.Ok) {m : Nat} {v : Inv} : (s.takeInv m v).Ok := by
  unfold State.takeInv
  refine .onUpd ?_
  exact hs

theorem State.Ok.execUpdEngineStart (hs : s.Ok) {m : Fin 16} {n : Fin 4} : Kept (execUpdEngineStart m n s) := by
  unfold Machine.execUpdEngineStart
  refine .ite (.next hs) ?_
  split
  · exact .next hs
  · refine .ite (.next hs) ?_
    extract_lets +onlyGivenNames t i a placed bad cfg begun row v it def_ v' t' stop refuse
    have ht : t'.Ok := .runWork (.ite hs.switchAll.noteRead hs.switchAll)
    have hstop {x : State} {k : Code} (hx : x.Ok) : Kept (stop x k) := .next hx.onUpd.checkUpd
    have hrefuse {x : State} (hx : x.Ok) : Kept (refuse x) := .ite (hstop hx) (.next hx.endWork)
    clear_value stop refuse t'
    refine .ite (hstop ht) (.ite (hrefuse ht) (.ite ?_ (.next ht.takeInv)))
    split
    next hr =>
    have hr := State.Ok.of_eq (fun r : VaRes × _ => r.1.s) hr ht.pcRead
    exact .ite (hstop hr) (.ite (hrefuse hr) (.next hr.takeInv))

/-- A change of one chamber's generation changes what reads within its window alone. -/
theorem unlistedAt_congr_chamber {mg cg cg' : SMap Nat} {c a : Nat}
    (hg : ∀ k ≠ c, SMap.get 0 cg k = SMap.get 0 cg' k)
    (ha : ¬ (chamberBase c + 0x2_0000 ≤ a ∧ a < chamberBase c + 0x20_0000)) : unlistedAt mg cg a = unlistedAt mg cg' a := by
  unfold unlistedAt State.unlisted
  split
  · rfl
  · split
    · next hw =>
      have hne : (a - 0x2000_0000_0000) / 0x40_0000 ≠ c := by
        unfold chamberBase at ha
        omega
      simp only [hg _ hne]
    · rfl

theorem State.Ok.undefChamber (hs : s.Ok) {c : Nat} : (s.undefChamber c).Ok := by
  unfold State.Ok State.undefChamber State.drawn
  dsimp only
  refine (hs.dropPoison _).dropCells fun a ha =>
    unlistedAt_congr_chamber (fun _ hk => (SMap.get_put_ne _ _ _ _ _ _ hk).symm) ?_
  simp only [Bool.not_eq_true', Bool.and_eq_false_iff, decide_eq_false_iff_not] at ha
  omega

theorem State.Ok.execUpdPhase1Start (hs : s.Ok) {m : Fin 16} : Kept (execUpdPhase1Start m s) := by
  unfold Machine.execUpdPhase1Start
  split
  · exact .next hs
  · refine .ite (.next hs) ?_
    extract_lets +onlyGivenNames g cores
    clear_value cores
    refine .ite (.next hs) (.ite (.next hs.onInv) ?_)
    split
    next hr =>
    have hr := State.Ok.of_eq (fun r : VaRes × _ => r.1.s) hr hs.pcRead
    extract_lets nb x t
    have hx : x.s.Ok := .forUptoOf Pc.s hr fun _ _ ht => .iteOf Pc.s ht.pcBlock ht
    exact .next (.onInv (hx.foldl fun _ _ ht => ht.undefChamber))

theorem State.Ok.execUpdEngineDone (hs : s.Ok) {m : Fin 16} : Kept (execUpdEngineDone m s) := by
  unfold Machine.execUpdEngineDone
  split
  · exact .next hs
  · refine .ite (.next hs) (.ite (.next hs.checkUpd) (.next (.checkUpd (.onInv (.ite (.drawn ?_) ?_)))))
    all_goals
      split
      · exact hs.updRows
      · exact hs.updRows.foldlOf UpdRun.s fun _ _ ht => ht.updRunRow

end Sys2Proof.Machine
end

section
/-! Commands, queues, launches and pools keep the invariant. -/

namespace Sys2Proof.Machine
open Sys2Proof

variable {s : State}

theorem State.Ok.stopQueue (hs : s.Ok) {q reason : Nat} : (s.stopQueue q reason).Ok := .ite hs hs.setFld.setFld

theorem State.Ok.ringErr (hs : s.Ok) : s.ringErr.Ok := hs.bump

theorem State.Ok.execSqDoorbell (hs : s.Ok) {q : Fin 64} {t : BitVec 32} : Kept (execSqDoorbell q t s) :=
  .ite (.next hs) (.ite (.next hs.ringErr) (.ite (.next hs.stopQueue.ringErr) (.next hs.setFld)))

theorem State.Ok.cancelUnstarted (hs : s.Ok) {q idx : Nat} : (s.cancelUnstarted q idx).Ok := hs.drawn.finishCmd

theorem State.Ok.retireDue (hs : s.Ok) {q : Nat} : (s.retireDue q).Ok := hs

theorem State.Ok.fetch (hs : s.Ok) {q : Nat} : (s.fetch q).Ok := by
  unfold State.fetch
  extract_lets +onlyGivenNames cfg i a
  refine .ite hs.stopQueue (.ite hs.noteAccessFail.stopQueue (.ite hs (.ite hs.noteRead.stopQueue ?_)))
  extract_lets c t1 t2 t3
  have h2 : t2.Ok := by
    refine .setFld ?_
    exact hs
  have h3 : t3.Ok := by
    refine .cancelUnstarted ?_
    exact h2
  exact .ite (.ite h3.retireDue h3) h2

theorem State.Ok.execCommandFetch (hs : s.Ok) {n : Fin 4} : Kept (execCommandFetch n s) := by
  unfold Machine.execCommandFetch
  refine .ite (.next hs) ?_
  split
  · exact .next hs
  · refine .ite (.next hs.stopQueue) (.next (.fetch ?_))
    exact hs

theorem State.Ok.onCmd (hs : s.Ok) {q idx : Nat} {f : Cmd → Cmd} : (s.onCmd q idx f).Ok := hs

theorem State.Ok.execCommandStart (hs : s.Ok) {q : Fin 64} : Kept (execCommandStart q s) := by
  unfold Machine.execCommandStart
  split
  · exact .next hs
  · exact .ite (.next hs) (.ite (.next hs.onCmd) (.next hs.onCmd.finishCmd))

theorem State.Ok.endCmd (hs : s.Ok) {c : Cmd} {code : Code} {info : Nat} : (s.endCmd c code info).Ok := hs.finishCmd

theorem State.Ok.execCmdNop (hs : s.Ok) {q : Fin 64} {idx : BitVec 32} : Kept (execCmdNop q idx s) := by
  unfold Machine.execCmdNop
  split
  · exact .next hs
  · exact .next hs.endCmd

theorem State.Ok.localRead (hs : s.Ok) {a n : Nat} : (s.localRead a n).1.Ok := by
  unfold State.localRead
  split
  · exact hs.noteAccessFail
  · split
    · exact hs.noteAccessFail
    · exact hs.noteRead

theorem State.Ok.cursors (hs : s.Ok) {n : Nat} : (s.cursors n).Ok :=
  .ite hs (hs.forUpto fun _ _ ht => .ite ht ht.wrLE.wrLE)

theorem State.Ok.execProg (hs : s.Ok) {q : Fin 64} {idx : BitVec 32} : Kept (execProg q idx s) := by
  unfold Machine.execProg
  split
  · exact .next hs
  · refine .ite (.next hs) (.ite (.next (.endCmd ?_)) (.next (.cursors (.loadRow (.onSeq (.onCmd ?_))))))
    all_goals exact .iteFst hs hs.localRead

theorem State.Ok.launchOn (hs : s.Ok) {by_ : Launcher} {b : List Byte} {step : Word} {cores : List Nat} :
    (s.launchOn by_ b step cores).Ok := by
  unfold State.launchOn
  refine hs.foldl fun _ _ ht => .ite (.startNext ?_) ?_ <;> exact ht

theorem State.Ok.startRun (hs : s.Ok) {u : SeqId} {w : Work} : (s.startRun u w).2.Ok := by
  unfold State.startRun
  refine .iteSnd hs ?_
  split
  · exact hs
  · with_reducible exact .iteSnd hs hs.launchOn

theorem State.Ok.execRun (hs : s.Ok) {w : Issue} {fd : SReg} {a1 : AReg} : Kept (execRun w fd a1 s) :=
  hs.issueTensor fun _ _ ht => .iteSnd ht.withBlock.startRun ht.withBlock

theorem State.Ok.startRuns (hs : s.Ok) {u : SeqId} : (s.startRuns u).Ok := by
  unfold State.startRuns
  refine hs.foldl fun _ _ ht => ?_
  split
  · exact .ite ht.startRun.onSeq ht
  · exact ht

theorem State.Ok.execCores (hs : s.Ok) {q : Fin 64} {idx : BitVec 32} : Kept (execCores q idx s) := by
  unfold Machine.execCores
  split
  · exact .next hs
  · exact .ite (.next hs) (.ite (.next hs.endCmd) (.ite (.next hs.onCmd.endCmd) (.next hs.onCmd.launchOn)))

theorem State.Ok.copyOne {x : Copy} (hs : x.s.Ok) {sip src dst i : Nat} : (x.one sip src dst i).s.Ok := by
  unfold Copy.one
  refine .iteOf Copy.s hs ?_
  dsimp only
  split
  · exact .ite hs.noteAccessFail.recordFirst hs.noteAccessFail.recordFirst.setReg
  · split
    · exact .ite hs.noteAccessFail.recordFirst hs.noteAccessFail.recordFirst.setReg
    · exact hs.noteRead.wr

theorem State.Ok.execCopy (hs : s.Ok) {q : Fin 64} {idx : BitVec 32} : Kept (execCopy q idx s) := by
  unfold Machine.execCopy
  split
  · exact .next hs
  · refine .ite (.next hs.endCmd) (.ite (.next hs) (.next (.endCmd ?_)))
    exact hs.poolTouch.poolTouch.forUptoOf Copy.s fun _ _ ht => ht.copyOne

theorem State.Ok.setPool (hs : s.Ok) {p : Nat} {x : Pool} : (s.setPool p x).Ok := hs

/-! The rules of an optional state and of a pick from a list of states. -/

theorem State.Ok.of_some {o : Option State} {t : State} (hl : o = some t) (h : ∀ t ∈ o, t.Ok) : t.Ok := h t hl

theorem State.Ok.memSome {t : State} (h : t.Ok) : ∀ u ∈ some t, u.Ok := by
  rintro _ ⟨⟩
  exact h

theorem State.Ok.memNone : ∀ u ∈ (none : Option State), u.Ok := by rintro _ ⟨⟩

theorem State.Ok.getD {l : List State} (hl : ∀ t ∈ l, t.Ok) {i : Nat} (hs : s.Ok) : (l.getD i s).Ok := by
  rw [List.getD_eq_getElem?_getD]
  cases hx : l[i]? with
  | none => exact hs
  | some t => exact hl t (List.mem_of_getElem? hx)

theorem State.Ok.poolAct (hs : s.Ok) {p : Nat} {x : Nat × Work} : ∀ t ∈ s.poolAct p x, t.Ok := by
  unfold State.poolAct
  split
  extract_lets su pl a
  split
  · exact memNone
  split
  · split
    · exact memSome hs.wrLE.endWork
    · split
      · exact memSome (.endWork (.wr hs.setPool))
      · split
        · exact memNone
        · exact memSome hs.wrLE.endWork
  · split
    · exact memSome hs.noteRead.endWork
    split
    · exact memSome hs.endWork
    split
    · exact memSome hs.endWork
    split
    · exact memSome (.endWork hs.setPool)
    · exact memNone

/-- Whatever waits at a pool, what it can do now keeps the invariant. -/
theorem State.Ok.poolActs (hs : s.Ok) {p : Nat} {l : List (Nat × Work)} : ∀ t ∈ l.filterMap (s.poolAct p), t.Ok := by
  intro t ht
  obtain ⟨x, -, hx⟩ := List.mem_filterMap.mp ht
  exact hs.poolAct t hx

theorem State.Ok.poolRun (hs : s.Ok) {p n : Nat} : (s.poolRun p n).Ok := by
  induction n generalizing s with
  | zero => exact hs
  | succ n ih =>
    have hacts := hs.poolActs (p := p) (l := s.poolWaits p)
    unfold State.poolRun
    split
    · exact hs
    · next hl => exact ih (hacts _ (by simp [hl]))
    · next hl => exact ih (.getD hs.drawn.poolActs (hacts _ (by simp [hl])))

theorem State.Ok.poolService (hs : s.Ok) {p : Nat} : (s.poolService p).Ok := hs.poolRun

theorem State.Ok.poolsService (hs : s.Ok) : s.poolsService.Ok := by
  unfold State.poolsService
  exact hs.forUpto fun _ _ ht => ht.poolService

/-- A function that keeps the invariant may follow a command that keeps it. -/
theorem Kept.andThen {o : Out} (ho : Kept o) {f : State → State} (hf : ∀ t, t.Ok → (f t).Ok) :
    Kept (andThen o f) := by
  cases o with
  | next t => exact .next (hf t (ho t rfl))
  | _ => exact ho

theorem Kept.onIssue {o : Out} (ho : Kept o) {u : SeqId} {f : State → State} (hf : ∀ t, t.Ok → (f t).Ok) :
    Kept (onIssue u s o f) := ho.andThen fun _ ht => .ite (hf _ ht) ht

theorem State.Ok.withBuffer (hs : s.Ok) {u : SeqId} {a1 : AReg} {k : Work} : (withBuffer u a1 k s).2.Ok := hs

theorem State.Ok.execPoolTake (hs : s.Ok) {w : Issue} {fd : SReg} {a1 : AReg} {pool : BitVec 4} :
    Kept (execPoolTake w fd a1 pool s) :=
  (hs.issueTensor fun _ _ ht => ht.withBuffer).onIssue fun _ ht => ht.poolService

theorem State.Ok.execPoolPut (hs : s.Ok) {w : Issue} {fd : SReg} {a1 : AReg} {pool : BitVec 4} :
    Kept (execPoolPut w fd a1 pool s) :=
  (hs.issueTensor fun _ _ ht => ht.withBuffer).onIssue fun _ ht => ht.poolService

theorem State.Ok.execPoolOpen (hs : s.Ok) {q : Fin 64} {idx : BitVec 32} : Kept (execPoolOpen q idx s) := by
  unfold Machine.execPoolOpen
  split
  · exact .next hs
  · exact .next hs.setPool.poolService.endCmd

theorem State.Ok.execPoolClose (hs : s.Ok) {q : Fin 64} {idx : BitVec 32} : Kept (execPoolClose q idx s) := by
  unfold Machine.execPoolClose
  split
  · exact .next hs
  · exact .next hs.setPool.poolService.endCmd

theorem State.Ok.execPoolDiscard (hs : s.Ok) {q : Fin 64} {idx : BitVec 32} : Kept (execPoolDiscard q idx s) := by
  unfold Machine.execPoolDiscard
  split
  · exact .next hs
  · exact .next hs.setPool.poolService.endCmd

theorem State.Ok.digest (hs : s.Ok) : s.digest.Ok :=
  .ite (hs.forUpto fun _ _ ht => ht.drawn.setReg) (hs.forUpto fun _ _ ht => ht.setReg)

theorem State.Ok.commitAll (hs : s.Ok) : s.commitAll.Ok := hs.commit.digest.recheck

theorem State.Ok.execCommitCmd (hs : s.Ok) {q : Fin 64} {idx : BitVec 32} : Kept (execCommitCmd q idx s) := by
  unfold Machine.execCommitCmd
  split
  · exact .next hs
  · exact .ite (.next (.endCmd (.ite hs hs.commitAll.onCmd))) (.next (.ite hs hs.commitAll.onCmd))

theorem State.Ok.execCommit (hs : s.Ok) {w : Issue} {fd : SReg} : Kept (execCommit w fd s) :=
  hs.issue fun _ ht => .ite ht.seqFault ht.commitAll.onSeq.adv

theorem State.Ok.execFenceCfg (hs : s.Ok) {w : Issue} {r1 : SReg} : Kept (execFenceCfg w r1 s) :=
  hs.issueWhen (fun _ ht => ht) fun _ ht => .ite ht.seqFault ht.adv

theorem State.Ok.execCompletionRecordWrite (hs : s.Ok) {cq : Fin 64} : Kept (execCompletionRecordWrite cq s) := by
  unfold Machine.execCompletionRecordWrite
  dsimp only
  split
  · exact .next hs
  · refine .ite (.next hs) (.ite (.next (.setFld ?_)) (.ite (.next (.msix ?_)) (.next ?_)))
    · exact hs.wr.wr
    · exact .setFld hs.wr.wr
    · exact .setFld hs.wr.wr

theorem State.Ok.execCqHeadWrite (hs : s.Ok) {q : Fin 64} {v : Word} : Kept (execCqHeadWrite q v s) :=
  .ite (.next hs) (hs.writeReg fun _ _ ht => .ite (.next ht.ringErr) (.next ht.storeReg))

theorem State.Ok.execSqCfgWrite (hs : s.Ok) {q : Fin 64} {v : Word} : Kept (execSqCfgWrite q v s) :=
  .ite (.next hs) (hs.writeReg fun _ _ ht => .ite (.next ht.storeReg.setFld.setFld) (.next ht.storeReg))

theorem State.Ok.execCqCfgWrite (hs : s.Ok) {q : Fin 64} {v : Word} : Kept (execCqCfgWrite q v s) := by
  refine .ite (.next hs) (hs.writeReg fun _ _ ht => .ite (.next ?_) (.next ht.storeReg))
  exact ht.storeReg.forUpto fun _ _ ht2 => .ite ht2.stopQueue ht2

end Sys2Proof.Machine
end

section
/-! Cascade links and the remote requests over them keep the invariant. -/

namespace Sys2Proof.Machine
open Sys2Proof

variable {s : State}

theorem State.Ok.failReq (hs : s.Ok) {c : Code} {r : Req} : (s.failReq c r).Ok := by
  unfold State.failReq
  dsimp only
  split
  · refine .endWork ?_
    exact hs
  · split
    · refine .seqFault ?_
      exact hs
    · exact hs
  · refine .onSiph ?_
    exact hs
  · refine .wakeX ?_
    exact hs
  · exact hs
  · refine .ite (.seqFault ?_) ?_ <;> exact hs
  · split
    · refine .onSiph (.sipFault ?_)
      exact hs
    · exact hs

theorem State.Ok.failReqs (hs : s.Ok) {c : Code} {f : Req → Bool} : (s.failReqs c f).Ok :=
  hs.foldl fun _ _ ht => ht.failReq

theorem State.Ok.setDropped (hs : s.Ok) {d : Nat} {on : Bool} : (s.setDropped d on).Ok := .ite hs hs.putByte

theorem State.Ok.checkHeld (hs : s.Ok) : s.checkHeld.Ok := .ite hs.setFld hs

theorem State.Ok.applyDrop (hs : s.Ok) {f st : Nat} : (s.applyDrop f st).Ok := by
  unfold State.applyDrop
  refine .checkHeld (.failReqs (.loseTo ?_))
  exact hs.setDropped.recordFirst

theorem State.Ok.dropDev (hs : s.Ok) {f : Nat} : (s.dropDev f).Ok := hs.notifyAll.applyDrop

theorem State.Ok.lostReport (hs : s.Ok) {f reporter : Nat} : (s.lostReport f reporter).Ok :=
  .ite hs (.ite hs.dropDev (.ite hs hs.setReg))

theorem State.Ok.reportLost (hs : s.Ok) {f : Nat} : (s.reportLost f).Ok := .ite hs.lostReport hs.notify

theorem State.Ok.afterGone (hs : s.Ok) {l : Nat} : (s.afterGone l).Ok :=
  have h := (hs.foldl fun _ _ ht => ht.loseTo).foldl fun _ _ ht => ht.reportLost
  .ite h.setFld h

theorem State.Ok.answerTo (hs : s.Ok) {src a tag kind code : Nat} {body : List Byte} :
    (s.answerTo src a tag kind code body).Ok := by
  unfold State.answerTo
  split
  · next hl =>
      have ht := State.Ok.of_eq Prod.fst hl hs.linkTo
      exact ht
  · next hl => exact (State.Ok.of_eq Prod.fst hl hs.linkTo).sendOn

theorem State.Ok.returnBack (hs : s.Ok) {p : Packet} : (s.returnBack p).Ok := .ite hs.answerTo hs

theorem State.Ok.losePacket (hs : s.Ok) {p : Packet} : (s.losePacket p).Ok :=
  .ite (.ite hs hs.returnBack) (.ite (.ite hs.loseBatchTo hs) (.ite hs (.ite hs hs.answerTo)))

theorem State.Ok.dropPackets (hs : s.Ok) {l : Nat} : (s.dropPackets l).Ok :=
  hs.onLink.foldl fun _ _ ht => ht.losePacket

theorem State.Ok.loseLink (hs : s.Ok) {l : Nat} : (s.loseLink l).Ok :=
  .ite hs hs.setFld.setFld.setFld.dropPackets.bump.event.failReqs.afterGone.retrainOver

theorem State.Ok.sendHello (hs : s.Ok) {l : Nat} : (s.sendHello l).Ok := hs.send

theorem State.Ok.askReport (hs : s.Ok) {l : Nat} : (s.askReport l).Ok := by
  unfold State.askReport
  refine .sendManage (.onLink ?_)
  exact hs

theorem State.Ok.execLinkTrained (hs : s.Ok) {l : Fin 12} {w : Fin 3} : Kept (execLinkTrained l w s) :=
  .ite (.next hs) (.next hs.setFld.setFld.setFld.onLink.sendHello)

theorem State.Ok.execHelloReceive (hs : s.Ok) {l : Fin 12} {h : Hello} : Kept (execHelloReceive l h s) :=
  have h1 := hs.setFld.setReg.onLink
  have h2 := State.Ok.ite h1.setFld h1
  have h3 := State.Ok.ite h2.askReport h2
  .ite (.next hs) (.ite (.next hs.loseLink) (.ite (.next h3.pump) (.next h3.settle)))

theorem State.Ok.beginRetrain (hs : s.Ok) {l : Nat} {asked : Bool} : (s.beginRetrain l asked).Ok :=
  .ite hs.onLink.setFld hs

theorem State.Ok.execLinkRetrain (hs : s.Ok) {l : Fin 12} {w : Option (Fin 3)} : Kept (execLinkRetrain l w s) := by
  unfold Machine.execLinkRetrain
  refine .ite (.next hs) ?_
  split
  · exact .next hs.loseLink
  · exact .next (.retrainOver (.sendHello (.sendFrames (.onLink (.setFld (.ite hs.bump hs))))))

theorem State.Ok.execLinkLoss (hs : s.Ok) {l : Fin 12} : Kept (execLinkLoss l s) := .next hs.loseLink

theorem State.Ok.execLinkCfgWrite (hs : s.Ok) {l : Fin 12} {v : Word} : Kept (execLinkCfgWrite l v s) := by
  refine .ite (.next hs) (hs.writeReg fun _ _ ht => ?_)
  exact .ite (.next (.ite ht.storeReg.setFld ht.storeReg)) (.next ht.storeReg.loseLink.setFld)

theorem State.Ok.execLinkExclude (hs : s.Ok) {l : Fin 12} : Kept (execLinkExclude l s) :=
  .ite (.next hs) (.next hs.setFld.setFld.dropPackets.failReqs.afterGone)

theorem State.Ok.execLinkRecheck (hs : s.Ok) {l : Fin 12} : Kept (execLinkRecheck l s) :=
  .ite (.next hs.sendHello.askReport.settle) (.next hs)

theorem State.Ok.execLinkRetrainRequest (hs : s.Ok) {l : Fin 12} : Kept (execLinkRetrainRequest l s) :=
  .next hs.beginRetrain

theorem State.Ok.sendAck (hs : s.Ok) {l : Nat} {nak : Bool} : (s.sendAck l nak).Ok := hs.send

theorem State.Ok.relay (hs : s.Ok) {p : Packet} : (s.relay p).Ok := by
  unfold State.relay
  split
  · exact hs.bump.returnBack
  · exact .ite hs.bump.returnBack (.ite hs.returnBack hs.sendOn)

theorem State.Ok.arrive (hs : s.Ok) {l : Nat} {p : Packet} : (s.arrive l p).Ok := .ite hs.onLink hs.relay

theorem State.Ok.takeIn (hs : s.Ok) {l : Nat} {f : Packet → Bool} : ∀ t ∈ s.takeIn l f, t.Ok := by
  unfold State.takeIn
  dsimp only
  split
  · exact memNone
  · split
    · exact memNone
    · exact memSome hs.onLink

theorem State.Ok.takeAny (hs : s.Ok) {f : Packet → Bool} : ∀ t ∈ s.takeAny f, t.Ok := by
  intro t ht
  obtain ⟨l, -, hl⟩ := List.exists_of_findSome?_eq_some ht
  exact hs.takeIn t hl

theorem State.Ok.takeNote (hs : s.Ok) {src : Nat} {kind : String} {body : List Nat} :
    ∀ t ∈ s.takeNote src kind body, t.Ok := hs.takeAny

theorem State.Ok.execDataFrameReceive (hs : s.Ok) {l : Fin 12} {body : List (BitVec 8)} {w : BitVec 32} {fec : Ecc} :
    Kept (execDataFrameReceive l body w fec s) := by
  unfold Machine.execDataFrameReceive
  extract_lets +onlyGivenNames k type seq
  refine .ite (.next hs) ?_
  extract_lets +onlyGivenNames t sound
  have ht : t.Ok := by
    cases fec with
    | clean => exact hs
    | corrected => exact hs.bump
    | uncorrectable => exact hs.bump
  clear_value t
  refine .ite (.next ht) (.ite ?_ (.ite (.next ht) (.next ht.onLink.sendAck)))
  split
  exact .next (ht.onLink.sendAck.foldl fun _ _ ht => ht.arrive)

theorem State.Ok.execControlFrameReceive (hs : s.Ok) {l : Fin 12} {ack : BitVec 12} {nak : Bool} :
    Kept (execControlFrameReceive l ack nak s) := by
  unfold Machine.execControlFrameReceive
  dsimp only
  split
  · exact .next hs
  · refine .ite (.next hs) (.ite (.next hs) (.ite (.next hs.onLink.pump) (.next (.ite (.beginRetrain ?_) (.pump ?_)))))
    all_goals exact hs.onLink.onLink.bump.sendFrames

theorem State.Ok.execPeerReportVerify (hs : s.Ok) {l : Fin 12} {report dev mid root : List (BitVec 8)} {other : Bool}
    : Kept (execPeerReportVerify l report dev mid root other s) :=
  .ite (.next hs) (.ite (.next hs.onLink.settle) (.ite (.next hs) (.next hs.onLink.settle)))

theorem State.Ok.execQuarantineReport (hs : s.Ok) {reporter : BitVec 12} {l : Fin 12} {peer : BitVec 12}
    {reason : BitVec 4} : Kept (execQuarantineReport reporter l peer reason s) := by
  unfold Machine.execQuarantineReport
  refine .ite (.next hs) ?_
  split
  · next hl => exact .next (State.Ok.of_some hl hs.takeNote).recordQlog
  · exact .next hs

theorem State.Ok.answer (hs : s.Ok) {r : Remote} {kind code : Nat} {body : List Byte} :
    (s.answer r kind code body).Ok :=
  hs.answerTo

theorem State.Ok.serveRemote (hs : s.Ok) {l : Fin 12} {r : Remote} : (s.serveRemote l r).Ok := by
  unfold State.serveRemote
  dsimp only
  split
  · exact .ite hs.noteRead.answer hs.answer
  · exact hs.wr.answer
  · exact .ite hs.answer (.ite hs.arriveAt.answer hs.arriveAt.answer)
  · exact .ite hs.answer (.ite hs.noteRead.answer (.ite hs.answer hs.watch))
  · exact .ite hs.wr hs
  · exact hs.commitAll

theorem State.Ok.execRemoteRequest (hs : s.Ok) {l : Fin 12} {r : Remote} : Kept (execRemoteRequest l r s) := by
  unfold Machine.execRemoteRequest
  refine .ite (.next hs) (.ite (.next hs) ?_)
  split
  · exact .next hs
  · next hl =>
      have ht := State.Ok.of_some hl hs.takeIn
      refine .ite (.next ht.relay) (.ite (.next (.ite ht.serveRemote ht)) ?_)
      split
      · exact .next ht.answer
      · exact .next ht.poolTouch.serveRemote

theorem State.Ok.execRemoteResponse (hs : s.Ok) {tag : BitVec 16} {r : RemoteAns} :
    Kept (execRemoteResponse tag r s) := by
  unfold Machine.execRemoteResponse
  split
  · exact .next hs
  · next hl =>
      have ht := State.Ok.of_some hl hs.takeAny
      split
      · exact .next ht
      · split
        · exact .next ht.failReq
        · dsimp only
          split
          · refine .next (.endWork ?_)
            exact ht
          · refine .next (.release ?_)
            exact ht
          · exact .next ht

theorem State.Ok.execGstepNotice (hs : s.Ok) {step : Word} : Kept (execGstepNotice step s) := by
  unfold Machine.execGstepNotice
  refine .ite (.next hs) ?_
  split
  · next hl => exact .next (State.Ok.of_some hl hs.takeNote).setReg
  · exact .next hs

theorem State.Ok.execLostReport (hs : s.Ok) {f reporter : BitVec 12} : Kept (execLostReport f reporter s) := by
  unfold Machine.execLostReport
  split
  · next hl => exact .next (State.Ok.of_some hl hs.takeNote).lostReport
  · exact .next hs

theorem State.Ok.execRslDrop (hs : s.Ok) {v : Word} : Kept (execRslDrop v s) :=
  .ite (.next hs) (hs.writeReg fun _ _ ht => .ite (.next ht.dropDev) (.next ht))

theorem State.Ok.execDropNotice (hs : s.Ok) {f : BitVec 12} {st : Word} : Kept (execDropNotice f st s) := by
  unfold Machine.execDropNotice
  refine .ite (.next hs) ?_
  split
  · next hl => exact .next (State.Ok.of_some hl hs.takeNote).applyDrop
  · exact .next hs

end Sys2Proof.Machine
end

section
/-! The sparse engine's instructions keep the invariant. -/

namespace Sys2Proof.Machine
open Sys2Proof

variable {s : State}

theorem State.Ok.putRows (hs : s.Ok) {t : TD} {rows : List (List (List Nat × Nat) × List ElemWrite)} :
    (s.putRows t rows).1.Ok :=
  hs.wrCode

theorem State.Ok.readOperands (hs : s.Ok) {ts : List TD} : (s.readOperands ts).1.Ok :=
  hs.foldl fun _ _ ht => ht.noteOperand

theorem State.Ok.doGth {v : State} (hs : s.Ok) {c : Nat} {a b idx : TD} : (s.doGth v c a b idx).1.Ok := by
  unfold State.doGth
  refine .iteFst hs ?_
  extract_lets +onlyGivenNames rows
  clear_value rows
  extract_lets +onlyGivenNames n limit
  clear_value n limit
  obtain ⟨reads, coal⟩ := gatherReads _
  extract_lets
  clear_value *
  split
  split
  next hk =>
  have hr := State.Ok.of_eq Prod.fst hk hs.readOperands
  split
  next hw =>
  have hw := State.Ok.of_eq Prod.fst hw hr.putRows
  exact .bump (.bump (.noteDrops (.ite hw.drawn hw)))

theorem State.Ok.doSct {v : State} (hs : s.Ok) {c : Nat} {a b idx : TD} : (s.doSct v c a b idx).1.Ok :=
  .iteFst hs hs.readOperands.putRows.noteDrops

theorem State.Ok.doSca {v : State} (hs : s.Ok) {c : Nat} {a b idx : TD} {sr : Bool} :
    (s.doSca v c a b idx sr).1.Ok := by
  unfold State.doSca
  refine .iteFst hs ?_
  extract_lets
  clear_value *
  split
  next hk =>
  have hr := State.Ok.of_eq Prod.fst hk hs.readOperands
  split
  next hw =>
  have hw := State.Ok.of_eq Prod.fst hw hr.wrCode
  exact .noteEvents (.noteDrops (.iteFst hw.amaxNote.touch hw.amaxNote))

theorem State.Ok.putMatches (hs : s.Ok) {c : Nat} {ops : List TD} {out : TD} {word : Nat}
    {ms : List (Int × Nat × Nat)} : (s.putMatches c ops out word ms).1.Ok :=
  hs.readOperands.wrCode.bump.noteDrops

theorem State.Ok.doMrgMerge {v : State} (hs : s.Ok) {c : Nat} {a b out : TD} {word : Nat} :
    (s.doMrgMerge v c a b out word).1.Ok :=
  .iteFst hs hs.putMatches

theorem State.Ok.doMrgBitmap {v : State} (hs : s.Ok) {c : Nat} {a b out : TD} {word : Nat} :
    (s.doMrgBitmap v c a b out word).1.Ok :=
  .iteFst hs hs.putMatches

theorem State.Ok.doTopk {v : State} (hs : s.Ok) {c : Nat} {sc oi ov : TD} {bias : Option TD} {k : Nat} :
    (s.doTopk v c sc oi ov bias k).1.Ok :=
  .iteFst hs hs.readOperands.wrCode

theorem State.Ok.doSeg {v : State} (hs : s.Ok) {c : Nat} {a out off : TD} {op : Nat} :
    (s.doSeg v c a out off op).1.Ok :=
  .iteFst hs hs.readOperands.wrCode.noteDrops

theorem State.Ok.writeNm (hs : s.Ok) {t : TD} {o : List Nat} {n1 : Bool} {grp : Nat → Nat → Nat → NmGroup} :
    (s.writeNm t o n1 grp).1.Ok :=
  hs.forUptoFst fun _ _ ht => ht.wr

theorem State.Ok.cmpNm {src : State} (hs : s.Ok) {c : Nat} {a b : TD} {n : Nat} : (s.cmpNm src c a b n).1.Ok :=
  hs.foldlFst fun _ _ ht => ht.writeNm.noteDrops

theorem State.Ok.doCmp {v : State} (hs : s.Ok) {c : Nat} {a b : TD} {opt0 : Nat} : (s.doCmp v c a b opt0).1.Ok := by
  unfold State.doCmp
  with_reducible refine .iteFst hs (.iteFst (.cmpNm (.wrCode ?_)) (.iteFst (.foldlFst (.wrCode ?_) ?_)
    (.noteDrops (.noteDrops (.wrCode (.ite (.drawn ?_) ?_))))))
  case refine_3 => with_reducible exact fun _ _ ht => .writeTiles ht
  all_goals with_reducible exact .readOperands hs

theorem State.Ok.doPrn {v : State} (hs : s.Ok) {c : Nat} {a b : TD} {r4 : Word} {force : Bool} {n : Nat} :
    (s.doPrn v c a b r4 force n).1.Ok := by
  unfold State.doPrn
  refine .iteFst hs ?_
  extract_lets
  clear_value *
  split
  next hk =>
  have hr := State.Ok.of_eq Prod.fst hk hs.readOperands
  split
  next hw =>
  have hw := State.Ok.of_eq Prod.fst hw hr.wrCode
  split
  next hn =>
  refine (fun h => .amaxNote (.noteEvents h)) (State.Ok.of_eq Prod.fst hn (.foldlFst hw fun _ _ ht => ?_))
  dsimp only
  with_reducible exact ht.writeNm

theorem State.Ok.doBat {v : State} (hs : s.Ok) {c : Nat} {opt : Opt} {ds : List Desc} : (s.doBat v c opt ds).1.Ok :=
  .iteFst hs hs.readOperands.wrCode.bump.bump.noteEvents.bump.bump.noteDrops.noteDrops.onCore.drawn

end Sys2Proof.Machine
end

section
/-! The exchange unit's operations and its traffic keep the invariant. -/

namespace Sys2Proof.Machine
open Sys2Proof

variable {s : State}

theorem State.Ok.chain (hs : s.Ok) : (chain s).s.Ok := hs

theorem State.Ok.vaResGet {r : VaRes} (hs : r.s.Ok) {va n : Nat} : (r.get va n).1.s.Ok :=
  .iteOf (fun r : VaRes × _ => r.1.s) hs hs.vaRead

theorem State.Ok.vaResGetLE {r : VaRes} (hs : r.s.Ok) {va n : Nat} : (r.getLE va n).1.s.Ok := hs.vaResGet

theorem State.Ok.vaResPut {r : VaRes} (hs : r.s.Ok) {va : Nat} {bs : List Byte} : (r.put va bs).s.Ok :=
  .iteOf VaRes.s hs hs.vaWrite

theorem State.Ok.vaResPuts {r : VaRes} (hs : r.s.Ok) {ws : List ElemWrite} : (r.puts ws).s.Ok :=
  .iteOf VaRes.s hs hs.vaPut

theorem State.Ok.vaResRaw {r : VaRes} (hs : r.s.Ok) {t : TD} {m : List Nat} : (r.raw t m).1.s.Ok := hs.vaResGetLE

theorem State.Ok.vaResValue {r : VaRes} (hs : r.s.Ok) {t : TD} {m : List Nat} : (r.value t m).1.s.Ok :=
  .iteOf (fun r : VaRes × _ => r.1.s) hs hs.vaElem

/-- Steps that each keep the invariant, in turn. -/
theorem State.Ok.vaResEach {α β : Type} {f : VaRes → α → VaRes × β} {r : VaRes} {l : List α} (hs : r.s.Ok)
    (hf : ∀ r x, r.s.Ok → (f r x).1.s.Ok) : (VaRes.each f r l).1.s.Ok := by
  induction l generalizing r with
  | nil => exact hs
  | cons x l ih => exact ih (hf _ _ hs)

theorem State.Ok.vaResRow {r : VaRes} (hs : r.s.Ok) {t : TD} {h : Nat} {at_ : Nat → List Nat} :
    (r.row t h at_).1.s.Ok :=
  have hcodes := hs.vaResEach fun _ _ ht => ht.vaResRaw
  (hcodes.vaResEach fun _ _ ht => ht.vaResGetLE).vaResEach fun _ _ ht => ht.vaResGetLE

theorem State.Ok.vaResConvert {r : VaRes} (hs : r.s.Ok) {d : ConvDst} {ys : List (List Nat × F32)} :
    (r.convert d ys).1.s.Ok := by
  unfold VaRes.convert
  with_reducible exact (hs.vaResEach fun _ _ ht => ht.vaResGetLE).vaResPuts.amaxNote

theorem State.Ok.scramble (hs : s.Ok) {t : TD} : (s.scramble t).Ok := .ite hs.drawn hs.drawn.chain.vaResPuts

theorem State.Ok.onX (hs : s.Ok) {b : XBlock} {f : XBlock → XBlock} : (s.onX b f).Ok := hs

theorem State.Ok.dropTag (hs : s.Ok) {tag : Nat} : (s.dropTag tag).Ok := hs

theorem State.Ok.closeX (hs : s.Ok) {b : XBlock} : (s.closeX b).Ok := by
  unfold State.closeX
  refine .ite ?_ hs
  split
  · refine .ite (.dropTag ?_) ?_ <;> exact hs
  · exact hs

theorem State.Ok.endX (hs : s.Ok) {b : XBlock} {c : Code} : (s.endX b c).Ok :=
  .arriveVa (.ite hs.closeX.wrLE.setFld hs.closeX.wrLE.setFld.wrLE)

theorem State.Ok.takeX (hs : s.Ok) {r i a : Nat} : (s.takeX r i a).1.Ok := hs.noteRead.setFld

theorem State.Ok.execXchBlockTake (hs : s.Ok) {r : Fin 4} : Kept (execXchBlockTake r s) := by
  unfold Machine.execXchBlockTake
  split
  · exact .next hs
  · refine .ite (.next hs) (.ite (.next (.endX ?_)) (.ite (.next (.endX ?_)) (.next ?_))) <;> exact hs.takeX

theorem State.Ok.askX (hs : s.Ok) {b : XBlock} : (s.askX b).Ok := by
  unfold State.askX
  split
  · dsimp only
    split
    · next hl => exact (State.Ok.of_eq Prod.fst hl hs.onX.linkTo).wakeX
    · next hl => exact (State.Ok.of_eq Prod.fst hl hs.onX.linkTo).sendPkt.request
  · exact hs

theorem State.Ok.openBatch (hs : s.Ok) {b : XBlock} : (s.openBatch b).Ok := by
  unfold State.openBatch
  refine .onX ?_
  exact hs

theorem State.Ok.startBlock (hs : s.Ok) {b : XBlock} : (s.startBlock b).Ok := by
  unfold State.startBlock
  refine .ite (.onX (.ite hs.switchAll.switchAll hs)) ?_
  dsimp only
  split
  · exact .endX (.ite hs.switchAll.switchAll hs)
  · exact .ite (.openBatch (.ite hs.switchAll.switchAll hs)) (.onX (.ite hs.switchAll.switchAll hs))

theorem State.Ok.execXchBlockStart (hs : s.Ok) {r : Fin 8} : Kept (execXchBlockStart r s) := by
  unfold Machine.execXchBlockStart
  refine .ite (.next hs) ?_
  dsimp only
  split
  · split
    · exact .next hs.endX
    · exact .next hs.startBlock
  · split
    · exact .next hs.askX
    · exact .next hs

theorem State.Ok.vaResRouteOne {x : VaRes} (hs : x.s.Ok) {b : XBlock} {e t : Nat} : (x.routeOne b e t).1.s.Ok :=
  (hs.vaResEach fun _ _ ht => ht.vaResRaw).vaResPuts

theorem State.Ok.routeRun (hs : s.Ok) {b : XBlock} : (s.routeRun b).1.s.Ok :=
  (hs.chain.vaResEach fun _ _ ht => ht.vaResRouteOne).vaResPuts

theorem State.Ok.execRoute (hs : s.Ok) {r : Fin 4} {idx : BitVec 32} : Kept (execRoute r idx s) := by
  unfold Machine.execRoute
  split
  · exact .next hs
  · exact .next hs.routeRun.bump.endX

theorem State.Ok.sendXch (hs : s.Ok) {tag d : Nat} {msgs : List (List Byte)} : (s.sendXch tag d msgs).1.Ok := by
  unfold State.sendXch
  split
  · exact hs.bump
  · exact .iteFst hs (hs.foldl fun _ _ ht => ht.foldl fun _ _ ht2 => ht2.sendPkt)

theorem State.Ok.takeHead (hs : s.Ok) {hd : XHead} : (s.takeHead hd).1.Ok := .iteFst hs (.iteFst hs.bump hs)

theorem State.Ok.sendBatch (hs : s.Ok) {b : XBlock} {dir : Bool} {h : Nat} {rows : List (Nat × Nat × List Byte)} :
    (s.sendBatch b dir h rows).Ok := by
  refine .foldl (hs.onBatch.foldl fun _ _ ht => ht.loseBatchTo) fun _ _ ht => ?_
  exact .ite (.ite ht.takeHead ht.takeHead.onBatch.loseBatchTo) (.ite ht.sendXch ht.sendXch.loseBatchTo)

theorem State.Ok.failBatch (hs : s.Ok) {b : XBlock} {c : Code} : (s.failBatch b c).Ok := by
  unfold State.failBatch
  refine .endX ?_
  exact hs

theorem State.Ok.selections (hs : s.Ok) {b : XBlock} : (s.selections b).1.s.Ok :=
  hs.chain.vaResEach fun _ _ ht => ht.vaResRaw.vaResRaw

theorem State.Ok.vaResBatchRows {x : VaRes} (hs : x.s.Ok) {b : XBlock} {k : Nat} {order : List (Nat × Nat)} :
    (x.batchRows b k order).1.s.Ok := by
  unfold VaRes.batchRows
  with_reducible exact hs.vaResEach fun _ _ ht => ht.vaResRow

theorem State.Ok.putRecord {x : VaRes} (hs : x.s.Ok) {b : XBlock} {sel : List Sel} {adm : List (Nat × Nat)} :
    (s.putRecord b sel adm x).s.Ok := by
  unfold State.putRecord
  with_reducible exact hs.drawn.vaResPut

theorem State.Ok.execDispatch (hs : s.Ok) {r : Fin 4} {idx : BitVec 32} : Kept (execDispatch r idx s) := by
  unfold Machine.execDispatch
  split
  · exact .next hs
  · refine .ite (.next hs.selections.vaResBatchRows.failBatch)
      (.next (.endX (.sendBatch (.wrLE (.foldl (.bump (.bump (.foldl ?_ ?_))) ?_)))))
    · exact hs.selections.vaResBatchRows.putRecord
    · exact fun _ _ ht => ht.bump
    · exact fun _ _ ht => ht.wrLE

theorem State.Ok.vaResRecord {x : VaRes} (hs : x.s.Ok) {at_ n : Nat} : (x.record at_ n).1.s.Ok :=
  hs.vaResEach fun _ _ ht => ht.vaResGetLE

theorem State.Ok.combineRun (hs : s.Ok) {b : XBlock} {bt : Batch} {weigh : Bool} {key : Option DripKey} :
    (s.combineRun b bt weigh key).1.s.Ok := by
  unfold State.combineRun
  extract_lets blk f
  split
  next hr =>
  have hr := State.Ok.of_eq (fun r : VaRes × _ => r.1.s) hr hs.chain.vaResRecord
  split
  next hl =>
  have hl := State.Ok.of_eq (fun r : VaRes × _ => r.1.s) hl
    (hr.vaResEach fun _ _ ht => ht.vaResEach fun _ _ ht => ht.vaResGet)
  exact .iteOf (fun r : VaRes × _ => r.1.s) hl hl.vaResConvert

theorem State.Ok.combine (hs : s.Ok) {b : XBlock} {bt : Batch} {weigh : Bool} {key : Option DripKey} :
    (s.combine b bt weigh key).Ok :=
  .ite hs.combineRun.endX.dropTag hs.combineRun.endX

theorem State.Ok.execCombine (hs : s.Ok) {r : Fin 4} {idx : BitVec 32} : Kept (execCombine r idx s) := by
  unfold Machine.execCombine
  split
  · exact .next hs
  · split
    · exact .next hs.endX
    · exact .ite (.next hs) (.next hs.combine)

theorem State.Ok.backRun (hs : s.Ok) {b : XBlock} : (s.backRun b).1.s.Ok := by
  unfold State.backRun
  extract_lets +onlyGivenNames k h f
  split
  next hg =>
  have hg := State.Ok.of_eq (fun r : VaRes × _ => r.1.s) hg hs.chain.vaResGetLE
  split
  next hr =>
  have hr := State.Ok.of_eq (fun r : VaRes × _ => r.1.s) hr hg.vaResRecord
  split
  next hd =>
  have hd := State.Ok.of_eq (fun r : VaRes × _ => r.1.s) hd
    (hr.vaResEach fun _ _ ht => ht.vaResEach fun _ _ ht => ht.vaResValue)
  exact hd.vaResEach fun _ _ ht => ht.vaResGet

theorem State.Ok.putGrads {x : VaRes} (hs : x.s.Ok) {b : XBlock} {dots : List (Nat × Nat × F32)} :
    (s.putGrads b dots x).s.Ok :=
  hs.vaResPuts

theorem State.Ok.execCombineB (hs : s.Ok) {r : Fin 4} {idx : BitVec 32} : Kept (execCombineB r idx s) := by
  unfold Machine.execCombineB
  split
  · exact .next hs
  · exact .ite (.next hs.backRun.failBatch) (.next hs.backRun.putGrads.wrLE.sendBatch.endX)

theorem State.Ok.execGatherB (hs : s.Ok) {r : Fin 4} {idx : BitVec 32} : Kept (execGatherB r idx s) := by
  unfold Machine.execGatherB
  split
  · exact .next hs
  · split
    · exact .next hs.endX
    · exact .ite (.next hs) (.next hs.combine)

theorem State.Ok.routeBackRun (hs : s.Ok) {b : XBlock} : (s.routeBackRun b).s.Ok := by
  refine hs.chain.foldlOf VaRes.s fun _ _ ht => .vaResPuts ?_
  exact (ht.vaResEach fun _ _ ht => ht.vaResRaw).vaResEach fun _ _ ht => ht.vaResRaw

theorem State.Ok.execRouteB (hs : s.Ok) {r : Fin 4} {idx : BitVec 32} : Kept (execRouteB r idx s) := by
  unfold Machine.execRouteB
  split
  · exact .next hs
  · exact .next hs.routeBackRun.endX

theorem State.Ok.takeXch (hs : s.Ok) {l src tag n : Nat} {ok : List (List Byte) → Bool} :
    ∀ t ∈ s.takeXch l src tag n ok, t.Ok := by
  unfold State.takeXch
  dsimp only
  split
  · exact memSome hs.onLink
  · exact memNone

theorem State.Ok.refusePeer (hs : s.Ok) {src : Nat} {kind : String} {body : List Nat} :
    (s.refusePeer src kind body).Ok :=
  hs.notify.reportLost

theorem State.Ok.execXchHeaderReceive (hs : s.Ok) {l : Fin 12} {hd : XHead} : Kept (execXchHeaderReceive l hd s) := by
  unfold Machine.execXchHeaderReceive
  refine .ite (.next hs) ?_
  dsimp only
  split
  · exact .next hs
  · next hl =>
      have ht := State.Ok.of_some hl hs.takeXch
      exact .next (.ite ht.takeHead ht.takeHead.refusePeer)

theorem State.Ok.putEntries (hs : s.Ok) {layer half p : Nat} {es : List (List Byte)} :
    (s.putEntries layer half p es).Ok := by
  induction es generalizing s with
  | nil => exact hs
  | cons e es ih =>
    refine .ite (ih (.poolService ?_)) hs
    exact hs

theorem State.Ok.execXchExpertPost (hs : s.Ok) {layer : Fin 64} {half : Bool} :
    Kept (execXchExpertPost layer half s) := by
  unfold Machine.execXchExpertPost
  dsimp only
  split
  · refine .ite (.next hs) (.next (.putEntries ?_))
    exact hs.drawn.chain.foldlOf VaRes.s fun _ _ ht => ht.vaResPut
  · split
    · exact .next hs.putEntries
    · exact .next hs

theorem State.Ok.answerRow (hs : s.Ok) {tag slot : Nat} {bs : List Byte} : (s.answerRow tag slot bs).Ok := by
  unfold State.answerRow
  split
  · exact hs
  · exact .ite hs.bump (.ite hs.chain.vaResPut.onBatch hs)

theorem State.Ok.execXchAnswersSend (hs : s.Ok) {layer : Fin 64} {half : Bool} :
    Kept (execXchAnswersSend layer half s) := by
  unfold Machine.execXchAnswersSend
  dsimp only
  split
  · exact .next hs
  · refine .ite (.next hs) (.next (.foldl hs.drawn fun _ _ ht => .ite ht ?_))
    exact .ite ht.chain.vaResGet.answerRow ht.chain.vaResGet.sendXch

theorem State.Ok.takeAnswer (hs : s.Ok) {l tag slot : Nat} {bs : List Byte} :
    ∀ t ∈ s.takeAnswer l tag slot bs, t.Ok := by
  intro t ht
  obtain ⟨p, -, hp⟩ := Option.bind_eq_some_iff.mp ht
  exact hs.takeXch t hp

theorem State.Ok.execXchAnswerReceive (hs : s.Ok) {l : Fin 12} {tag : BitVec 16} {a : XAns} :
    Kept (execXchAnswerReceive l tag a s) := by
  unfold Machine.execXchAnswerReceive
  refine .ite (.next hs) ?_
  split
  · split
    · next hl => exact .next (State.Ok.of_some hl hs.takeAnswer).answerRow
    · exact .next hs
  · split
    · exact .next hs
    · next hl =>
        have ht := State.Ok.of_some hl hs.takeNote
        split
        · exact .ite (.next ht.onBatch.loseBatchTo) (.next ht)
        · exact .next ht

theorem State.Ok.biasSlot (hs : s.Ok) {l : Nat} {others : Nat → Nat} : (s.biasSlot l others).Ok :=
  .ite hs (hs.foldl fun _ _ ht => ht.wrLE.wrLE)

theorem State.Ok.withXch (hs : s.Ok) {x : Xch} : ({ s with xch := x } : State).Ok := hs

theorem State.Ok.execXchBiasUpdate (hs : s.Ok) {others : List (Fin 64 × Fin 256 × BitVec 32)} :
    Kept (execXchBiasUpdate others s) := by
  unfold Machine.execXchBiasUpdate
  split
  · exact .next hs
  · dsimp only
    split
    · exact .next hs
    · exact .ite (.next hs) (.next (.withXch (.foldl hs.notifyAll fun _ _ ht => ht.biasSlot)))

theorem State.Ok.spoilX (hs : s.Ok) {b : XBlock} : (s.spoilX b).Ok := by
  unfold State.spoilX
  split
  · exact hs.scramble
  · exact hs.scramble
  · exact hs.scramble
  · exact hs

theorem State.Ok.retireIn (hs : s.Ok) {src tag : Nat} : (s.retireIn src tag).Ok := hs

theorem State.Ok.execTagRetire (hs : s.Ok) {tag : BitVec 16} : Kept (execTagRetire tag s) := by
  unfold Machine.execTagRetire
  split
  · exact .next hs
  · refine .ite (.next hs) (.next (.foldl (.retireIn (.foldl hs.onBatch fun _ _ ht => ?_)) fun _ _ ht => ?_))
    · exact ht.spoilX.endX
    · exact ht.notify

theorem State.Ok.execRetireNotice (hs : s.Ok) {src : BitVec 12} {tag : BitVec 16} :
    Kept (execRetireNotice src tag s) := by
  unfold Machine.execRetireNotice
  refine .ite (.next hs) ?_
  split
  · next hl => exact .next (State.Ok.of_some hl hs.takeNote).retireIn.notify
  · exact .next hs

theorem State.Ok.execRetireAck (hs : s.Ok) {dev : BitVec 12} {tag : BitVec 16} : Kept (execRetireAck dev tag s) := by
  unfold Machine.execRetireAck
  split
  · next hl => exact .next (State.Ok.of_some hl hs.takeNote).onBatch
  · exact .next hs

theorem State.Ok.ringCfg (hs : s.Ok) {r : Nat} {v : Word} : Kept (s.ringCfg r v) :=
  .ite (.next hs) (hs.writeReg fun _ _ ht => .next (.ite ht.storeReg.setFld ht.storeReg))

theorem State.Ok.execWringCfgWrite (hs : s.Ok) {r : Fin 4} {v : Word} : Kept (execWringCfgWrite r v s) := hs.ringCfg

theorem State.Ok.execCringCfgWrite (hs : s.Ok) {r : Fin 4} {v : Word} : Kept (execCringCfgWrite r v s) := hs.ringCfg

end Sys2Proof.Machine
end

section
/-! Collectives keep the invariant: contributions, reductions, moved shards and cancellations. -/

namespace Sys2Proof.Machine
open Sys2Proof

variable {s : State}

theorem State.Ok.vaResMembers {x : VaRes} (hs : x.s.Ok) {b : XBlock} : (x.members b).1.s.Ok :=
  hs.vaResEach fun _ _ ht => ht.vaResGetLE

theorem State.Ok.takeColl (hs : s.Ok) {r i a : Nat} : (s.takeColl r i a).1.Ok := hs.takeX

theorem State.Ok.execCollBlockTake (hs : s.Ok) {r : Fin 4} : Kept (execCollBlockTake r s) := by
  unfold Machine.execCollBlockTake
  split
  · exact .next hs
  · extract_lets +onlyGivenNames bad
    split
    next ht =>
    have ht := State.Ok.of_eq Prod.fst ht hs.takeColl
    refine .ite (.next ht.endX) ?_
    split
    · refine .next (.endX ?_)
      exact ht
    · split
      next hm =>
      have hm := State.Ok.of_eq (fun r : VaRes × _ => r.1.s) hm ht.chain.vaResMembers
      exact .ite (.next hm.endX) (.ite (.next hm) (.next hm.endX))

theorem State.Ok.vaResShard {x : VaRes} (hs : x.s.Ok) {t : TD} {lo n : Nat} : (x.shard t lo n).1.s.Ok :=
  hs.vaResEach fun _ _ ht => ht.vaResRow

theorem State.Ok.vaResPutShard {x : VaRes} (hs : x.s.Ok) {t : TD} {lo n : Nat} {keep : Nat → Bool}
    {rows : List (List Byte)} : (x.putShard t lo n keep rows).s.Ok :=
  hs.vaResPuts

theorem State.Ok.vaResTouchedUnits {x : VaRes} (hs : x.s.Ok) {va : Nat} : (x.touchedUnits va).1.s.Ok :=
  hs.vaResGetLE.vaResEach fun _ _ ht => ht.vaResGetLE

theorem State.Ok.vaResGran {x : VaRes} (hs : x.s.Ok) {va : Nat} : (x.gran va).1.s.Ok := hs.vaResGetLE

theorem State.Ok.vaResTouchUnits {x : VaRes} (hs : x.s.Ok) {va : Nat} {us : List Nat} : (x.touchUnits va us).s.Ok :=
  hs.vaResGetLE.foldlOf VaRes.s fun _ _ ht => .iteOf VaRes.s ht ht.vaResGetLE.vaResPut

theorem State.Ok.stagePart (hs : s.Ok) {p : CollPart} : (s.stagePart p).Ok := .ite hs hs

theorem State.Ok.giveTo (hs : s.Ok) {b : XBlock} {d : Nat} {p : CollPart} : (s.giveTo b d p).Ok :=
  .ite (.ite hs.stagePart hs.bump.onX) (.ite hs (.ite hs.sendXch hs.sendXch.onX))

theorem State.Ok.sendShares (hs : s.Ok) {b : XBlock} {ms : List Nat} : (s.sendShares b ms).Ok := by
  unfold State.sendShares
  dsimp only
  refine .onX (.foldlOf VaRes.s ?_ fun _ _ ht => .iteOf VaRes.s ht.vaResShard ht.vaResShard.giveTo)
  refine .iteOf (fun r : VaRes × _ => r.1.s) (.vaResTouchedUnits ?_) ?_
  all_goals exact .iteOf (fun r : VaRes × _ => r.1.s) hs.chain.vaResGetLE hs.chain

theorem State.Ok.vaResReduce {x : VaRes} (hs : x.s.Ok) {b : XBlock} {ps : List CollPart} {first lo : Nat} :
    (x.reduce b ps first lo).1.s.Ok :=
  .vaResConvert (.iteOf (fun r : VaRes × _ => r.1.s) hs.vaResGran hs)

/-- A collective's end adds the touched units to the list, then ends its block. -/
theorem State.Ok.endColl {e : CollEnd} (hs : e.x.s.Ok) {b : XBlock} {ps : List CollPart} :
    (State.endColl e b ps).Ok :=
  .endX (.iteOf (fun e : CollEnd => e.x.s) hs.vaResTouchUnits hs)

/-- A collective keeps the invariant when its finish does. -/
theorem State.Ok.onColl (hs : s.Ok) {r : Fin 4} {idx : BitVec 32} {op : Nat}
    {finish : XBlock → List Nat → List CollPart → State → State} (hf : ∀ b ms ps t, t.Ok → (finish b ms ps t).Ok) :
    Kept (onColl r idx op s finish) := by
  unfold Machine.onColl
  split
  · exact .next hs
  · split
    next hm =>
    have hx := State.Ok.of_eq (fun r : VaRes × List Nat => r.1.s) hm hs.chain.vaResMembers
    refine .ite (.next hx.endX) ?_
    extract_lets t
    have ht : t.Ok := .ite hx.sendShares hx
    clear_value t
    split
    · exact .next ht
    · exact .ite (.next ht.endX) (.ite (.next (hf _ _ _ _ ht)) (.next ht))

theorem State.Ok.vaResGather {x : VaRes} (hs : x.s.Ok) {b : XBlock} {second : Bool} {ms : List Nat} :
    (x.gather b second ms).1.s.Ok := by
  unfold VaRes.gather
  refine .foldlOf (fun r : VaRes × _ => r.1.s) (.iteOf (fun r : VaRes × _ => r.1.s) hs.vaResGran hs) fun _ _ ht => ?_
  split
  split
  · with_reducible exact ht.vaResPutShard
  · exact ht

theorem State.Ok.collRun (hs : s.Ok) {b : XBlock} {ms : List Nat} {ps : List CollPart} : (s.collRun b ms ps).x.s.Ok :=
  .iteOf (fun e : CollEnd => e.x.s) hs.chain.vaResGather
    (.iteOf (fun e : CollEnd => e.x.s) hs.chain.vaResReduce hs.chain.vaResGather)

theorem State.Ok.execReduceScatter (hs : s.Ok) {r : Fin 4} {idx : BitVec 32} : Kept (execReduceScatter r idx s) :=
  hs.onColl fun _ _ _ _ ht => .endColl ht.collRun

theorem State.Ok.execAllGather (hs : s.Ok) {r : Fin 4} {idx : BitVec 32} : Kept (execAllGather r idx s) :=
  hs.onColl fun _ _ _ _ ht => .endColl ht.collRun

theorem State.Ok.execAllToAll (hs : s.Ok) {r : Fin 4} {idx : BitVec 32} : Kept (execAllToAll r idx s) :=
  hs.onColl fun _ _ _ _ ht => .endColl ht.collRun

theorem State.Ok.reduceOwn (hs : s.Ok) {b : XBlock} {ms : List Nat} {ps : List CollPart} :
    (s.reduceOwn b ms ps).Ok := by
  unfold State.reduceOwn
  with_reducible exact hs.chain.vaResReduce.vaResShard.onX.foldl fun _ _ ht => ht.giveTo

theorem State.Ok.execAllReduce (hs : s.Ok) {r : Fin 4} {idx : BitVec 32} : Kept (execAllReduce r idx s) := by
  unfold Machine.execAllReduce
  refine hs.onColl fun b ms ps t ht => ?_
  extract_lets t1
  have h1 : t1.Ok := .ite ht.reduceOwn ht
  clear_value t1
  split
  · exact h1
  · exact .ite (.endColl h1.collRun) h1

/-- A collective that ends by a notice keeps the invariant when the end of its block does. -/
theorem State.Ok.doom (hs : s.Ok) {coll step : Nat} {c : Code} {fin : XBlock → State} (hf : ∀ b, (fin b).Ok) :
    (s.doom coll step c fin).Ok := by
  unfold State.doom
  split
  · exact hf _
  · exact .ite hs hs

theorem State.Ok.execCollContribution (hs : s.Ok) {l : Fin 12} {m : CollMsg} : Kept (execCollContribution l m s) := by
  unfold Machine.execCollContribution
  refine .ite (.next hs) ?_
  split
  · dsimp only
    split
    · exact .next hs
    · next hl =>
        have ht := State.Ok.of_some hl hs.takeXch
        exact .ite (.next ht) (.ite (.next ht.bump.refusePeer) (.next ht.stagePart))
  · split
    · exact .next hs
    · next hl =>
        have ht := State.Ok.of_some hl hs.takeAny
        exact .next (ht.doom fun _ => ht.endX)

theorem State.Ok.cancelColl (hs : s.Ok) {b : XBlock} : (s.cancelColl b).Ok := hs.scramble.endX

theorem State.Ok.cancelRing (hs : s.Ok) {r : Nat} : (s.cancelRing r).Ok := by
  unfold State.cancelRing
  with_reducible refine .foldl (hs.forUpto fun _ _ ht => ?_) fun _ _ ht => ht.cancelColl.foldl fun _ _ ht2 => ht2.notify
  split
  · exact ht.takeX
  · exact ht

theorem State.Ok.execCollCancelNotice (hs : s.Ok) {coll : BitVec 32} {step : BitVec 64} :
    Kept (execCollCancelNotice coll step s) := by
  unfold Machine.execCollCancelNotice
  refine .ite (.next hs) ?_
  split
  · exact .next hs
  · next hl =>
      have ht := State.Ok.of_some hl hs.takeAny
      exact .next (ht.doom fun _ => ht.cancelColl)

end Sys2Proof.Machine
end

section
/-! Memory controllers and CXL ports keep the invariant: scrub addresses stay in range (R397), errors at whole units. -/

namespace Sys2Proof.Machine
open Sys2Proof

variable {s : State}

theorem State.Ok.countDie (hs : s.Ok) {m d : Nat} : (s.countDie m d).Ok :=
  .ite (.setFld (.setFld (.setFld hs))) (.setFld hs)

/-- A codeword that begins on its boundary is a unit of errors (R393). -/
theorem unit_of_gddr {h5 : Bool} {u m o : Nat} (ht : Machine.target h5 u = .gddr m o) (hu : u % 128 = 0) :
    eccSize h5 u ≠ 0 ∧ eccUnit h5 u = u := by
  have hz : eccSize h5 u = 128 := by simp [eccSize, ht]
  simp only [eccUnit, hz, OfNat.ofNat_ne_zero, if_false, ne_eq, not_false_eq_true, true_and]
  omega

theorem State.Ok.spoil (hs : s.Ok) {u : Nat} (hu : eccSize s.fuses.h5 u ≠ 0 ∧ eccUnit s.fuses.h5 u = u) :
    (s.spoil u).Ok := by
  unfold State.spoil
  split
  · exact hs
  · exact hs.addPoison hu.1 hu.2

theorem State.Ok.decodeAt (hs : s.Ok) {m u : Nat} {e : CodeErr} {scrub : Bool}
    (hu : eccSize s.fuses.h5 u ≠ 0 ∧ eccUnit s.fuses.h5 u = u) : (s.decodeAt m u e scrub).Ok := by
  have hbad {n : Nat} : ∀ t : State, t.Ok → (if scrub then
      ((t.bump (Reg.memEccUncorrCnt m) 1).recordFirst (Reg.memEccAddr m) (BitVec.ofNat 64 n)).event 4
      else (t.noteUncorr u).drawn).Ok := fun _ ht => .ite ht.bump.recordFirst.event ht.noteUncorr.drawn
  unfold State.decodeAt
  dsimp only
  split
  · exact hbad _ (hs.spoil hu)
  · split
    · exact hs
    · exact hs.bump
    · exact hs.bump
    · exact hs.bump.countDie
    · exact hbad _ (hs.spoil hu)

/-- What a byte below 2^40 reads where memory does not list it depends on its own channel pair's generation. -/
theorem unlistedAt_congr {mg mg' cg : SMap Nat} {a : Nat} (h : a < 0x100_0000_0000 →
    SMap.get 0 mg (8 * gddrCtl a + gddrPair a) = SMap.get 0 mg' (8 * gddrCtl a + gddrPair a)) :
    unlistedAt mg cg a = unlistedAt mg' cg a := by
  unfold unlistedAt State.unlisted
  split
  · next ha => simp only [h ha]
  · rfl

/-- A new generation for some channel pairs leaves the generations of the others alone. -/
theorem get_forUpto_put {which : Nat → Bool} {i : Nat} (hi : which i = false) (n v : Nat) (mg : SMap Nat) :
    SMap.get 0 (forUpto n (fun i g => if which i then SMap.put 0 g i v else g) mg) i = SMap.get 0 mg i := by
  unfold forUpto
  induction n with
  | zero => rfl
  | succ n ih =>
    rw [Nat.fold_succ]
    dsimp only
    split
    · next hn =>
      have hne : i ≠ n := by rintro rfl; simp [hi] at hn
      rw [SMap.get_put_ne _ _ _ _ _ _ hne, ih]
    · exact ih

theorem State.Ok.loseMem (hs : s.Ok) {which : Nat → Bool} : (s.loseMem which).Ok := by
  unfold State.Ok State.loseMem State.drawn
  dsimp only
  refine (hs.dropPoison _).dropCells fun a ha => unlistedAt_congr fun hlow => ?_
  have hw : which (8 * gddrCtl a + gddrPair a) = false := by simpa [hlow] using ha
  exact (get_forUpto_put hw _ _ _).symm

theorem State.Ok.dropPair (hs : s.Ok) {m k : Nat} : (s.dropPair m k).Ok := by
  unfold State.dropPair
  refine .loseMem (.setFld ?_)
  exact hs

theorem State.Ok.execGddr7Access (hs : s.Ok) {a : BitVec 40} {wr : Option Piece} {e : CodeErr} {crc : Fin 7} :
    Kept (execGddr7Access a wr e crc s) := by
  unfold Machine.execGddr7Access
  extract_lets +onlyGivenNames u
  split
  · next m _ ht =>
    have hu : eccSize s.fuses.h5 u ≠ 0 ∧ eccUnit s.fuses.h5 u = u := unit_of_gddr ht (Nat.mul_mod_left _ _)
    extract_lets +onlyGivenNames k st t1 t2
    have h2 : t2.Ok := .ite hs.bump.bump hs.bump
    have hf : t2.fuses = s.fuses := by
      unfold t2
      split <;> rfl
    rw [← hf] at hu
    clear_value t2 u
    refine .ite (.next hs) (.ite (.next h2.dropPair) ?_)
    cases wr with
    | none => exact .next (h2.decodeAt hu)
    | some p =>
      exact .ite (.next h2) (.ite (.next h2.wr) (.ite (.next h2.wr)
        (.ite (.next (h2.decodeAt hu).putBytes) (.next (h2.decodeAt hu).wr))))
  · exact .next hs

theorem State.Ok.execRetrainSlice (hs : s.Ok) {m : Fin 16} : Kept (execRetrainSlice m s) :=
  .ite (.next hs) (.ite (.next hs) (.next (.bump (.setFld hs))))

theorem State.Ok.slice (hs : s.Ok) {m k : Nat} : (s.slice m k).Ok := hs.setFld.bump

theorem State.Ok.execRetrainSliceEnd (hs : s.Ok) {m : Fin 16} : Kept (execRetrainSliceEnd m s) := by
  unfold Machine.execRetrainSliceEnd
  refine .ite (.next hs) ?_
  dsimp only
  split
  · exact .ite (.ite (.next hs.setFld.endFunc) (.next hs.setFld.slice.onMgt)) (.next hs.setFld)
  · exact .next hs.setFld

/-- The walk of the patrol scrub stays in its controller's part of the memory, at the beginnings of codewords (R388,
R397). -/
theorem unit_scrubAddr {h5 : Bool} {m i : Nat} (hm : m < 16) (hi : i < scrubEnd h5) :
    eccSize h5 (scrubAddr m i) ≠ 0 ∧ eccUnit h5 (scrubAddr m i) = scrubAddr m i := by
  have hlo (x y z w v r : Nat) : Nat.xor m (Nat.xor (x % 16) (Nat.xor (y % 16) (Nat.xor (z % 16) (Nat.xor (w % 16)
      (Nat.xor (v % 16) (r % 16)))))) < 2 ^ 4 := by
    have h16 (x : Nat) : x % 16 < 2 ^ 4 := Nat.mod_lt _ (by decide)
    exact Nat.xor_lt_two_pow hm (Nat.xor_lt_two_pow (h16 x) (Nat.xor_lt_two_pow (h16 y) (Nat.xor_lt_two_pow (h16 z)
      (Nat.xor_lt_two_pow (h16 w) (Nat.xor_lt_two_pow (h16 v) (h16 r))))))
  obtain ⟨lo, hlo, ha⟩ : ∃ lo < 16, scrubAddr m i = 128 * i / 4096 * 65536 + lo * 4096 + 128 * i % 4096 :=
    ⟨_, hlo .., rfl⟩
  have hu : scrubAddr m i % 128 = 0 := by omega
  refine unit_of_gddr (m := gddrCtl (scrubAddr m i)) (o := gddrOff (scrubAddr m i)) ?_ hu
  have hend : scrubAddr m i < if h5 then 2 ^ 39 else 2 ^ 40 := by
    cases h5 <;> simp only [scrubEnd, if_true, if_false, Bool.false_eq_true] at hi ⊢ <;> omega
  unfold Machine.target
  cases h5 with
  | true =>
    simp only [if_true] at hend
    have h39 : scrubAddr m i >>> 39 = 0 := by rw [Nat.shiftRight_eq_div_pow]; omega
    rw [if_pos (by omega), h39, if_neg (by decide)]
  | false =>
    simp only [Bool.false_eq_true, if_false] at hend
    rw [if_pos (by omega), if_neg (by simp)]

theorem State.Ok.execScrubRead (hs : s.Ok) {m : Fin 16} {e : CodeErr} : Kept (execScrubRead m e s) := by
  have hpos : 0 < scrubEnd s.fuses.h5 := by unfold scrubEnd; split <;> decide
  have hi := SMap.get_lt hs.scrub hpos m.val
  have hu := unit_scrubAddr m.isLt hi
  unfold Machine.execScrubRead
  extract_lets st i u k last t1 t2
  have h1 : t1.Ok := by
    refine hs.putScrub m.val ?_
    by_cases hlast : last
    · rw [if_pos hlast]
      exact hpos
    · rw [if_neg hlast]
      exact Nat.lt_of_not_le hlast
  have h2 : t2.Ok := .ite h1 (h1.decodeAt hu)
  exact .ite (.next hs) (.next (.ite h2.bump h2))

theorem State.Ok.execMemClear (hs : s.Ok) {m : Fin 16} {v : Word} : Kept (execMemClear m v s) :=
  .ite (.next hs) (hs.writeReg fun _ _ ht => .ite (.next ht) (.next ht.setFld))

theorem State.Ok.execMemClearDone (hs : s.Ok) {m : Fin 16} : Kept (execMemClearDone m s) := by
  unfold Machine.execMemClearDone
  refine .ite (.next hs) (.next (.setFld ?_))
  unfold State.Ok
  dsimp only
  refine (hs.dropPoison _).dropCells fun a ha => unlistedAt_congr fun hlow => ?_
  have hm : gddrCtl a ≠ m.val := by simpa [hlow] using ha
  have hpair : gddrPair a < 8 := Nat.mod_lt _ (by decide)
  have hidx : (8 * gddrCtl a + gddrPair a) / 8 = gddrCtl a := by omega
  exact (SMap.get_keep _ _ _ _ (by simpa [hidx] using hm)).symm

theorem State.Ok.execDieMarkWrite (hs : s.Ok) {k : Fin 8} {v : Word} : Kept (execDieMarkWrite k v s) :=
  .ite (.next hs) (hs.writeReg fun _ _ ht => .ite (.next (.setFld ht.storeReg)) (.next ht.storeReg))

theorem State.Ok.execHdmCommit (hs : s.Ok) {p : Fin 4} {n : Fin 8} {v : Word} : Kept (execHdmCommit p n v s) := by
  refine .ite (.next hs) (hs.writeReg fun w _ ht => ?_)
  have hw := ht.storeReg (v := w) (off := Reg.cxmHdmCtl p.val n.val) (mask := allOnes)
  exact .ite (.ite (.next hw.setFld.setFld.setFld) (.next hw.setFld.setFld)) (.ite (.next hw.setFld) (.next hw))

theorem State.Ok.execCxlCfgRequest (hs : s.Ok) {p : Fin 4} {v : Word} : Kept (execCxlCfgRequest p v s) :=
  .ite (.next hs) (hs.writeReg fun _ _ ht => .next ht.storeReg.setFld.send)

theorem State.Ok.execCxlCfgComplete (hs : s.Ok) {p : Fin 4} {r : Option (BitVec 32)} :
    Kept (execCxlCfgComplete p r s) := by
  unfold Machine.execCxlCfgComplete
  refine .ite (.next hs) ?_
  dsimp only
  split
  · exact .next hs.setFld.setFld
  · exact .next (.ite hs.setFld.setFld hs.setFld.setFld.setFld)

/-- A CXL line that begins on its boundary is a unit of errors (R408). -/
theorem unit_of_cxl {h5 : Bool} {u p o : Nat} (ht : Machine.target h5 u = .cxl p o) (hu : u % 64 = 0) :
    eccSize h5 u ≠ 0 ∧ eccUnit h5 u = u := by
  have hz : eccSize h5 u = 64 := by simp [eccSize, ht]
  simp only [eccUnit, hz, OfNat.ofNat_ne_zero, if_false, ne_eq, not_false_eq_true, true_and]
  omega

theorem State.Ok.execCxlAccess (hs : s.Ok) {a : BitVec 48} {wr : Option Piece} {bad : Bool} :
    Kept (execCxlAccess a wr bad s) := by
  unfold Machine.execCxlAccess
  extract_lets u
  split
  · next ht =>
    have hu := hs.spoil (unit_of_cxl ht (Nat.mul_mod_left _ _))
    refine .ite (.next hs) (.ite (.next hs.noteAccessFail) ?_)
    split
    · exact .ite (.next hs) (.next hs.wr)
    · exact .next (State.Ok.ite hu hs).noteRead
  · exact .next hs

theorem State.Ok.execCxlLinkDown (hs : s.Ok) {p : Fin 4} {l : Bool} : Kept (execCxlLinkDown p l s) :=
  .ite (.next hs) (.next hs.setFld.setFld.bump)

theorem State.Ok.execCxlLinkUp (hs : s.Ok) {p : Fin 4} {l : Bool} {width : BitVec 8} {rate : BitVec 4} :
    Kept (execCxlLinkUp p l width rate s) :=
  .ite (.next hs) (.next hs.setFld.setFld.setFld)

theorem State.Ok.execCxlPortCfgWrite (hs : s.Ok) {p : Fin 4} {v : Word} : Kept (execCxlPortCfgWrite p v s) :=
  .ite (.next hs) (hs.writeReg fun _ _ ht => .ite (.next ht.storeReg) (.next ht.storeReg.setFld.setFld))

end Sys2Proof.Machine
end

section
/-! Holds, restores, rejoins and cairns keep the invariant. -/

namespace Sys2Proof.Machine
open Sys2Proof

variable {s : State}

theorem State.Ok.onRsl (hs : s.Ok) {f : Rsl → Rsl} : (s.onRsl f).Ok := hs

theorem State.Ok.endHold (hs : s.Ok) {c : Code} : (s.endHold c).Ok := by
  unfold State.endHold
  exact hs.setFld.setFld.setFld.notifyAll.onRsl

theorem State.Ok.execHoldStart (hs : s.Ok) {v : Word} : Kept (execHoldStart v s) := by
  refine .ite (.next hs) (hs.writeReg fun _ _ ht => .ite (.next ht.storeReg) ?_)
  exact .next (have h := ht.storeReg.setFld.setFld.setFld.notifyAll.onRsl; .ite h.endHold h)

theorem State.Ok.execHoldRelease (hs : s.Ok) : Kept (execHoldRelease s) := .ite (.next hs) (.next hs.endHold)

theorem State.Ok.execHoldNotice (hs : s.Ok) {h : Option (BitVec 48)} : Kept (execHoldNotice h s) := by
  unfold Machine.execHoldNotice
  refine .ite (.next hs) ?_
  split
  · split
    · next hl => exact .next (State.Ok.of_some hl hs.takeNote).onRsl
    · exact .next hs
  · split
    · next hl =>
        have ht := State.Ok.of_some hl hs.takeNote
        exact .ite (.next ht.notify) (.next ht.onRsl)
    · exact .next hs

theorem State.Ok.execHoldReport (hs : s.Ok) {d : BitVec 12} {ok : Bool} : Kept (execHoldReport d ok s) := by
  unfold Machine.execHoldReport
  refine .ite (.next hs) ?_
  split
  · exact .next hs
  · next hl =>
      have ht := State.Ok.of_some hl hs.takeNote
      exact .ite (.next ht.endHold) (.next ht.onRsl.checkHeld)

theorem State.Ok.reportWait (hs : s.Ok) {n : Nat} : (s.reportWait n).Ok :=
  .ite hs (.ite hs.onRsl.checkHeld hs.onRsl.notify)

theorem State.Ok.internal (hs : s.Ok) {reason unit : Nat} : (s.internal reason unit).Ok := hs.recordFirst.event

theorem State.Ok.wrPlaces (hs : s.Ok) {ps : List (Nat × Nat)} {bs : List Byte} : (s.wrPlaces ps bs).Ok := by
  induction ps generalizing s bs with
  | nil => exact hs
  | cons _ ps ih => exact ih hs.wr

theorem State.Ok.endRestore (hs : s.Ok) {x : Restore} {c : Code} : (s.endRestore x c).Ok :=
  .ite hs.setFld.setFld.setFld.onRsl.notify hs.setFld.setFld.setFld.onRsl

theorem State.Ok.execRestoreStart (hs : s.Ok) {w : BitVec 32} {confirmed : Bool} :
    Kept (execRestoreStart w confirmed s) := by
  unfold Machine.execRestoreStart
  refine .ite (.next hs) ?_
  extract_lets +onlyGivenNames inside t block n i x fail
  have ht : t.Ok := hs.setReg
  have hfail {c : Code} : Kept (fail c) := .next ht.setFld
  clear_value fail t
  refine .ite hfail (.ite hfail (.ite hfail ?_))
  exact .next (.ite ht.setFld.setFld.onRsl ht.setFld.setFld.onRsl.endRestore)

theorem State.Ok.execRestorePiece (hs : s.Ok) {a dB b : Option (List (BitVec 8))} :
    Kept (execRestorePiece a dB b s) := by
  unfold Machine.execRestorePiece
  split
  · exact .next hs
  · extract_lets +onlyGivenNames a' dB' b' places count
    have hcount {t : State} {x : Restore} (ht : t.Ok) : (count t x).Ok :=
      .ite ht.bump.setFld.onRsl ht.bump.setFld.onRsl.endRestore
    clear_value count a' dB' b' places
    split
    · exact .next hs.endRestore
    · refine .ite (.next hs) (.ite (.next (hcount hs.wrPlaces.bump)) ?_)
      split
      · exact .next hs.wrPlaces.endRestore
      · refine .ite (.next (hcount hs.wrPlaces)) ?_
        split
        · exact .next hs.wrPlaces.recordFirst.bump.endRestore
        · refine .ite (.next hs) (.ite (.next (hcount ?_)) (.next (.internal (.endRestore ?_))))
          all_goals exact hs.wrPlaces.recordFirst.bump.wrPlaces

theorem State.Ok.execRestoreDigestRequest (hs : s.Ok) {src : BitVec 12} {a : Option (BitVec 48)} {len : BitVec 31} :
    Kept (execRestoreDigestRequest src a len s) := by
  unfold Machine.execRestoreDigestRequest
  refine .ite (.next hs) ?_
  split
  · exact .next hs
  · next hl => exact .next (State.Ok.of_some hl hs.takeNote).notify

theorem State.Ok.applyRejoin (hs : s.Ok) {f st : Nat} : (s.applyRejoin f st).Ok := hs.setDropped.recordFirst

theorem State.Ok.execRejoin (hs : s.Ok) {f : BitVec 12} {h : Word} : Kept (execRejoin f h s) := by
  unfold Machine.execRejoin
  refine .ite (.next hs) ?_
  split
  · exact .next hs
  · next hl => exact .next (State.Ok.of_some hl hs.takeNote).applyRejoin.notifyAll

theorem State.Ok.execRejoinNotice (hs : s.Ok) {f : BitVec 12} {st : Word} : Kept (execRejoinNotice f st s) := by
  unfold Machine.execRejoinNotice
  refine .ite (.next hs) ?_
  split
  · next hl => exact .next (State.Ok.of_some hl hs.takeNote).applyRejoin
  · exact .next hs

theorem State.Ok.withCairn (hs : s.Ok) {u : SeqId} {a1 : AReg} {k : Work} : (withCairn u a1 k s).2.Ok :=
  .iteSnd hs.withBlock (.iteSnd hs.withBlock (.iteSnd hs.withBlock.noteRead hs.withBlock))

theorem State.Ok.copyLocal (hs : s.Ok) {src dst n : Nat} : (s.copyLocal src dst n).Ok :=
  hs.forUpto fun _ _ ht => ht.noteRead.wr

theorem State.Ok.writeImage (hs : s.Ok) {c : Cairn} {step : Word} : (s.writeImage c step).Ok := by
  unfold State.writeImage
  with_reducible exact .foldl (.wr (hs.wr.foldl fun _ _ ht => ht.copyLocal)) fun _ _ ht => ht.copyLocal

theorem State.Ok.readImage (hs : s.Ok) {c : Cairn} {u : SeqId} : (s.readImage c u).Ok := by
  unfold State.readImage
  dsimp only
  refine .loadRow (.cursors (.onSeq (.withXch (.forUpto (.foldl (hs.foldl fun _ _ ht => ht.copyLocal) ?_) ?_))))
  · exact fun _ _ ht => ht.copyLocal
  · exact fun _ _ ht => ht.setPool

theorem State.Ok.onWork (hs : s.Ok) {u : SeqId} {seq : Nat} {f : Work → Work} : (s.onWork u seq f).Ok := hs.onSeq

theorem State.Ok.withUnitEpoch (hs : s.Ok) {x : SMap (BitVec 32)} : ({ s with unitEpoch := x } : State).Ok := hs

theorem State.Ok.startCairn (hs : s.Ok) {u : SeqId} {w : Work} : (s.startCairn u w).Ok := by
  unfold State.startCairn
  exact .ite hs.endWork (.onWork (.withUnitEpoch hs.setFld.setFld.onRsl))

theorem State.Ok.startCairns (hs : s.Ok) : s.startCairns.Ok := by
  unfold State.startCairns
  refine .ite hs (hs.foldl fun _ _ ht => ?_)
  dsimp only
  split
  · exact .ite ht.startCairn ht
  · exact ht

theorem State.Ok.cairnIssue (hs : s.Ok) {w : Issue} {fd : SReg} {a1 : AReg} {i : Instr} {restore : Bool} :
    Kept (cairnIssue w fd a1 i restore s) := by
  unfold Machine.cairnIssue
  have hi : Kept (onIssue w.u s (Machine.issueTensor w fd i (if w.u.isCp then none else some 0x81) s (Machine.withCairn w.u a1))
      State.startCairns) := (hs.issueTensor fun _ _ ht => ht.withCairn).onIssue fun _ ht => ht.startCairns
  exact .ite (.next hs) hi

theorem State.Ok.execCairn (hs : s.Ok) {w : Issue} {fd : SReg} {a1 : AReg} : Kept (execCairn w fd a1 s) :=
  hs.cairnIssue

theorem State.Ok.execCairnRestore (hs : s.Ok) {w : Issue} {fd : SReg} {a1 : AReg} :
    Kept (execCairnRestore w fd a1 s) :=
  hs.cairnIssue

theorem State.Ok.idlePhase (hs : s.Ok) : s.idlePhase.Ok := hs.setFld

theorem State.Ok.goOn (hs : s.Ok) : s.goOn.Ok := by
  unfold State.goOn
  exact .startCairns (.poolsService (hs.foldl fun _ _ ht => ht.startRuns))

theorem State.Ok.execCairnResume (hs : s.Ok) : Kept (execCairnResume s) := by
  unfold Machine.execCairnResume
  split
  · exact .next hs
  · dsimp only
    split
    · exact .next hs
    · refine .ite (.next hs) (.ite (.next hs.readImage.onRsl.idlePhase.endWork.goOn)
        (.ite (.next hs.onRsl.idlePhase.endWork.goOn) (.next (.goOn (.endWork (.idlePhase (.onRsl ?_)))))))
      exact .ite hs.writeImage.bump.onRsl hs.writeImage.bump

theorem State.Ok.drainRun (hs : s.Ok) {d : Drain} {lost : Bool} : (s.drainRun d lost).s.Ok :=
  hs.drawn.chain.forUptoOf VaRes.s fun _ _ ht => .iteOf VaRes.s ht ht.noteRead.vaWrite

theorem State.Ok.execCairnDrainEnd (hs : s.Ok) {lost : Bool} : Kept (execCairnDrainEnd lost s) := by
  unfold Machine.execCairnDrainEnd
  split
  · exact .next hs
  · exact .next (.startCairns (.arriveVa (.ite hs.drainRun.onRsl.setFld hs.drainRun.onRsl.setFld.idlePhase)))

end Sys2Proof.Machine
end

section
/-! The step loop, handles, cancellations and epochs keep the invariant. -/

namespace Sys2Proof.Machine
open Sys2Proof

variable {s : State}

theorem State.Ok.sendStep (hs : s.Ok) {n : Word} : (s.sendStep n).Ok := .ite hs.setReg.notifyAll hs

theorem State.Ok.execLoopStep (hs : s.Ok) {w : Issue} {rd ra : SReg} {imm : Imm} :
    Kept (execLoopStep w rd ra imm s) := by
  unfold Machine.execLoopStep
  refine hs.issueWhen (fun _ ht => .ite ht ht.setFld.reportWait) fun _ ht => .ite ht.seqFault ?_
  exact .ite ht.seqFault (.onSeq (.bump (.sendStep (.loadRow (.withUnitEpoch ht.setFld.amaxRollAll.cursors)))))

theorem State.Ok.execHandleDone (hs : s.Ok) {u : SeqId} {h : BitVec 5} : Kept (execHandleDone u h s) := by
  unfold Machine.execHandleDone
  split
  · exact .next hs
  · split
    · exact .next hs.onSeq.checkEnd.goOn
    · exact .next hs

theorem State.Ok.cancelSeq (hs : s.Ok) {u : SeqId} : (s.cancelSeq u).Ok := by
  unfold State.cancelSeq
  split
  · exact hs
  · exact hs.beginEnd

theorem State.Ok.cancelLaunches (hs : s.Ok) {f : Launcher → Bool} : (s.cancelLaunches f).Ok := by
  unfold State.cancelLaunches
  refine .foldl hs fun _ _ ht => ?_
  split
  · exact ht.onWork
  · exact ht.onCmd
  · exact ht

theorem State.Ok.cancelRunning (hs : s.Ok) {c : Cmd} : (s.cancelRunning c).Ok := by
  unfold State.cancelRunning
  dsimp only
  split
  · exact .ite hs.onCmd.finishCmd (.cancelSeq (hs.onCmd.cancelLaunches.foldl fun _ _ ht => ht.cancelSeq))
  · refine .ite (.finishCmd ?_) ?_
    all_goals exact hs.onCmd.cancelLaunches.foldl fun _ _ ht => ht.cancelSeq
  · exact hs.onCmd.finishCmd

theorem State.Ok.cancelXch (hs : s.Ok) {q : Nat} {tags : Bool} : (s.cancelXch q tags).Ok :=
  .foldl (.ite hs.retireDue hs) fun _ _ ht => ht.cancelRing

theorem State.Ok.execCancel (hs : s.Ok) {q : Fin 64} {idx : BitVec 32} : Kept (execCancel q idx s) := by
  unfold Machine.execCancel
  split
  · exact .next hs
  · extract_lets _ _ _ idle run _ _ t1 t2 t3
    have h1 : t1.Ok := hs.foldl fun _ _ ht => ht.cancelUnstarted
    have h2 : t2.Ok := h1.foldl fun _ _ ht => ht.cancelRunning
    clear_value t2
    have h3 : t3.Ok := h2
    exact .next (.endCmd (.ite h3 h3.cancelXch))

theorem State.Ok.linkSwitched (hs : s.Ok) {l : Nat} : (s.linkSwitched l).Ok :=
  .ite hs (.ite hs.beginRetrain hs.sendHello)

theorem State.Ok.execEpochSwitch (hs : s.Ok) {u : Fin 1068} : Kept (execEpochSwitch u s) := by
  unfold Machine.execEpochSwitch
  refine .ite (.next hs) (.next (.ite (.linkSwitched (.ite (.onSiph ?_) ?_)) (.ite (.onSiph ?_) ?_))) <;> exact hs

end Sys2Proof.Machine
end

section
/-! The start of engine work and the events of running work keep the invariant. -/

namespace Sys2Proof.Machine
open Sys2Proof

variable {s : State}

theorem State.Ok.startDense (hs : s.Ok) {c waited : Nat} {w : Work} {p : Plan} : (startDense s c waited w p).Ok := by
  unfold Machine.startDense
  refine .ite (.ite (.endCoreWork (.bump (.ite hs.planChain hs))) hs.endCoreWork) (.ite hs (.ite hs.endCoreWork (.ite hs ?_)))
  split
  extract_lets ecc t1 t2 t3 run t4
  have h1 : t1.Ok := .ite hs.noteRead hs
  have h3 : t3.Ok := .ite h1.onSeq h1.onSeq.onCore
  have h4 : t4.Ok := h3.onRuns
  clear_value t4
  split
  · exact h4.planStream
  · exact h4

theorem State.Ok.execDenseStart (hs : s.Ok) {c : Fin 800} {sa : Fin 4} {feedWait : BitVec 32} :
    Kept (execDenseStart c sa feedWait s) := by
  unfold Machine.execDenseStart
  dsimp only
  split
  · exact .next hs
  · refine .ite (.next hs) ?_
    split
    · exact .next hs.viewOf.doCvt.endCoreWork.onCore
    · exact .next hs.viewOf.doSclRead.endCoreWork.onCore
    · exact .next hs.viewOf.doSclWrite.endCoreWork.onCore
    · exact .ite (.next hs.viewOf.doBat.endCoreWork.onCore) (.next hs)
    · split
      · exact .next (.ite hs.startDense hs.startDense.onCore)
      · exact .next hs

/-- A step of an array's instruction keeps the invariant when its effect does. -/
theorem State.Ok.onRun (hs : s.Ok) {c sa : Nat} {pick : Dense → Bool} {f : Work → Plan → Dense → State}
    (hf : ∀ w p r, (f w p r).Ok) : Kept (onRun s c sa pick f) := by
  unfold Machine.onRun
  dsimp only
  split
  · exact .next hs
  · split
    · refine .next ?_
      split
      · exact hf _ _ _
      · exact hs
    · exact .next hs

theorem State.Ok.execStationaryLoad (hs : s.Ok) {c : Fin 800} {sa : Fin 4} {feedWait : BitVec 32} :
    Kept (execStationaryLoad c sa feedWait s) := hs.onRun fun _ _ _ => hs.planLoad

theorem State.Ok.execTileConvert (hs : s.Ok) {c : Fin 800} {sa : Fin 4} {convWait : BitVec 32} :
    Kept (execTileConvert c sa convWait s) := by
  unfold Machine.execTileConvert
  refine hs.onRun fun _ _ _ => ?_
  split
  · exact .ite hs (.planConvert (.ite hs.bump hs))
  · exact hs

theorem State.Ok.execTileRecompute (hs : s.Ok) {c : Fin 800} {sa : Fin 4} : Kept (execTileRecompute c sa s) := by
  unfold Machine.execTileRecompute
  refine hs.onRun fun _ _ _ => ?_
  split
  · exact hs.planRecompute
  · exact hs

theorem State.Ok.execSparseStart (hs : s.Ok) {c : Fin 800} : Kept (execSparseStart c s) := by
  unfold Machine.execSparseStart
  extract_lets +onlyGivenNames q
  split
  · exact .next hs
  · refine .ite (.next hs) ?_
    extract_lets +onlyGivenNames d x fin
    have hfin : ∀ f, (∀ t v, t.Ok → (f t v).1.Ok) → Kept (fin f) := fun _ hf => .next (hf _ _ hs.viewOf).endCoreWork
    clear_value fin
    split
    · exact hfin _ fun _ _ ht => ht.doGth
    · exact hfin _ fun _ _ ht => ht.doSct
    · exact hfin _ fun _ _ ht => ht.doSca
    · exact hfin _ fun _ _ ht => ht.doMrgMerge
    · exact hfin _ fun _ _ ht => ht.doMrgBitmap
    · exact hfin _ fun _ _ ht => ht.doTopk
    · exact hfin _ fun _ _ ht => ht.doSeg
    · exact hfin _ fun _ _ ht => ht.doCmp
    · exact hfin _ fun _ _ ht => ht.doPrn
    · exact .next hs

end Sys2Proof.Machine
end

section
/-! Boot, attestation and debug unlock keep the invariant. -/

namespace Sys2Proof.Machine
open Sys2Proof

variable {s : State}

theorem State.Ok.onSec (hs : s.Ok) {f : Sec → Sec} : (s.onSec f).Ok := hs

theorem State.Ok.putFlash (hs : s.Ok) {a : Nat} {bs : List Byte} : (s.putFlash a bs).Ok := by
  induction bs generalizing s a with
  | nil => exact hs
  | cons _ bs ih => exact ih hs.onSec

theorem State.Ok.setDigest (hs : s.Ok) {reg : Nat → Nat} {d : List Byte} : (s.setDigest reg d).Ok :=
  hs.forUpto fun _ _ ht => ht.setReg

theorem State.Ok.bootSlot (hs : s.Ok) {slot fail0 fail1 fallback : Nat} : (s.bootSlot slot fail0 fail1 fallback).Ok :=
  hs.setReg.setDigest.setDigest.setDigest.onSec.setFld

theorem State.Ok.execFirmwareBoot (hs : s.Ok) {read0 read1 : Bool} : Kept (execFirmwareBoot read0 read1 s) :=
  .ite (.next hs) (.ite (.next hs.bootSlot) (.ite (.next hs.bootSlot) (.next hs.setReg)))

theorem State.Ok.execRollbackAdv (hs : s.Ok) {v : BitVec 64} : Kept (execRollbackAdv v s) :=
  .ite (.next hs) (hs.writeReg fun _ _ ht => .ite (.next ht) (.next ht))

theorem State.Ok.startReport (hs : s.Ok) : s.startReport.Ok := by
  unfold State.startReport
  split
  · exact hs
  · exact .ite hs hs.onSec

theorem State.Ok.askAttest (hs : s.Ok) {to_ : ReplyTo} {nonce : List Byte} : (s.askAttest to_ nonce).Ok := by
  unfold State.askAttest
  refine .ite hs.bump.drawn.respond (.startReport (.onSec ?_))
  split
  · exact hs.onMgt
  · exact hs.onMgt
  · exact hs

theorem State.Ok.execAttestSigned (hs : s.Ok) : Kept (execAttestSigned s) := by
  unfold Machine.execAttestSigned
  split
  · exact .next hs
  · split
    · exact .next hs.startReport
    · exact .next hs.onSec.respond.startReport

theorem State.Ok.execDoeDiscovery (hs : s.Ok) {index : BitVec 8} : Kept (execDoeDiscovery index s) :=
  .ite (.next hs) (.next hs.respond)

theorem State.Ok.execDoeAbort (hs : s.Ok) : Kept (execDoeAbort s) := .next hs.onSec.startReport

theorem State.Ok.execDebugNewnonce (hs : s.Ok) : Kept (execDebugNewnonce s) :=
  .ite (.next hs) (.next (.onSec (hs.forUpto fun _ _ ht => ht.drawn.setReg)))

theorem State.Ok.execDebugLock (hs : s.Ok) : Kept (execDebugLock s) := .ite (.next hs) (.next hs.setFld)

theorem State.Ok.token (hs : s.Ok) {t : List Byte} : (s.token t).1.Ok := .iteFst hs.onSec.setFld.setFld hs.onSec

end Sys2Proof.Machine
end

section
/-! The governor, the thermal trip and every reset keep the invariant. -/

namespace Sys2Proof.Machine
open Sys2Proof

variable {s : State}

theorem State.Ok.sample (hs : s.Ok) {x : Sensors} : (s.sample x).Ok := by
  unfold State.sample
  extract_lets l i t1 t2 t3 t4
  have h1 : t1.Ok := .ite hs hs.drawn
  have h2 : t2.Ok := h1.setFld.setReg
  have h3 : t3.Ok := by
    unfold t3
    exact h2.forUpto fun _ _ ht => ht.setReg
  have h4 : t4.Ok := by
    unfold t4
    exact h3.forUpto fun _ _ ht => ht.setReg
  exact .ite h2 h4.setReg

theorem State.Ok.execGovernorInterval (hs : s.Ok) {x : Sensors} : Kept (execGovernorInterval x s) := by
  unfold Machine.execGovernorInterval
  refine .ite (.next hs) ?_
  extract_lets +onlyGivenNames t1 hot power v env
  have h1 : t1.Ok := hs.sample
  clear_value t1
  split
  next c _ =>
  extract_lets +onlyGivenNames floor counted t2 t3 was t4 t5 g t6
  have hc : counted.Ok := by
    unfold counted
    split
    · exact h1.bump
    · exact h1
  have h2 : t2.Ok := .ite h1 hc.setFld
  have h4 : t4.Ok := h2.setFld.setFld
  have h5 : t5.Ok := .ite h4.event h4
  clear_value t5
  have h6 : t6.Ok := h5
  exact .next (.ite h6.setFld.bump h6.setFld)

theorem State.Ok.execConversionDieFault (hs : s.Ok) {d : Fin 12} : Kept (execConversionDieFault d s) :=
  .ite (.next hs) (.next hs.setFld)

theorem State.Ok.execRateSample (hs : s.Ok) {g : Fin 100} {rate : BitVec 16} : Kept (execRateSample g rate s) :=
  .ite (.next hs) (.next hs.setFld.setFld.setFld)

theorem State.Ok.noRate (hs : s.Ok) {g : Nat} : (s.noRate g).Ok := hs.setFld.setFld

theorem State.Ok.endAll (hs : s.Ok) {src : Nat} : (s.endAll src).Ok := by
  unfold State.Ok State.endAll
  dsimp only
  exact (hs.keepRegs _ _).clearScrub

theorem State.Ok.endIslands (hs : s.Ok) {src : Nat} : (s.endIslands src).Ok := by
  unfold State.endIslands
  extract_lets cl mgt sec t1 t2 t3 t4 t5
  have h1 : t1.Ok := .ite (hs.setBar4 (n := 30) (by decide)) hs
  have h3 : t3.Ok := .ite h1.setFld.setFld.setFld.setFld.setFld h1.setFld.setFld.setFld
  clear_value t1 t3
  have h4 : t4.Ok := by
    unfold t4
    exact .ite h1 (h3.forUpto fun _ _ ht => ht.setReg)
  have h5 : t5.Ok := by
    unfold t5
    exact h4.forUpto fun _ _ ht => ht.noRate
  clear_value t5
  refine .ite h4 (.endFunc ?_)
  exact h5

theorem State.Ok.retain (hs : s.Ok) {src : Nat} : (s.retain src).Ok := .ite hs.setReg hs

theorem State.Ok.clearFor (hs : s.Ok) {src : Nat} : (s.clearFor src).Ok := by
  unfold State.clearFor
  with_reducible exact .ite hs.endAll.endIslands.retain.loseMem (hs.endAll.endIslands.retain.forUpto fun _ _ ht => ht.setFld)

theorem State.Ok.begin_ (hs : s.Ok) {src : Nat} : (s.begin_ src).Ok := .ite hs hs.clearFor

theorem State.Ok.activate (hs : s.Ok) {src input : Nat} : (s.activate src input).Ok := .ite hs hs

theorem State.Ok.execPowerOnReset (hs : s.Ok) : Kept (execPowerOnReset s) := by
  unfold Machine.execPowerOnReset
  refine .ite (.next hs) (.next (.begin_ ?_))
  exact hs

theorem State.Ok.execBrownOut (hs : s.Ok) {ov : Bool} : Kept (execBrownOut ov s) := by
  unfold Machine.execBrownOut
  refine .ite (.next hs) (.next (.begin_ (.activate ?_)))
  exact hs

theorem State.Ok.execPinReset (hs : s.Ok) {perst : Bool} : Kept (execPinReset perst s) :=
  .ite (.next hs) (.next hs.activate.begin_)

theorem State.Ok.execWatchdogReset (hs : s.Ok) : Kept (execWatchdogReset s) := .ite (.next hs.begin_) (.next hs)

theorem State.Ok.execSoftwareReset (hs : s.Ok) {v : Option (BitVec 64)} : Kept (execSoftwareReset v s) := by
  unfold Machine.execSoftwareReset
  split
  · exact .ite (.next hs) (hs.writeReg fun _ _ ht => .ite (.next ht.begin_) (.next ht))
  · exact .ite (.next hs.begin_) (.next hs)

theorem State.Ok.execDebugReset (hs : s.Ok) : Kept (execDebugReset s) := .ite (.next hs.begin_) (.next hs)

theorem State.Ok.execClockFailure (hs : s.Ok) {ref : Fin 3} : Kept (execClockFailure ref s) :=
  .next hs.activate.begin_

theorem State.Ok.execLockupReset (hs : s.Ok) {u : SeqId} : Kept (execLockupReset u s) :=
  .ite (.next hs) (.next hs.recordFirst.begin_)

theorem State.Ok.execResetSourceEnd (hs : s.Ok) {src : Fin 8} {input : Fin 3} :
    Kept (execResetSourceEnd src input s) :=
  .next hs

theorem State.Ok.execResetHoldEnd (hs : s.Ok) {x : Straps} : Kept (execResetHoldEnd x s) :=
  .ite (.next hs) (.next (.ite hs.setReg.setReg hs.setReg))

theorem State.Ok.execThermtrip (hs : s.Ok) {_sensor : Fin 64} : Kept (execThermtrip _sensor s) := by
  unfold Machine.execThermtrip
  with_reducible exact .ite (.next hs) (.next hs.clearFor)

theorem State.Ok.execThermtripRelease (hs : s.Ok) {byReset : Bool} : Kept (execThermtripRelease byReset s) :=
  .ite (.next hs) (.next hs)

theorem State.Ok.report (hs : s.Ok) {b : Nat} {fail : Bool} : (s.report b fail).Ok := .ite hs.setFld.event hs.setFld

theorem State.Ok.clearStores (hs : s.Ok) {c : Nat} : (s.clearStores c).Ok := by
  unfold State.Ok State.clearStores
  dsimp only
  refine (hs.dropPoison _).dropCells fun a ha => unlistedAt_congr_chamber (c := c)
    (fun k hk => (SMap.get_keep _ _ _ _ (by simpa using hk)).symm) ?_
  simp only [Bool.not_eq_true', Bool.and_eq_false_iff, decide_eq_false_iff_not] at ha
  omega

theorem State.Ok.clearCore (hs : s.Ok) {c : Nat} : (s.clearCore c).Ok := hs.clearStores

theorem State.Ok.readyCore (hs : s.Ok) {c : Nat} {pass : Bool} : (s.readyCore c pass).Ok := .ite hs.setFld hs

/-- The control-cluster SRAM has no generations of undefined contents: what it loses reads as 0 (R335). -/
theorem State.Ok.keepMem (hs : s.Ok) (p : Nat → Bool) : ({ s with mem := s.mem.keep p } : State).Ok :=
  hs.dropCells fun _ _ => rfl

theorem State.Ok.releaseDom (hs : s.Ok) {d : Nat} {fail : List (Nat × Nat)} : (s.releaseDom d fail).Ok := by
  unfold State.releaseDom
  split
  · exact hs.report
  · exact hs.report
  · extract_lets t
    have ht : t.Ok := .ite hs.drawn.setFld hs
    exact ht.report
  · dsimp only
    refine .forUpto (hs.forUpto fun _ _ ht => ?_) fun _ _ ht => .ite ht.setFld ht
    exact ht.setFld.setFld.report
  · extract_lets +onlyGivenNames sram t1 t2 each
    have h2 : t2.Ok := (hs.keepMem _).report.report.report
    have heach {t : State} {kind n bit : Nat} (ht : t.Ok) : (each t kind n bit).Ok :=
      ht.forUpto fun _ _ ht => .ite ht ht.report
    clear_value each
    exact heach (heach (heach h2))
  · extract_lets g
    clear_value g
    refine hs.foldl fun _ _ ht => ?_
    exact .ite ht.clearCore ht.clearCore.readyCore

theorem State.Ok.execDomainRelease (hs : s.Ok) {fail : List (Fin 9 × Fin 1024)} :
    Kept (execDomainRelease fail s) := by
  unfold Machine.execDomainRelease
  split
  · exact .next hs
  · refine .ite (.next hs) (.next (.releaseDom ?_))
    exact hs

end Sys2Proof.Machine
end

section
/-! Rope passes keep the invariant. -/

namespace Sys2Proof.Machine
open Sys2Proof

variable {s : State}

theorem State.Ok.execRopeLaunch (hs : s.Ok) {r : RopeSrc} : Kept (execRopeLaunch r s) := by
  unfold Machine.execRopeLaunch
  split
  · exact .next hs
  · dsimp only
    split
    · exact .next hs
    · split
      · refine .ite (.next hs) ?_
        split
        · exact .next hs.endWork
        · with_reducible exact .next hs.readMeet.noteRead.runWork
      · exact .next hs

theorem State.Ok.takeTile (hs : s.Ok) {p : Pass} {c stall : Nat} : (s.takeTile p c stall).1.Ok := by
  unfold State.takeTile
  refine .iteFst hs (.iteFst hs.bump.addCounts ?_)
  split
  · exact hs.bump.writeMeet.wr.bump
  · exact hs.bump.writeMeet.wr.bump.arriveAt

theorem State.Ok.execRopeTake (hs : s.Ok) {p : Nat} {stall : BitVec 32} : Kept (execRopeTake p stall s) := by
  unfold Machine.execRopeTake
  split
  · exact .next hs
  · exact .ite (.next hs) (.ite (.next hs) (.next hs.takeTile))

theorem State.Ok.execRopePassReport (hs : s.Ok) {p : Nat} : Kept (execRopePassReport p s) := by
  unfold Machine.execRopePassReport
  split
  · exact .next hs
  · refine .ite (.next hs) (.next (.endWork ?_))
    exact hs

end Sys2Proof.Machine
end

section
/-! Requests on functions and internal faults keep the invariant. -/

namespace Sys2Proof.Machine
open Sys2Proof

variable {s : State}

theorem State.Ok.setReady (hs : s.Ok) {kind i : Nat} {on : Bool} : (s.setReady kind i on).Ok := by
  unfold State.setReady
  dsimp only
  split
  · exact hs.setFld
  · exact hs.foldl fun _ _ ht => .ite ht ht.setFld
  · exact hs.setFld
  · exact hs.setFld
  · exact hs.setFld
  · exact hs

theorem State.Ok.powerDown (hs : s.Ok) {kind i : Nat} : (s.powerDown kind i).Ok := by
  unfold State.powerDown
  dsimp only
  split
  · refine .noRate (.setReady ?_)
    exact hs
  · refine .afterGone (.failReqs (.onLink (.setFld (.setFld (.setFld (.setReady ?_))))))
    exact hs
  · refine .setFld (.setFld (.setReady ?_))
    exact hs
  · refine .setReady ?_
    exact hs

theorem State.Ok.spoilTensor (hs : s.Ok) {root : Word} {eng : Nat} {t : TD} : (s.spoilTensor root eng t).Ok :=
  .ite hs hs.drawn.vaPut

theorem State.Ok.spoilBytes (hs : s.Ok) {a n : Nat} : (s.spoilBytes a n).Ok := hs.drawn.putBytes

theorem State.Ok.dropTransfer (hs : s.Ok) {n : Nat} {t : Transfer} : (s.dropTransfer n t).Ok := by
  unfold State.dropTransfer
  with_reducible exact hs.spoilTensor.onSiph

theorem State.Ok.dropPass (hs : s.Ok) {p : Pass} : (s.dropPass p).Ok :=
  .ite hs (.forUptoFst hs fun _ _ ht => .iteFst ht.spoilBytes ht)

theorem State.Ok.abortCore (hs : s.Ok) {c : Nat} : (s.abortCore c).1.Ok := by
  unfold State.abortCore
  extract_lets +onlyGivenNames u q open_ root t1 t2 t3 t4 t5 t6 gone t7 t8
  have h1 : t1.Ok := hs.foldl fun _ _ ht => ht.foldl fun _ _ ht2 => ht2.spoilTensor
  have h2 : t2.Ok := by
    unfold t2
    exact h1.forUpto fun _ _ ht => ht.foldl fun _ _ ht2 => ht2.dropTransfer
  clear_value t2
  have h5 : t5.Ok := (State.Ok.foldl h2 fun _ _ ht => ht.dropPass).onCore.dropWaits
  have h6 : t6.Ok := h5
  clear_value t6
  have h7 : t7.Ok := h6
  clear_value t7
  have h8 : t8.Ok := by
    refine h7.foldl fun _ _ ht => ?_
    split
    · exact ht.onWork
    · exact .ite ht.onCmd.finishCmd ht.onCmd
    · exact ht
  exact .ite h8 h8.endProgram

theorem State.Ok.abortSip (hs : s.Ok) {n : Nat} : (s.abortSip n).1.Ok :=
  have h := (hs.foldl fun _ _ ht => ht.dropTransfer.endWork).foldl fun _ _ ht => ht.dropPass.endWork
  .foldl h fun _ _ ht => ht.endWork

/-- Aborts keep the invariant in turn when each does. -/
theorem State.Ok.abortAll (hs : s.Ok) {l : List (State → State × Nat)} (hl : ∀ f ∈ l, ∀ t, t.Ok → (f t).1.Ok) :
    (s.abortAll l).1.Ok := by
  unfold State.abortAll
  generalize 0 = n
  induction l generalizing s n with
  | nil => exact hs
  | cons f l ih =>
    exact ih (hl f List.mem_cons_self s hs) (n := n + (f s).2) fun g hg => hl g (List.mem_cons_of_mem _ hg)

theorem State.Ok.abortFunc (hs : s.Ok) {kind i : Nat} : (s.abortFunc kind i).1.Ok := by
  unfold State.abortFunc
  split
  · exact hs.abortCore
  · refine hs.abortAll fun f hf t ht => ?_
    simp only [List.mem_append, List.mem_map, List.mem_cons, List.not_mem_nil, or_false] at hf
    obtain ⟨c, -, rfl⟩ | rfl | rfl := hf
    · exact ht.abortCore
    · exact ht.abortSip
    · exact ht.abortSip
  · exact hs.abortSip
  · exact hs.abortSip
  · exact hs.loseLink
  · exact hs

theorem State.Ok.refuse (hs : s.Ok) {kind i : Nat} : (s.refuse kind i).Ok := .ite hs.dropPair (.poolsService hs)

theorem State.Ok.startRetrain (hs : s.Ok) {kind i : Nat} : (s.startRetrain kind i).Ok := by
  unfold State.startRetrain
  dsimp only
  split
  · exact .ite hs.endFunc (.ite hs.beginRetrain.onMgt hs.endFunc)
  · exact hs.endFunc
  · exact .ite hs.endFunc (.ite hs hs.slice.onMgt)

theorem State.Ok.startFunc (hs : s.Ok) {v : Word} {reply : Option ReplyTo} : (s.startFunc v reply).Ok := by
  unfold State.startFunc
  refine .ite hs.storeReg.onMgt.endFunc ?_
  dsimp only
  split
  · exact hs.storeReg.onMgt.setReg.onMgt
  · exact hs.storeReg.onMgt.setReg.startRetrain
  · exact hs.storeReg.onMgt.setReg.refuse

theorem State.Ok.funcReq (hs : s.Ok) {v : Word} : (s.funcReq v).Ok := .ite hs (.ite hs.bump hs.startFunc)

theorem State.Ok.funcWrite (hs : s.Ok) {action : Nat} {v : Word} : Kept (s.funcWrite action v) :=
  .ite (.next hs) (hs.writeReg fun _ _ ht => .next ht.funcReq)

theorem State.Ok.execFuncDisable (hs : s.Ok) {v : BitVec 64} : Kept (execFuncDisable v s) := hs.funcWrite

theorem State.Ok.execFuncEnable (hs : s.Ok) {v : BitVec 64} : Kept (execFuncEnable v s) := hs.funcWrite

theorem State.Ok.execFuncSelfTest (hs : s.Ok) {v : BitVec 64} : Kept (execFuncSelfTest v s) := hs.funcWrite

theorem State.Ok.execFuncRetrain (hs : s.Ok) {v : BitVec 64} : Kept (execFuncRetrain v s) := hs.funcWrite

theorem State.Ok.execFuncDrainEnd (hs : s.Ok) : Kept (execFuncDrainEnd s) := by
  unfold Machine.execFuncDrainEnd
  split
  · exact .next hs
  · refine .ite (.next hs) (.ite (.next hs.powerDown.endFunc) (.next (.onMgt ?_)))
    exact hs

theorem State.Ok.execFuncAbort (hs : s.Ok) : Kept (execFuncAbort s) := by
  unfold Machine.execFuncAbort
  split
  · exact .next hs
  · refine .ite (.next hs) (.ite (.next hs.abortFunc.bump.powerDown.endFunc) (.ite (.next (.endFunc ?_)) (.next hs)))
    exact hs

theorem State.Ok.execSelfTestDone (hs : s.Ok) {fail : Option (Fin 3)} : Kept (execSelfTestDone fail s) := by
  unfold Machine.execSelfTestDone
  split
  · exact .next hs
  · refine .ite (.next hs) ?_
    dsimp only
    split
    · refine .next (.endFunc (.foldl ?_ fun _ _ ht => ht.clearStores))
      exact hs
    · refine .next (.endFunc (.bump (.powerDown (.foldl ?_ fun _ _ ht => ht.clearStores))))
      exact hs

theorem State.Ok.execFuncEnableDone (hs : s.Ok) {pass : Bool} : Kept (execFuncEnableDone pass s) := by
  unfold Machine.execFuncEnableDone
  split
  · exact .next hs
  · next f _ =>
    refine .ite (.next hs) (.ite (.next (.endFunc ?_)) ?_)
    · split
      · exact hs.report
      · exact hs.report
      · exact hs.report
      · exact hs
    · extract_lets +onlyGivenNames fu fuses t1 t2 t3 t4 t5
      have hf : fuses.h5 = s.fuses.h5 := by
        unfold fuses
        split <;> rfl
      have h1 : t1.Ok := by
        show Sound s.mem s.memGen s.chGen s.regs s.cnt s.poison fuses.h5 s.scrubAt s.bar4
        rw [hf]
        exact hs
      have h2 : t2.Ok := .ite (h1.foldl fun _ _ ht => ht.clearCore) h1
      have h3 : t3.Ok := h2.foldl fun _ _ ht => ht
      have h4 : t4.Ok := h3.setReady
      clear_value t4
      refine .next (.endFunc ?_)
      unfold t5
      split
      · exact .ite h4.setFld h4
      · exact h4.setFld
      · exact h4

theorem State.Ok.disableUnit (hs : s.Ok) {u : Nat} : (s.disableUnit u).Ok := by
  unfold State.disableUnit
  extract_lets via
  have hvia {kind i : Nat} : (via kind i).Ok := hs.abortFunc.bump.powerDown
  clear_value via
  refine .ite hvia (.ite hvia (.ite hvia (.ite (.powerDown ?_) (.ite hvia (.ite hvia hs.powerDown)))))
  exact hs.forUpto fun _ _ ht => ht.dropPair

theorem State.Ok.execInternalFault (hs : s.Ok) {unit : Fin 1068} {control : Bool} {work : Option (SeqId × BitVec 5)} :
    Kept (execInternalFault unit control work s) := by
  unfold Machine.execInternalFault
  refine .ite (.next hs) (.next (.ite (.disableUnit (.internal ?_)) (.internal ?_)))
  all_goals
    split
    · split
      · exact hs.endWork
      · exact hs
    · exact .ite (hs.foldl fun _ _ ht => ht.endX) hs

end Sys2Proof.Machine
end

section
/-! The packet mesh keeps the invariant. -/

namespace Sys2Proof.Machine
open Sys2Proof

variable {s : State}

theorem State.Ok.poisonOwner (hs : s.Ok) {o : PacketOwner} : (s.poisonOwner o).Ok := by
  unfold State.poisonOwner
  split
  · exact hs
  · exact hs.onSeq
  · exact hs.onSeq
  · exact hs.onCmd
  · exact hs
  · exact hs

theorem State.Ok.meshArrive (hs : s.Ok) {c ch : Nat} {p : MeshPkt} {e : Ecc} : (s.meshArrive c ch p e).Ok := by
  unfold State.meshArrive
  refine .ite (.ite (.poisonOwner ?_) ?_) ?_
  · split
    · exact hs
    · exact hs.bump
    · exact hs.bump
  · split
    · exact hs
    · exact hs.bump
    · exact hs.bump
  · dsimp only
    split
    · exact hs
    · exact hs.bump
    · exact hs.bump

theorem State.Ok.execMeshPacketReceive (hs : s.Ok) {c : Fin 800} {from_ : Fin 5} {ch : Fin 4} {dst : Fin 800}
    {e : Ecc} {owner : PacketOwner} : Kept (execMeshPacketReceive c from_ ch dst e owner s) := by
  unfold Machine.execMeshPacketReceive
  refine .ite (.next hs) (.ite (.next (.ite hs.meshArrive hs)) ?_)
  split
  · exact .next hs
  · refine .ite (.next hs) ?_
    split
    · exact .next hs
    · refine .next (.meshArrive ?_)
      exact hs

end Sys2Proof.Machine
end

section
/-! Accesses to the register space keep the invariant. -/

namespace Sys2Proof.Machine
open Sys2Proof

variable {s : State}

theorem State.Ok.hostMiss (hs : s.Ok) {bar off : Nat} {wr : Bool} : (s.hostMiss bar off wr).Ok :=
  .ite hs hs.bump.recordFirst

theorem State.Ok.regClear (hs : s.Ok) {r : RegDef} {off : Nat} : (s.regClear r off).Ok := by
  unfold State.regClear
  refine .ite ?_ hs
  exact hs.putCount off (Nat.zero_le _)

theorem State.Ok.regLoad (hs : s.Ok) {off : Nat} {p : Part} : (s.regLoad off p).1.Ok := by
  unfold State.regLoad
  split
  all_goals
    split
    all_goals
      split
      · exact hs.hostMiss
      · exact .iteFst hs.hostMiss hs.regClear

theorem State.Ok.outState (hs : s.Ok) {o : Out} (ho : Kept o) : (outState s o).Ok := by
  cases o with
  | next t => exact ho t rfl
  | _ => exact hs

theorem State.Ok.sendPending (hs : s.Ok) {v : Nat} : (s.sendPending v).Ok := .ite hs.setFld.msix hs

theorem State.Ok.spoilSlot (hs : s.Ok) {n k : Nat} : (s.spoilSlot n k).Ok := hs.onSiph

theorem State.Ok.clearRecord (hs : s.Ok) {off : Nat} {v : Word} : (s.clearRecord off v).Ok :=
  .ite hs.setReg hs.storeReg

theorem State.Ok.mailbox (hs : s.Ok) {v mask : Word} : (s.mailbox v mask).Ok :=
  .ite (.ite hs.bump hs.storeReg.onMgt) hs.storeReg

theorem State.Ok.kick (hs : s.Ok) {v : Word} : (s.kick v).Ok := .ite hs.setFld hs

theorem State.Ok.linkCtl (hs : s.Ok) {l : Fin 12} {v : Word} : (s.linkCtl l v).Ok := by
  unfold State.linkCtl
  extract_lets t1 t2
  have h1 : t1.Ok := .ite (hs.outState hs.execLinkExclude) hs
  have h2 : t2.Ok := .ite (h1.outState h1.execLinkRecheck) h1
  exact .ite (h2.outState h2.execLinkRetrainRequest) h2

theorem State.Ok.debugCtl (hs : s.Ok) {v : Word} : (s.debugCtl v).Ok := by
  unfold State.debugCtl
  extract_lets t
  have ht : t.Ok := .ite (hs.outState hs.execDebugNewnonce) hs
  exact .ite (ht.outState ht.execDebugLock) ht

theorem State.Ok.regAct (hs : s.Ok) {r : RegDef} {ix : List Nat} {off : Nat} {v w mask : Word} :
    (s.regAct r ix off v w mask).Ok := by
  unfold State.regAct
  dsimp only
  split
  · exact .ite (hs.outState hs.execSqCfgWrite) hs.storeReg
  · exact .ite (hs.outState hs.execCqCfgWrite) hs.storeReg
  · exact .ite (hs.outState hs.execCqHeadWrite) hs.storeReg
  · exact .ite (hs.outState hs.execSqDoorbell) hs.storeReg
  · exact .ite (hs.outState hs.execWringCfgWrite) hs.storeReg
  · exact .ite (hs.outState hs.execCringCfgWrite) hs.storeReg
  · exact .ite (hs.outState hs.execLinkCfgWrite) hs.storeReg
  · exact hs.linkCtl
  · exact hs.outState hs.execMemClear
  · exact hs.outState hs.execDieMarkWrite
  · exact .ite (hs.outState hs.execHdmCommit) hs.storeReg
  · exact hs.outState hs.execCxlCfgRequest
  · exact .ite (hs.outState hs.execCxlPortCfgWrite) hs.storeReg
  · exact .ite (hs.outState hs.execTlbInv) hs
  · exact hs.outState hs.execRslDrop
  · exact .ite (hs.storeReg.outState hs.storeReg.execHoldRelease) (hs.outState hs.execHoldStart)
  · exact hs.drawn.outState hs.drawn.execRestoreStart
  · exact hs.outState hs.execRollbackAdv
  · exact hs.debugCtl
  · exact hs.outState hs.execSoftwareReset
  · exact hs.kick
  · exact .ite hs.funcReq hs.storeReg
  · exact hs.mailbox
  · exact .ite hs.storeReg hs.storeReg.sendPending
  · exact hs.storeReg.setFld
  · exact hs.storeReg.setFld.setFld
  · exact hs.storeReg.spoilSlot
  · exact hs.storeReg.spoilSlot
  · exact hs.clearRecord
  · exact hs.clearRecord
  · exact hs.clearRecord
  · exact hs.clearRecord
  · exact hs.clearRecord
  · exact hs.clearRecord
  · exact hs.clearRecord
  · exact hs.clearRecord
  · exact hs.clearRecord
  · exact hs.clearRecord
  · exact hs.storeReg

theorem State.Ok.regWrite (hs : s.Ok) {r : RegDef} {ix : List Nat} {off : Nat} {w mask : Word} :
    (s.regWrite r ix off w mask).Ok :=
  .ite hs.regAct (.ite hs.drawn.regAct hs.drawn.storeReg)

theorem State.Ok.regStore (hs : s.Ok) {off : Nat} {p : Part} {v : Word} : (s.regStore off p v).Ok := by
  unfold State.regStore
  dsimp only
  split
  · exact hs.hostMiss
  · exact .ite hs.regWrite hs.hostMiss

theorem State.Ok.execCounterRead (hs : s.Ok) {off : BitVec 33} {p : Part} : Kept (execCounterRead off p s) :=
  .ite (.ite (.next hs.hostMiss.send) (.next hs.send)) (.next hs.regLoad.send)

theorem State.Ok.execRegisterWrite (hs : s.Ok) {off : BitVec 33} {p : Part} {v : BitVec 64} :
    Kept (execRegisterWrite off p v s) :=
  .ite (.ite (.next hs.hostMiss) (.ite (.next hs.onMgt) (.next hs.onMgt))) (.next hs.regStore)

theorem State.Ok.globalLoad (hs : s.Ok) {w : Issue} {rd : SReg} {aa : AReg} {imm : Imm} {n : Nat} :
    Kept (globalLoad w rd aa imm n s) := by
  unfold Machine.globalLoad
  refine hs.issueWhen (fun _ ht => ht) fun t ht => ?_
  extract_lets va root done
  have hdone {u : State} {v : Word} (hu : u.Ok) : (done u v).Ok := hu.onSeq.adv
  clear_value done
  refine .ite ht.seqFault (.ite (hdone ht.regLoad) ?_)
  split
  · exact ht.noteXlat.seqFault
  · refine .ite ht.onSeq.seqFault (.ite ht.noteRead.seqFault ?_)
    split
    next hm =>
    have h1 := State.Ok.of_eq Prod.fst hm ht.noteRead.poolTouch.readMeet
    split
    next hp =>
    have h2 := State.Ok.of_eq Prod.fst hp h1.readUpdated
    exact hdone h2
  · split
    · next hp => exact hdone (State.Ok.of_eq Prod.fst hp ht.peerRead)
    · next hp => exact (State.Ok.of_eq Prod.fst hp ht.peerRead).seqFault

theorem State.Ok.globalStore (hs : s.Ok) {w : Issue} {rd : SReg} {aa : AReg} {imm : Imm} {n : Nat} :
    Kept (globalStore w rd aa imm n s) := by
  unfold Machine.globalStore
  refine hs.issueWhen (fun _ ht => ht) fun t ht => ?_
  extract_lets va root v
  refine .ite ht.seqFault (.ite ht.adv.regStore ?_)
  split
  · exact ht.noteXlat.seqFault
  · split
    next hm =>
    have h1 := State.Ok.of_eq Prod.fst hm ht.poolTouch.writeMeet
    split
    next hp =>
    have h2 := State.Ok.of_eq Prod.fst hp h1.writeUpdated
    exact h2.wr.adv
  · split
    · next hp => exact (State.Ok.of_eq Prod.fst hp ht.peerSend).onSeq.adv
    · next hp => exact (State.Ok.of_eq Prod.fst hp ht.peerSend).seqFault

theorem State.Ok.execGlw (hs : s.Ok) {w : Issue} {rd : SReg} {aa : AReg} {imm : Imm} : Kept (execGlw w rd aa imm s) :=
  hs.globalLoad

theorem State.Ok.execGld (hs : s.Ok) {w : Issue} {rd : SReg} {aa : AReg} {imm : Imm} : Kept (execGld w rd aa imm s) :=
  hs.globalLoad

theorem State.Ok.execGstw (hs : s.Ok) {w : Issue} {rd : SReg} {aa : AReg} {imm : Imm} :
    Kept (execGstw w rd aa imm s) :=
  hs.globalStore

theorem State.Ok.execGst (hs : s.Ok) {w : Issue} {rd : SReg} {aa : AReg} {imm : Imm} : Kept (execGst w rd aa imm s) :=
  hs.globalStore

end Sys2Proof.Machine
end

section
/-! Host accesses and the host link keep the invariant, and so does a new size of BAR4 (R455). -/

namespace Sys2Proof.Machine
open Sys2Proof

variable {s : State}

theorem State.Ok.noteWindowMiss (hs : s.Ok) {off : Nat} {wr : Bool} : (s.noteWindowMiss off wr).Ok := by
  unfold State.noteWindowMiss
  refine .hostMiss ?_
  split
  · exact .ite hs.bump hs
  · exact hs

theorem State.Ok.execHostWindowAccess (hs : s.Ok) {off : BitVec 40} {x : HostAcc} :
    Kept (execHostWindowAccess off x s) := by
  unfold Machine.execHostWindowAccess
  refine .ite (.next hs) (.ite (.next (.ite hs.noteWindowMiss hs.noteWindowMiss.send)) (.ite (.next hs) ?_))
  dsimp only
  split
  · exact .next hs.poolTouch.wr
  · exact .ite (.next hs.poolTouch.noteRead.bump.send) (.next hs.poolTouch.noteRead.send)

theorem State.Ok.execHostAccessMiss (hs : s.Ok) {bar : Bar} {off : BitVec 40} {n : Fin 65} {wr : Bool} :
    Kept (execHostAccessMiss bar off n wr s) := by
  unfold Machine.execHostAccessMiss
  refine .ite (.next hs) (.next (.ite ?_ (.send ?_)))
  all_goals
    split
    · exact hs.hostMiss
    · exact hs.hostMiss
    · exact hs.noteWindowMiss

theorem State.Ok.execHostDmaFail (hs : s.Ok) {at_ : DmaAt} {poison : Bool} : Kept (execHostDmaFail at_ poison s) := by
  unfold Machine.execHostDmaFail
  extract_lets +onlyGivenNames t code
  have ht : t.Ok := hs.bump
  clear_value t
  split
  · exact .ite (.next ht.stopQueue) (.next hs)
  · split
    · exact .ite (.next ht.endCmd) (.next hs)
    · exact .next hs
  · split
    · refine .ite (.next hs) ?_
      extract_lets x o v y z
      have hx : x.s.Ok := ht.forUptoOf Copy.s fun _ _ ht => ht.copyOne
      have hy : y.Ok := hx.recordFirst
      have hz : z.Ok := .ite hy hy.setReg
      exact .ite (.next hs) (.next hz.endCmd)
    · exact .next hs
  · split
    · exact .ite (.next hs) (.next ht.sipFault.setXfer)
    · exact .next hs
  · exact .ite (.next hs) (.next ht.seqFault)

theorem State.Ok.execHostLinkUp (hs : s.Ok) {c : HostCfg} : Kept (execHostLinkUp c s) := by
  unfold Machine.execHostLinkUp
  refine .ite (.next hs) ?_
  extract_lets o v t0 t
  have hbar : 30 ≤ 30 + c.bar4.val ∧ 30 + c.bar4.val ≤ 40 := by omega
  have ht : t.Ok := hs.setReg.setBar4 hbar
  clear_value t
  refine .next (.ite (.foldl ?_ fun _ _ ht => ht.msix) ht)
  exact ht

theorem State.Ok.execHostLinkDown (hs : s.Ok) {bmeOnly : Bool} : Kept (execHostLinkDown bmeOnly s) :=
  .ite (.next hs) (.ite (.next hs.setFld) (.next hs.setFld.setFld))

theorem State.Ok.execMsixUnmask (hs : s.Ok) {v : Option (Fin 2048)} : Kept (execMsixUnmask v s) := by
  unfold Machine.execMsixUnmask
  refine .ite (.next hs) ?_
  split
  · exact .next hs.setFld.sendPending
  · exact .next (.forUpto hs fun _ _ ht => .ite ht ht.sendPending)

end Sys2Proof.Machine
end

section
/-! Scalar loads and stores by word index keep the invariant. -/

namespace Sys2Proof.Machine
open Sys2Proof

variable {s : State}

theorem State.Ok.loadWords (hs : s.Ok) {w : Issue} {rd : SReg} {aa : AReg} {imm : Imm} {n : Nat} {f : Nat → Word} :
    Kept (loadWords w rd aa imm n f s) :=
  hs.issue fun _ ht => .ite ht.seqFault (.ite ht.seqFault (.ite ht.noteRead.seqFault ht.readMeet.onSeq.adv))

theorem State.Ok.storeWordsAt (hs : s.Ok) {w : Issue} {rd : SReg} {aa : AReg} {imm : Imm} {n : Nat} :
    Kept (storeWordsAt w rd aa imm n s) :=
  hs.issue fun _ ht => .ite ht.seqFault (.ite ht.seqFault ht.writeMeet.wr.adv)

theorem State.Ok.execLdw (hs : s.Ok) {w : Issue} {rd : SReg} {aa : AReg} {imm : Imm} : Kept (execLdw w rd aa imm s) :=
  hs.loadWords

theorem State.Ok.execLdws (hs : s.Ok) {w : Issue} {rd : SReg} {aa : AReg} {imm : Imm} :
    Kept (execLdws w rd aa imm s) :=
  hs.loadWords

theorem State.Ok.execLdd (hs : s.Ok) {w : Issue} {rd : SReg} {aa : AReg} {imm : Imm} : Kept (execLdd w rd aa imm s) :=
  hs.loadWords

theorem State.Ok.execStw (hs : s.Ok) {w : Issue} {rd : SReg} {aa : AReg} {imm : Imm} : Kept (execStw w rd aa imm s) :=
  hs.storeWordsAt

theorem State.Ok.execStd (hs : s.Ok) {w : Issue} {rd : SReg} {aa : AReg} {imm : Imm} : Kept (execStd w rd aa imm s) :=
  hs.storeWordsAt

end Sys2Proof.Machine
end

section
/-! Management messages, sensors and the watchdog keep the invariant. -/

namespace Sys2Proof.Machine
open Sys2Proof

variable {s : State}

theorem State.Ok.bootAnswer (hs : s.Ok) : s.bootAnswer.Ok := hs.send

/-- A management message keeps the invariant when what serves it does. -/
theorem State.Ok.serve (hs : s.Ok) {v : Via} {ty : Nat} {ok : Msg → Bool} {f : ReplyTo → Msg → State}
    (hf : ∀ r m, (f r m).Ok) : Kept (serve v ty ok s f) := by
  unfold Machine.serve
  refine .ite (.next hs.bootAnswer) (.ite (.next hs) ?_)
  split
  split
  · exact .next hs.respond
  · exact .ite (.next (.ite (hf _ _) hs.respond)) (.ite (.next hs) (.next hs.respond))

theorem State.Ok.execReadReg (hs : s.Ok) {v : Via} : Kept (execReadReg v s) := hs.serve fun _ _ => hs.respond

theorem State.Ok.execWriteReg (hs : s.Ok) {v : Via} : Kept (execWriteReg v s) := by
  unfold Machine.execWriteReg
  refine hs.serve fun _ _ => .ite (.respond ?_) ?_
  all_goals
    split
    · exact hs.regWrite
    · exact hs

theorem State.Ok.execPeek (hs : s.Ok) {v : Via} : Kept (execPeek v s) := by
  unfold Machine.execPeek
  exact hs.serve fun _ _ => hs.respond

theorem State.Ok.execFunc (hs : s.Ok) {v : Via} : Kept (execFunc v s) :=
  .ite (.next hs) (hs.serve fun _ _ => hs.onMgt.startFunc)

theorem State.Ok.execFlashWrite (hs : s.Ok) {v : Via} : Kept (execFlashWrite v s) :=
  hs.serve fun _ _ => .ite hs.respond hs.putFlash.respond

theorem State.Ok.execAttest (hs : s.Ok) {a : Asker} : Kept (execAttest a s) := by
  unfold Machine.execAttest
  split
  · exact hs.serve fun _ _ => hs.askAttest
  · exact .ite (.next hs) (.next (.ite hs.askAttest hs.respond))
  · exact .next (.ite hs.askAttest hs)
  · exact .next hs

theorem State.Ok.execCerts (hs : s.Ok) {a : Asker} : Kept (execCerts a s) := by
  unfold Machine.execCerts
  split
  · exact hs.serve fun _ _ => hs.respond
  · exact .ite (.next hs) (.next hs.respond)
  · exact .next (.ite hs.respond hs)
  · exact .next hs

theorem State.Ok.execDebugToken (hs : s.Ok) {a : Asker} : Kept (execDebugToken a s) := by
  unfold Machine.execDebugToken
  split
  · exact hs.serve fun _ _ => hs.token.respond
  · exact .ite (.next hs.token) (.next hs)
  · exact .next hs
  · exact .next hs

theorem State.Ok.execSetEndpointId (hs : s.Ok) {eid : BitVec 8} : Kept (execSetEndpointId eid s) :=
  .ite (.next hs.bootAnswer) (.ite (.next hs) (.next hs.onMgt.send))

theorem State.Ok.execPldmSensorRead (hs : s.Ok) {id : BitVec 16} : Kept (execPldmSensorRead id s) :=
  .ite (.next hs.bootAnswer) (.ite (.next hs) (.next hs.send))

theorem State.Ok.execWdogKick (hs : s.Ok) {v : BitVec 64} : Kept (execWdogKick v s) :=
  .ite (.next hs) (hs.writeReg fun _ _ ht => .next ht.kick)

theorem State.Ok.execWdogStage1 (hs : s.Ok) : Kept (execWdogStage1 s) := .ite (.next hs.setFld.event) (.next hs)

end Sys2Proof.Machine
end

section
/-! The scalar instructions keep the invariant: each is issued under its predicate. -/

namespace Sys2Proof.Machine
open Sys2Proof

variable {s : State}

theorem State.Ok.aluR (hs : s.Ok) {f : Word → Word → Word} {w : Issue} {rd ra rb : SReg} :
    Kept (aluR f w rd ra rb s) :=
  hs.issue fun _ ht => ht.onSeq.adv

theorem State.Ok.aluI (hs : s.Ok) {f : Word → Word → Word} {w : Issue} {rd ra : SReg} {imm : Imm} :
    Kept (aluI f w rd ra imm s) :=
  hs.issue fun _ ht => ht.onSeq.adv

theorem State.Ok.cmpR (hs : s.Ok) {f : Word → Word → Bool} {w : Issue} {pd : PReg} {ra rb : SReg} :
    Kept (cmpR f w pd ra rb s) :=
  hs.issue fun _ ht => ht.onSeq.adv

theorem State.Ok.cmpI (hs : s.Ok) {f : Word → Word → Bool} {w : Issue} {pd : PReg} {ra : SReg} {imm : Imm} :
    Kept (cmpI f w pd ra imm s) :=
  hs.issue fun _ ht => ht.onSeq.adv

theorem State.Ok.prdR (hs : s.Ok) {f : Bool → Bool → Bool} {w : Issue} {pd pa pb : PReg} :
    Kept (prdR f w pd pa pb s) :=
  hs.issue fun _ ht => ht.onSeq.adv

theorem State.Ok.execAdd (hs : s.Ok) {w : Issue} {rd ra rb : SReg} : Kept (execAdd w rd ra rb s) := hs.aluR

theorem State.Ok.execSub (hs : s.Ok) {w : Issue} {rd ra rb : SReg} : Kept (execSub w rd ra rb s) := hs.aluR

theorem State.Ok.execAnd (hs : s.Ok) {w : Issue} {rd ra rb : SReg} : Kept (execAnd w rd ra rb s) := hs.aluR

theorem State.Ok.execOr (hs : s.Ok) {w : Issue} {rd ra rb : SReg} : Kept (execOr w rd ra rb s) := hs.aluR

theorem State.Ok.execXor (hs : s.Ok) {w : Issue} {rd ra rb : SReg} : Kept (execXor w rd ra rb s) := hs.aluR

theorem State.Ok.execSll (hs : s.Ok) {w : Issue} {rd ra rb : SReg} : Kept (execSll w rd ra rb s) := hs.aluR

theorem State.Ok.execSrl (hs : s.Ok) {w : Issue} {rd ra rb : SReg} : Kept (execSrl w rd ra rb s) := hs.aluR

theorem State.Ok.execSra (hs : s.Ok) {w : Issue} {rd ra rb : SReg} : Kept (execSra w rd ra rb s) := hs.aluR

theorem State.Ok.execMul (hs : s.Ok) {w : Issue} {rd ra rb : SReg} : Kept (execMul w rd ra rb s) := hs.aluR

theorem State.Ok.execMulhu (hs : s.Ok) {w : Issue} {rd ra rb : SReg} : Kept (execMulhu w rd ra rb s) := hs.aluR

theorem State.Ok.execDivu (hs : s.Ok) {w : Issue} {rd ra rb : SReg} : Kept (execDivu w rd ra rb s) := hs.aluR

theorem State.Ok.execRemu (hs : s.Ok) {w : Issue} {rd ra rb : SReg} : Kept (execRemu w rd ra rb s) := hs.aluR

theorem State.Ok.execDiv (hs : s.Ok) {w : Issue} {rd ra rb : SReg} : Kept (execDiv w rd ra rb s) := hs.aluR

theorem State.Ok.execRem (hs : s.Ok) {w : Issue} {rd ra rb : SReg} : Kept (execRem w rd ra rb s) := hs.aluR

theorem State.Ok.execMin (hs : s.Ok) {w : Issue} {rd ra rb : SReg} : Kept (execMin w rd ra rb s) := hs.aluR

theorem State.Ok.execMax (hs : s.Ok) {w : Issue} {rd ra rb : SReg} : Kept (execMax w rd ra rb s) := hs.aluR

theorem State.Ok.execAddi (hs : s.Ok) {w : Issue} {rd ra : SReg} {imm : Imm} : Kept (execAddi w rd ra imm s) :=
  hs.aluI

theorem State.Ok.execSubi (hs : s.Ok) {w : Issue} {rd ra : SReg} {imm : Imm} : Kept (execSubi w rd ra imm s) :=
  hs.aluI

theorem State.Ok.execAndi (hs : s.Ok) {w : Issue} {rd ra : SReg} {imm : Imm} : Kept (execAndi w rd ra imm s) :=
  hs.aluI

theorem State.Ok.execOri (hs : s.Ok) {w : Issue} {rd ra : SReg} {imm : Imm} : Kept (execOri w rd ra imm s) := hs.aluI

theorem State.Ok.execXori (hs : s.Ok) {w : Issue} {rd ra : SReg} {imm : Imm} : Kept (execXori w rd ra imm s) :=
  hs.aluI

theorem State.Ok.execSlli (hs : s.Ok) {w : Issue} {rd ra : SReg} {imm : Imm} : Kept (execSlli w rd ra imm s) :=
  hs.aluI

theorem State.Ok.execSrli (hs : s.Ok) {w : Issue} {rd ra : SReg} {imm : Imm} : Kept (execSrli w rd ra imm s) :=
  hs.aluI

theorem State.Ok.execSrai (hs : s.Ok) {w : Issue} {rd ra : SReg} {imm : Imm} : Kept (execSrai w rd ra imm s) :=
  hs.aluI

theorem State.Ok.execMuli (hs : s.Ok) {w : Issue} {rd ra : SReg} {imm : Imm} : Kept (execMuli w rd ra imm s) :=
  hs.aluI

theorem State.Ok.execMulhui (hs : s.Ok) {w : Issue} {rd ra : SReg} {imm : Imm} : Kept (execMulhui w rd ra imm s) :=
  hs.aluI

theorem State.Ok.execDivui (hs : s.Ok) {w : Issue} {rd ra : SReg} {imm : Imm} : Kept (execDivui w rd ra imm s) :=
  hs.aluI

theorem State.Ok.execRemui (hs : s.Ok) {w : Issue} {rd ra : SReg} {imm : Imm} : Kept (execRemui w rd ra imm s) :=
  hs.aluI

theorem State.Ok.execDivi (hs : s.Ok) {w : Issue} {rd ra : SReg} {imm : Imm} : Kept (execDivi w rd ra imm s) :=
  hs.aluI

theorem State.Ok.execRemi (hs : s.Ok) {w : Issue} {rd ra : SReg} {imm : Imm} : Kept (execRemi w rd ra imm s) :=
  hs.aluI

theorem State.Ok.execMini (hs : s.Ok) {w : Issue} {rd ra : SReg} {imm : Imm} : Kept (execMini w rd ra imm s) :=
  hs.aluI

theorem State.Ok.execMaxi (hs : s.Ok) {w : Issue} {rd ra : SReg} {imm : Imm} : Kept (execMaxi w rd ra imm s) :=
  hs.aluI

theorem State.Ok.execCeq (hs : s.Ok) {w : Issue} {pd : PReg} {ra rb : SReg} : Kept (execCeq w pd ra rb s) := hs.cmpR

theorem State.Ok.execCne (hs : s.Ok) {w : Issue} {pd : PReg} {ra rb : SReg} : Kept (execCne w pd ra rb s) := hs.cmpR

theorem State.Ok.execClt (hs : s.Ok) {w : Issue} {pd : PReg} {ra rb : SReg} : Kept (execClt w pd ra rb s) := hs.cmpR

theorem State.Ok.execCltu (hs : s.Ok) {w : Issue} {pd : PReg} {ra rb : SReg} : Kept (execCltu w pd ra rb s) := hs.cmpR

theorem State.Ok.execCge (hs : s.Ok) {w : Issue} {pd : PReg} {ra rb : SReg} : Kept (execCge w pd ra rb s) := hs.cmpR

theorem State.Ok.execCgeu (hs : s.Ok) {w : Issue} {pd : PReg} {ra rb : SReg} : Kept (execCgeu w pd ra rb s) := hs.cmpR

theorem State.Ok.execCeqi (hs : s.Ok) {w : Issue} {pd : PReg} {ra : SReg} {imm : Imm} :
    Kept (execCeqi w pd ra imm s) :=
  hs.cmpI

theorem State.Ok.execCnei (hs : s.Ok) {w : Issue} {pd : PReg} {ra : SReg} {imm : Imm} :
    Kept (execCnei w pd ra imm s) :=
  hs.cmpI

theorem State.Ok.execClti (hs : s.Ok) {w : Issue} {pd : PReg} {ra : SReg} {imm : Imm} :
    Kept (execClti w pd ra imm s) :=
  hs.cmpI

theorem State.Ok.execCltui (hs : s.Ok) {w : Issue} {pd : PReg} {ra : SReg} {imm : Imm} :
    Kept (execCltui w pd ra imm s) :=
  hs.cmpI

theorem State.Ok.execCgei (hs : s.Ok) {w : Issue} {pd : PReg} {ra : SReg} {imm : Imm} :
    Kept (execCgei w pd ra imm s) :=
  hs.cmpI

theorem State.Ok.execCgeui (hs : s.Ok) {w : Issue} {pd : PReg} {ra : SReg} {imm : Imm} :
    Kept (execCgeui w pd ra imm s) :=
  hs.cmpI

theorem State.Ok.execPand (hs : s.Ok) {w : Issue} {pd pa pb : PReg} : Kept (execPand w pd pa pb s) := hs.prdR

theorem State.Ok.execPor (hs : s.Ok) {w : Issue} {pd pa pb : PReg} : Kept (execPor w pd pa pb s) := hs.prdR

theorem State.Ok.execPxor (hs : s.Ok) {w : Issue} {pd pa pb : PReg} : Kept (execPxor w pd pa pb s) := hs.prdR

theorem State.Ok.execPnot (hs : s.Ok) {w : Issue} {pd pa : PReg} : Kept (execPnot w pd pa s) :=
  hs.issue fun _ ht => ht.onSeq.adv

theorem State.Ok.execMov (hs : s.Ok) {w : Issue} {rd ra : XReg} : Kept (execMov w rd ra s) :=
  hs.issue fun _ ht => ht.onSeq.adv

theorem State.Ok.execLi (hs : s.Ok) {w : Issue} {rd : XReg} {imm : Imm} : Kept (execLi w rd imm s) :=
  hs.issue fun _ ht => ht.onSeq.adv

theorem State.Ok.execLih (hs : s.Ok) {w : Issue} {rd : XReg} {imm : Imm} : Kept (execLih w rd imm s) := by
  unfold Machine.execLih
  refine hs.issue fun _ ht => ?_
  split
  · exact ht.seqFault
  · exact ht.onSeq.adv

theorem State.Ok.execSel (hs : s.Ok) {w : Issue} {rd ra rb : SReg} {pc : PReg} : Kept (execSel w rd ra rb pc s) :=
  hs.issue fun _ ht => ht.onSeq.adv

theorem State.Ok.execAadd (hs : s.Ok) {w : Issue} {ad aa : AReg} {imm : Imm} : Kept (execAadd w ad aa imm s) :=
  hs.issue fun _ ht => ht.onSeq.adv

theorem State.Ok.execAidx (hs : s.Ok) {w : Issue} {ad aa : AReg} {rb : SReg} : Kept (execAidx w ad aa rb s) :=
  hs.issue fun _ ht => ht.onSeq.adv

theorem State.Ok.execAscl (hs : s.Ok) {w : Issue} {ad : AReg} {ra : SReg} {imm : Imm} :
    Kept (execAscl w ad ra imm s) :=
  hs.issue fun _ ht => ht.onSeq.adv

theorem State.Ok.execBr (hs : s.Ok) {w : Issue} {imm : Imm} : Kept (execBr w imm s) := hs.issue fun _ ht => ht.jump

theorem State.Ok.execBrl (hs : s.Ok) {w : Issue} {rd : SReg} {imm : Imm} : Kept (execBrl w rd imm s) :=
  hs.issue fun _ ht => ht.jump

theorem State.Ok.execJr (hs : s.Ok) {w : Issue} {ra : SReg} : Kept (execJr w ra s) := hs.issue fun _ ht => ht.jump

theorem State.Ok.execBdec (hs : s.Ok) {w : Issue} {rd : SReg} {imm : Imm} : Kept (execBdec w rd imm s) :=
  hs.issue fun _ ht => .ite ht.jump ht.onSeq.adv

theorem State.Ok.execWait (hs : s.Ok) {w : Issue} {rd : SReg} {h : BitVec 5} : Kept (execWait w rd h s) :=
  hs.issueWhen (fun _ ht => ht.park) fun _ ht => ht.onSeq.adv

theorem State.Ok.execWaitm (hs : s.Ok) {w : Issue} {rd : SReg} {m : Imm} : Kept (execWaitm w rd m s) :=
  hs.issueWhen (fun _ ht => ht.park) fun _ ht => ht.onSeq.adv

theorem State.Ok.execHtst (hs : s.Ok) {w : Issue} {pd : PReg} {h : BitVec 5} : Kept (execHtst w pd h s) :=
  hs.issue fun _ ht => ht.onSeq.adv

theorem State.Ok.execHtstm (hs : s.Ok) {w : Issue} {pd : PReg} {m : Imm} : Kept (execHtstm w pd m s) :=
  hs.issue fun _ ht => ht.onSeq.adv

theorem State.Ok.execNop (hs : s.Ok) {w : Issue} : Kept (execNop w s) := hs.issue fun _ ht => ht.adv

theorem State.Ok.execEndProg (hs : s.Ok) {w : Issue} : Kept (execEndProg w s) := hs.issue fun _ ht => ht.beginEnd

theorem State.Ok.execSysr (hs : s.Ok) {w : Issue} {rd : SReg} {n : Imm} : Kept (execSysr w rd n s) := by
  unfold Machine.execSysr
  refine hs.issue fun _ ht => ?_
  split
  · exact ht.onSeq.adv
  · exact ht.seqFault

theorem State.Ok.execUndefinedEncoding (hs : s.Ok) {w : Issue} {h : Word} : Kept (execUndefinedEncoding w h s) :=
  .ite (.next hs) (hs.issue fun _ ht => ht.seqFault)

end Sys2Proof.Machine
end

section
/-! The dispatch and the step keep the invariant. -/

namespace Sys2Proof.Machine
open Sys2Proof

/-- Every command keeps the invariant. -/
theorem State.Ok.exec {s : State} (hs : s.Ok) : ∀ i, Kept (exec i s)
  | .add .. => hs.execAdd | .sub .. => hs.execSub | .and .. => hs.execAnd | .or .. => hs.execOr
  | .xor .. => hs.execXor | .sll .. => hs.execSll | .srl .. => hs.execSrl | .sra .. => hs.execSra
  | .mul .. => hs.execMul | .mulhu .. => hs.execMulhu | .divu .. => hs.execDivu | .remu .. => hs.execRemu
  | .div .. => hs.execDiv | .rem .. => hs.execRem | .min .. => hs.execMin | .max .. => hs.execMax
  | .addi .. => hs.execAddi | .subi .. => hs.execSubi | .andi .. => hs.execAndi | .ori .. => hs.execOri
  | .xori .. => hs.execXori | .slli .. => hs.execSlli | .srli .. => hs.execSrli | .srai .. => hs.execSrai
  | .muli .. => hs.execMuli | .mulhui .. => hs.execMulhui | .divui .. => hs.execDivui | .remui .. => hs.execRemui
  | .divi .. => hs.execDivi | .remi .. => hs.execRemi | .mini .. => hs.execMini | .maxi .. => hs.execMaxi
  | .ceq .. => hs.execCeq | .cne .. => hs.execCne | .clt .. => hs.execClt | .cltu .. => hs.execCltu
  | .cge .. => hs.execCge | .cgeu .. => hs.execCgeu | .ceqi .. => hs.execCeqi | .cnei .. => hs.execCnei
  | .clti .. => hs.execClti | .cltui .. => hs.execCltui | .cgei .. => hs.execCgei | .cgeui .. => hs.execCgeui
  | .pand .. => hs.execPand | .por .. => hs.execPor | .pxor .. => hs.execPxor | .pnot .. => hs.execPnot
  | .mov .. => hs.execMov | .li .. => hs.execLi | .lih .. => hs.execLih | .sel .. => hs.execSel
  | .aadd .. => hs.execAadd | .aidx .. => hs.execAidx | .ascl .. => hs.execAscl | .ldw .. => hs.execLdw
  | .ldws .. => hs.execLdws | .ldd .. => hs.execLdd | .stw .. => hs.execStw | .std .. => hs.execStd
  | .glw .. => hs.execGlw | .gld .. => hs.execGld | .gstw .. => hs.execGstw | .gst .. => hs.execGst
  | .br .. => hs.execBr | .brl .. => hs.execBrl | .jr .. => hs.execJr | .bdec .. => hs.execBdec
  | .wait .. => hs.execWait | .waitm .. => hs.execWaitm | .htst .. => hs.execHtst | .htstm .. => hs.execHtstm
  | .nop .. => hs.execNop | .endProg .. => hs.execEndProg | .sysr .. => hs.execSysr | .lds .. => hs.execLds
  | .mma .. => hs.execMma | .mmat .. => hs.execMmat | .wgr .. => hs.execWgr | .cvt .. => hs.execCvt
  | .sclRead .. => hs.execSclRead | .sclWrite .. => hs.execSclWrite | .gth .. => hs.execGth | .sct .. => hs.execSct
  | .sca .. => hs.execSca | .mrgMerge .. => hs.execMrgMerge | .mrgBitmap .. => hs.execMrgBitmap
  | .topk .. => hs.execTopk | .seg .. => hs.execSeg | .cmp .. => hs.execCmp | .prn .. => hs.execPrn
  | .bat .. => hs.execBat | .xfrProg .. => hs.execXfrProg | .xfrPack .. => hs.execXfrPack
  | .xfrUnpack .. => hs.execXfrUnpack | .xfrRope .. => hs.execXfrRope | .rop .. => hs.execRop
  | .barArrive .. => hs.execBarArrive | .barWait .. => hs.execBarWait | .fnc .. => hs.execFnc
  | .dscMake .. => hs.execDscMake | .dscLd .. => hs.execDscLd | .dscSt .. => hs.execDscSt
  | .dscBase .. => hs.execDscBase | .poolTake .. => hs.execPoolTake | .poolPut .. => hs.execPoolPut
  | .upd .. => hs.execUpd | .cairn .. => hs.execCairn | .cairnRestore .. => hs.execCairnRestore
  | .commit .. => hs.execCommit | .fenceCfg .. => hs.execFenceCfg | .loopStep .. => hs.execLoopStep
  | .run .. => hs.execRun | .handleDone .. => hs.execHandleDone | .denseStart .. => hs.execDenseStart
  | .stationaryLoad .. => hs.execStationaryLoad | .tileConvert .. => hs.execTileConvert
  | .tileRecompute .. => hs.execTileRecompute | .sparseStart .. => hs.execSparseStart
  | .chamberAccess .. => hs.execChamberAccess | .transferStart .. => hs.execTransferStart
  | .sipLoop .. => hs.execSipLoop | .sipAdd .. => hs.execSipAdd | .sipMod .. => hs.execSipMod
  | .sipRev .. => hs.execSipRev | .sipRot .. => hs.execSipRot | .sipPad .. => hs.execSipPad
  | .sipEmit .. => hs.execSipEmit | .sipWaitb .. => hs.execSipWaitb | .sipEnd .. => hs.execSipEnd
  | .transferComplete .. => hs.execTransferComplete | .tlbWalkDone .. => hs.execTlbWalkDone
  | .tlbInv .. => hs.execTlbInv | .ropeLaunch .. => hs.execRopeLaunch | .ropeTake .. => hs.execRopeTake
  | .ropePassReport .. => hs.execRopePassReport | .barArrivalApply .. => hs.execBarArrivalApply
  | .barNotify .. => hs.execBarNotify | .barPollRead .. => hs.execBarPollRead
  | .meshPacketReceive .. => hs.execMeshPacketReceive | .sqDoorbell .. => hs.execSqDoorbell
  | .commandFetch .. => hs.execCommandFetch | .commandStart .. => hs.execCommandStart | .cmdNop .. => hs.execCmdNop
  | .prog .. => hs.execProg | .cores .. => hs.execCores | .copy .. => hs.execCopy | .poolOpen .. => hs.execPoolOpen
  | .poolClose .. => hs.execPoolClose | .poolDiscard .. => hs.execPoolDiscard | .cancel .. => hs.execCancel
  | .commitCmd .. => hs.execCommitCmd | .completionRecordWrite .. => hs.execCompletionRecordWrite
  | .cqHeadWrite .. => hs.execCqHeadWrite | .sqCfgWrite .. => hs.execSqCfgWrite | .cqCfgWrite .. => hs.execCqCfgWrite
  | .epochSwitch .. => hs.execEpochSwitch | .updEngineStart .. => hs.execUpdEngineStart
  | .updPhase1Start .. => hs.execUpdPhase1Start | .updEngineDone .. => hs.execUpdEngineDone
  | .xchBlockTake .. => hs.execXchBlockTake | .xchBlockStart .. => hs.execXchBlockStart | .route .. => hs.execRoute
  | .dispatch .. => hs.execDispatch | .combine .. => hs.execCombine | .combineB .. => hs.execCombineB
  | .gatherB .. => hs.execGatherB | .routeB .. => hs.execRouteB | .xchHeaderReceive .. => hs.execXchHeaderReceive
  | .xchExpertPost .. => hs.execXchExpertPost | .xchAnswersSend .. => hs.execXchAnswersSend
  | .xchAnswerReceive .. => hs.execXchAnswerReceive | .xchBiasUpdate .. => hs.execXchBiasUpdate
  | .tagRetire .. => hs.execTagRetire | .retireNotice .. => hs.execRetireNotice | .retireAck .. => hs.execRetireAck
  | .wringCfgWrite .. => hs.execWringCfgWrite | .cringCfgWrite .. => hs.execCringCfgWrite
  | .collBlockTake .. => hs.execCollBlockTake | .allReduce .. => hs.execAllReduce
  | .reduceScatter .. => hs.execReduceScatter | .allGather .. => hs.execAllGather | .allToAll .. => hs.execAllToAll
  | .collContribution .. => hs.execCollContribution | .collCancelNotice .. => hs.execCollCancelNotice
  | .gddr7Access .. => hs.execGddr7Access | .retrainSlice .. => hs.execRetrainSlice
  | .retrainSliceEnd .. => hs.execRetrainSliceEnd | .scrubRead .. => hs.execScrubRead
  | .memClear .. => hs.execMemClear | .memClearDone .. => hs.execMemClearDone
  | .dieMarkWrite .. => hs.execDieMarkWrite | .hdmCommit .. => hs.execHdmCommit
  | .cxlCfgRequest .. => hs.execCxlCfgRequest | .cxlCfgComplete .. => hs.execCxlCfgComplete
  | .cxlAccess .. => hs.execCxlAccess | .cxlLinkDown .. => hs.execCxlLinkDown
  | .cxlPortCfgWrite .. => hs.execCxlPortCfgWrite | .linkTrained .. => hs.execLinkTrained
  | .dataFrameReceive .. => hs.execDataFrameReceive | .controlFrameReceive .. => hs.execControlFrameReceive
  | .linkRetrain .. => hs.execLinkRetrain | .helloReceive .. => hs.execHelloReceive | .linkLoss .. => hs.execLinkLoss
  | .peerReportVerify .. => hs.execPeerReportVerify | .quarantineReport .. => hs.execQuarantineReport
  | .linkCfgWrite .. => hs.execLinkCfgWrite | .linkExclude .. => hs.execLinkExclude
  | .linkRecheck .. => hs.execLinkRecheck | .linkRetrainRequest .. => hs.execLinkRetrainRequest
  | .remoteRequest .. => hs.execRemoteRequest | .remoteResponse .. => hs.execRemoteResponse
  | .gstepNotice .. => hs.execGstepNotice | .lostReport .. => hs.execLostReport | .rslDrop .. => hs.execRslDrop
  | .dropNotice .. => hs.execDropNotice | .holdStart .. => hs.execHoldStart | .holdRelease .. => hs.execHoldRelease
  | .holdNotice .. => hs.execHoldNotice | .holdReport .. => hs.execHoldReport
  | .restoreStart .. => hs.execRestoreStart | .restorePiece .. => hs.execRestorePiece | .rejoin .. => hs.execRejoin
  | .rejoinNotice .. => hs.execRejoinNotice | .cairnResume .. => hs.execCairnResume
  | .cairnDrainEnd .. => hs.execCairnDrainEnd | .hostWindowAccess .. => hs.execHostWindowAccess
  | .hostAccessMiss .. => hs.execHostAccessMiss | .hostDmaFail .. => hs.execHostDmaFail
  | .hostLinkUp .. => hs.execHostLinkUp | .msixUnmask .. => hs.execMsixUnmask
  | .doeDiscovery .. => hs.execDoeDiscovery | .doeAbort .. => hs.execDoeAbort
  | .firmwareBoot .. => hs.execFirmwareBoot | .rollbackAdv .. => hs.execRollbackAdv
  | .debugNewnonce .. => hs.execDebugNewnonce | .debugLock .. => hs.execDebugLock
  | .debugToken .. => hs.execDebugToken | .attest .. => hs.execAttest | .attestSigned .. => hs.execAttestSigned
  | .certs .. => hs.execCerts | .readReg .. => hs.execReadReg | .writeReg .. => hs.execWriteReg
  | .peek .. => hs.execPeek | .func .. => hs.execFunc | .flashWrite .. => hs.execFlashWrite
  | .setEndpointId .. => hs.execSetEndpointId | .pldmSensorRead .. => hs.execPldmSensorRead
  | .wdogKick .. => hs.execWdogKick | .wdogStage1 .. => hs.execWdogStage1 | .funcDisable .. => hs.execFuncDisable
  | .funcEnable .. => hs.execFuncEnable | .funcSelfTest .. => hs.execFuncSelfTest
  | .funcRetrain .. => hs.execFuncRetrain | .funcDrainEnd .. => hs.execFuncDrainEnd
  | .funcAbort .. => hs.execFuncAbort | .selfTestDone .. => hs.execSelfTestDone
  | .internalFault .. => hs.execInternalFault | .rateSample .. => hs.execRateSample
  | .governorInterval .. => hs.execGovernorInterval | .conversionDieFault .. => hs.execConversionDieFault
  | .thermtrip n => hs.execThermtrip (_sensor := n) | .thermtripRelease .. => hs.execThermtripRelease
  | .powerOnReset .. => hs.execPowerOnReset | .brownOut .. => hs.execBrownOut | .pinReset .. => hs.execPinReset
  | .watchdogReset .. => hs.execWatchdogReset | .softwareReset .. => hs.execSoftwareReset
  | .debugReset .. => hs.execDebugReset | .clockFailure .. => hs.execClockFailure
  | .lockupReset .. => hs.execLockupReset | .resetHoldEnd .. => hs.execResetHoldEnd
  | .domainRelease .. => hs.execDomainRelease | .counterRead .. => hs.execCounterRead
  | .registerWrite .. => hs.execRegisterWrite | .undefinedEncoding .. => hs.execUndefinedEncoding
  | .resetSourceEnd .. => hs.execResetSourceEnd | .cxlLinkUp .. => hs.execCxlLinkUp
  | .hostLinkDown .. => hs.execHostLinkDown | .restoreDigestRequest .. => hs.execRestoreDigestRequest
  | .funcEnableDone .. => hs.execFuncEnableDone

/-- A step keeps the invariant: it is its front command's effect, and the queue is no part of the invariant. -/
theorem State.Ok.step {s : State} (hs : s.Ok) : Kept (step s) := by
  unfold Machine.step
  split
  · exact .next hs
  · next q _ => exact State.Ok.exec (s := { s with pending := q }) hs _

/-- Settles O59: the invariant is a condition on nine parts of the state, every command keeps it, and so does a step. -/
theorem stepKeepsInvariant : Obligations.StepKeepsInvariant := by
  unfold Obligations.StepKeepsInvariant
  intro s t hs hst
  rw [stateOk_iff] at hs ⊢
  exact hs.step t hst

end Sys2Proof.Machine
end

section
/-! The dense engine's state: what an update of a core, of its sequencer or of a counter writes and leaves alone, and what
an instruction does that shares no byte with another. -/

namespace Sys2Proof.Machine
open Sys2Proof

/-- The sequencer that issues to a core is the core's own. -/
@[simp] theorem coreSeq_val (c : Fin 800) : coreSeq c.val = .core c := dif_pos c.isLt

/-! ### Cores -/

@[simp] theorem State.core_onCore_same (s : State) (c : Nat) (f : Core → Core) : (s.onCore c f).core c = f (s.core c) :=
  SMap.get_put_same _ _ _ _

theorem State.core_onCore_ne (s : State) (c d : Nat) (f : Core → Core) (h : d ≠ c) : (s.onCore c f).core d = s.core d :=
  SMap.get_put_ne _ _ _ _ _ _ h

@[simp] theorem State.core_bump (s : State) (off n c : Nat) : (s.bump off n).core c = s.core c := rfl

@[simp] theorem State.core_addCounts (s : State) (u : Nat) (f : Counts → Counts) (c : Nat) :
    (s.addCounts u f).core c = s.core c := rfl

@[simp] theorem State.core_endWork (s : State) (u : SeqId) (n : Nat) (k : Code) (c : Nat) :
    (s.endWork u n k).core c = s.core c := rfl

@[simp] theorem State.seq_onCore (s : State) (c : Nat) (f : Core → Core) (u : SeqId) : (s.onCore c f).seq u = s.seq u := rfl

@[simp] theorem State.count_onCore (s : State) (c : Nat) (f : Core → Core) (o : Nat) : (s.onCore c f).count o = s.count o := rfl

@[simp] theorem State.byte_onCore (s : State) (c : Nat) (f : Core → Core) (a : Nat) : (s.onCore c f).byte a = s.byte a := rfl

/-- A change of an array's started instructions changes no other part of the core. -/
@[simp] theorem State.core_onRuns_same (s : State) (c a : Nat) (f : List Dense → List Dense) :
    (s.onRuns c a f).core c = { s.core c with runs := SMap.put [] (s.core c).runs a (f ((s.core c).runsOf a)) } :=
  State.core_onCore_same _ _ _

theorem State.core_onRuns_ne (s : State) (c d a : Nat) (f : List Dense → List Dense) (h : d ≠ c) :
    (s.onRuns c a f).core d = s.core d := State.core_onCore_ne _ _ _ _ h

@[simp] theorem State.seq_onRuns (s : State) (c a : Nat) (f : List Dense → List Dense) (u : SeqId) :
    (s.onRuns c a f).seq u = s.seq u := rfl

@[simp] theorem State.byte_onRuns (s : State) (c a : Nat) (f : List Dense → List Dense) (b : Nat) :
    (s.onRuns c a f).byte b = s.byte b := rfl

/-- What an array's started instructions are after a change of them. -/
theorem State.runsOf_onRuns (s : State) (c a : Nat) (f : List Dense → List Dense) :
    ((s.onRuns c a f).core c).runsOf a = f ((s.core c).runsOf a) := by
  rw [State.core_onRuns_same]
  exact SMap.get_put_same _ _ _ _

/-- The only instruction of an array, stored again, is its only instruction. -/
theorem State.runsOf_putRun_only {s : State} {c a : Nat} {r x : Dense} (hr : (s.core c).runsOf a = [r])
    (hx : x.work = r.work) : ((s.putRun c a x).core c).runsOf a = [x] := by
  unfold State.putRun
  rw [State.runsOf_onRuns, hr]
  simp [hx]

@[simp] theorem State.works_onWork (s : State) (u : SeqId) (n : Nat) (f : Work → Work) :
    ((s.onWork u n f).seq u).works = (s.seq u).works.map fun x => if x.seq = n then f x else x := by
  unfold State.onWork
  rw [State.seq_onSeq_same]

/-- Events counted for a core's program are no part of its issued instructions. -/
@[simp] theorem State.works_addCounts (s : State) (c : Nat) (f : Counts → Counts) :
    ((s.addCounts c f).seq (coreSeq c)).works = (s.seq (coreSeq c)).works := by
  unfold State.addCounts coreSeq
  rw [State.seq_onSeq_same]

/-! ### Instructions that share no byte, and operands without errors -/

theorem State.viewOf_of_unshared (s : State) {c : Nat} {w : Work} (hr : w.race = []) (ho : w.own c = []) :
    s.viewOf c w = (s, s) := by
  unfold State.viewOf
  rw [hr, ho]
  rfl

theorem State.noteOperand_of_clean {s : State} (h : s.poison = []) (t : TD) : s.noteOperand t = s := by
  unfold State.noteOperand State.poisonOf
  rw [h]

theorem State.badOperand_of_clean {s : State} (h : s.poison = []) (t : TD) : s.badOperand t = false := by
  unfold State.badOperand State.poisonOf
  rw [h]
  rfl

/-- The end of a work that shares no byte writes no memory (R129). -/
theorem State.endCoreWork_of_unshared {s : State} {c n : Nat} {k : Code}
    (h : ∀ x ∈ (s.seq (coreSeq c)).works, x.race = []) : s.endCoreWork c n k = s.endWork (coreSeq c) n k := by
  have hrs : ((s.seq (coreSeq c)).works.filter fun w => w.seq == n).flatMap (·.race) = [] :=
    List.flatMap_eq_nil_iff.mpr fun x hx => h x (List.mem_of_mem_filter hx)
  unfold State.endCoreWork
  rw [hrs]
  rfl

/-- A work that has not ended stands in the issue order as ended once it is ended. -/
theorem claimEnded_endWork {s : State} {u : SeqId} {w : Work} {k : Code} (hw : w ∈ (s.seq u).works)
    (hst : w.status = .queued ∨ w.status = .running) : claimEnded u w.seq k (s.endWork u w.seq k) := by
  refine ⟨{ w with status := .ended k }, ?_, rfl, rfl⟩
  unfold State.endWork
  rw [State.seq_onSeq_same]
  refine List.mem_map.mpr ⟨w, hw, ?_⟩
  rcases hst with h | h <;> simp [h]

/-- What a counted loop keeps: a property of its start that every step keeps. -/
theorem forUpto_keeps {α : Type} {P : α → Prop} {n : Nat} {f : Nat → α → α} {a : α} (h : P a)
    (hf : ∀ i x, P x → P (f i x)) : P (forUpto n f a) := by
  unfold forUpto
  induction n with
  | zero => exact h
  | succ n ih => exact hf _ _ ih

end Sys2Proof.Machine
end

section
/-! The start of a dense instruction that loads its stationary operand (R76 to R81). -/

namespace Sys2Proof.Machine
open Sys2Proof

/-- The next instruction of the dense order is one of the issued instructions, and still queued. -/
theorem nextDense_queued {ws : List Work} {sa : Nat} {w : Work} (h : nextDense ws sa = some w) :
    w ∈ ws ∧ w.status = .queued := by
  have hq : w ∈ ws.filter fun x => isDense x.instr && x.isQueued := by
    unfold nextDense at h
    extract_lets q first at h
    have hfirst : ∀ x, first = some x → x ∈ q := by
      intro x hx
      dsimp only [first] at hx
      split at hx
      · cases hx
      · next y hy =>
        split at hx
        · cases hx
          exact List.mem_of_head? hy
        · exact (List.takeWhile_sublist _).mem (List.mem_of_find?_eq_some hx)
    clear_value first
    split at h
    · cases h
    · split at h
      · cases h
      · cases h
        exact hfirst _ rfl
  obtain ⟨hmem, hdq⟩ := List.mem_filter.mp hq
  refine ⟨hmem, ?_⟩
  simp only [Work.isQueued, Bool.and_eq_true, beq_iff_eq] at hdq
  exact hdq.2

/-- An instruction that runs is no longer the next one to start. -/
theorem nextDense_started (ws : List Work) (sa : Nat) {w : Work} (hw : w.status = .queued) :
    nextDense (ws.map fun x => if x.seq = w.seq then { x with status := .running } else x) sa ≠ some w := by
  intro h
  obtain ⟨x, -, hx⟩ := List.mem_map.mp (nextDense_queued h).1
  split at hx
  · rw [← hx] at hw
    cases hw
  · next hne => exact hne (congrArg Work.seq hx)

/-- Only a WGR has a mask. -/
theorem planOf_maskAt {w : Work} {p : Plan} (hp : planOf w = some p) (hg : p.wgr = false) : p.maskAt = none := by
  unfold planOf at hp
  split at hp
  · cases hp; rfl
  · cases hp; rfl
  · cases hp; rfl
  · cases hp; cases hg
  · cases hp

/-- DENSE_START of an LDS, MMA, MMAT or WGR starts it, and where it has left the queue takes up COR.DENSE_CFG (R106). -/
theorem execDenseStart_of_plan {s : State} {c : Fin 800} {sa : Fin 4} {feedWait : BitVec 32} {w : Work} {p : Plan}
    (hn : nextDense (s.seq (coreSeq c.val)).works sa.val = some w) (hm : s.mayStart (s.seq (coreSeq c.val)) w = true)
    (hp : planOf w = some p)
    (hleft : nextDense ((startDense s c.val feedWait.toNat w p).seq (coreSeq c.val)).works sa.val ≠ some w) :
    execDenseStart c sa feedWait s =
      .next ((startDense s c.val feedWait.toNat w p).onCore c.val fun k => { k with cfgEpoch := s.epoch }) := by
  unfold execDenseStart
  simp only [hn, hm, Bool.not_true, Bool.false_eq_true, if_false]
  split
  · next hi => simp [planOf, hi] at hp
  · next hi => simp [planOf, hi] at hp
  · next hi => simp [planOf, hi] at hp
  · next hi => simp [planOf, hi] at hp
  · simp only [hp, if_neg hleft]

/-- A core in a ganging mode: a change of the mode drops every loaded tile (R77). -/
def State.inMode (s : State) (c m : Nat) : State :=
  if m = (s.core c).mode then s else s.onCore c fun k => { k with mode := m, tiles := [], cells := [], chains := [] }

/-- The mode is no part of what the last COMMIT took up. -/
theorem State.denseCfg_inMode (s : State) (c m d hi lo : Nat) :
    (s.inMode c m).denseCfg d hi lo = s.denseCfg d hi lo := by
  unfold State.inMode
  split <;> rfl

/-- The record of a started instruction that waits for its load, under the retry policy of the last COMMIT (R106). -/
def State.waitingRun (s : State) (c seq : Nat) : Dense where
  work := seq
  load := true
  stat := none
  tile := 0
  computed := 0
  tiles := []
  tries := 0
  recs := 0
  redo := false
  masked := []
  maxRetry := min 2 (s.denseCfg c 1 0)
  recomp := s.denseCfg c 2 2 == 1
  held := []
  how := []
  code := .ok

/-- Whether the array of a plan is free for its start: its started instructions have streamed their last rows, or nothing
runs where the plan changes the mode (R78, R85). -/
def Plan.arrayFree (p : Plan) (s : State) (c : Nat) : Prop :=
  if p.mode = (s.core c).mode then
    ∀ x ∈ s.startedRuns c, x.1.array = p.array → x.2.load = false ∧ x.1.accTiles ≤ x.2.computed
  else (s.core c).idle = true

/-- The condition under which `startDense` waits is false on a free array. -/
theorem Plan.arrayFree.not_waits {p : Plan} {s : State} {c : Nat} (h : p.arrayFree s c) :
    (if p.mode = (s.core c).mode then
      (s.startedRuns c).any fun x => x.1.array == p.array && (x.2.load || x.1.streaming x.2)
      else !(s.core c).idle) = false := by
  unfold Plan.arrayFree at h
  split at h
  · next hm =>
    rw [if_pos hm, List.any_eq_false]
    intro x hx
    by_cases ha : x.1.array = p.array
    · obtain ⟨hload, htiles⟩ := h x hx ha
      simp [Plan.streaming, hload, Nat.not_lt.mpr htiles]
    · simp [ha]
  · next hm => rw [if_neg hm, h]; rfl

/-- The start of an instruction that loads its stationary operand and passes its checks: it runs, its array has its mode,
and it waits for its load behind the started instructions of the array. -/
theorem startDense_of_loading {s : State} {c waited : Nat} {w : Work} {p : Plan} (hhs : p.hs = true)
    (hwgr : p.wgr = false) (hmask : p.maskAt = none) (hfree : p.arrayFree s c)
    (hok : p.ok s c (if p.mode = (s.core c).mode then (s.core c).tile p.array else none) = true)
    (hmove : p.gather = true → s.moveHeld c = false) :
    startDense s c waited w p =
      ((s.onWork (coreSeq c) w.seq fun x => { x with status := .running }).inMode c p.mode).onRuns c p.array
        (· ++ [s.waitingRun c w.seq]) := by
  have hmv : (p.gather && s.moveHeld c) = false := by
    cases hg : p.gather with
    | false => rfl
    | true => exact hmove hg
  unfold startDense
  extract_lets k nc masked skip loaded
  have hskip : skip = false := by simp [skip, hwgr]
  have hmasked : masked = [] := by simp [masked, hwgr]
  rw [hskip, if_neg Bool.false_ne_true, hfree.not_waits, if_neg Bool.false_ne_true, hok, hmv, hmasked, hmask, hhs]
  set s1 := s.onWork (coreSeq c) w.seq fun x => { x with status := .running }
  have hcfg (hi lo : Nat) : s.denseCfg c hi lo = (s1.inMode c p.mode).denseCfg c hi lo := (s1.denseCfg_inMode _ _ _ _ _).symm
  unfold State.waitingRun
  rw [hcfg, hcfg]
  rfl

theorem State.mode_inMode (s : State) (c m : Nat) : ((s.inMode c m).core c).mode = m := by
  unfold State.inMode
  split
  · next h => exact h.symm
  · rw [State.core_onCore_same]

/-- What a change of the mode leaves alone: started instructions and accumulators. -/
theorem State.runs_acc_inMode (s : State) (c m : Nat) :
    ((s.inMode c m).core c).runs = (s.core c).runs ∧ ((s.inMode c m).core c).acc = (s.core c).acc := by
  unfold State.inMode
  split
  · exact ⟨rfl, rfl⟩
  · rw [State.core_onCore_same]
    exact ⟨rfl, rfl⟩

theorem State.tiles_inMode (s : State) (c m : Nat) :
    ((s.inMode c m).core c).tiles = if m = (s.core c).mode then (s.core c).tiles else [] := by
  unfold State.inMode
  split
  · rfl
  · rw [State.core_onCore_same]

theorem State.core_inMode_ne (s : State) (c d m : Nat) (h : d ≠ c) : (s.inMode c m).core d = s.core d := by
  unfold State.inMode
  split
  · rfl
  · exact State.core_onCore_ne _ _ _ _ h

@[simp] theorem State.seq_inMode (s : State) (c m : Nat) (u : SeqId) : (s.inMode c m).seq u = s.seq u := by
  unfold State.inMode
  split <;> rfl

@[simp] theorem State.byte_inMode (s : State) (c m a : Nat) : (s.inMode c m).byte a = s.byte a := by
  unfold State.inMode
  split <;> rfl

/-- Settles O24: the start takes the instruction from the queue, sets the mode of the core and appends a record that waits
for its load, and no other update is made; each clause reads one of these updates. -/
theorem denseStartRuns : Obligations.DenseStartRuns := by
  unfold Obligations.DenseStartRuns
  intro c sa beats s w p
  rw [← coreSeq_val c]
  intro u k hnext hmay hplan hhs hwgr hfree hok hmove
  obtain ⟨hmem, hqueued⟩ := nextDense_queued hnext
  have hstart := startDense_of_loading (waited := beats.toNat) (w := w) hhs hwgr (planOf_maskAt hplan hwgr) hfree hok hmove
  set s1 := s.onWork (coreSeq c.val) w.seq fun x => { x with status := .running }
  have hworks : ((startDense s c.val beats.toNat w p).seq u).works =
      (s.seq u).works.map fun x => if x.seq = w.seq then { x with status := .running } else x := by
    rw [hstart, State.seq_onRuns, State.seq_inMode, State.works_onWork]
  have hexec := execDenseStart_of_plan (feedWait := beats) hnext hmay hplan
    (by rw [hworks]; exact nextDense_started _ _ hqueued)
  obtain ⟨hruns, hacc⟩ := s1.runs_acc_inMode c.val p.mode
  have htiles : ((s1.inMode c.val p.mode).core c.val).tiles = if p.mode = k.mode then k.tiles else [] :=
    s1.tiles_inMode _ _
  rw [hstart] at hexec hworks
  refine ⟨_, s.waitingRun c.val w.seq, hexec, ?_, ?_, rfl, rfl, rfl, rfl, rfl, ?_⟩
  all_goals rw [State.core_onCore_same, State.core_onRuns_same]
  · exact s1.mode_inMode _ _
  · rw [Core.runsOf, SMap.get_put_same, Core.runsOf, hruns]
    rfl
  refine ⟨rfl, fun hm a => ?_, fun hm => ?_, hacc, fun d hd => ?_, ⟨{ w with status := .running }, ?_, rfl, rfl⟩,
    fun a => ?_⟩
  · rw [Core.tile, htiles, if_neg hm]
    rfl
  · exact htiles.trans (if_pos hm)
  · rw [State.core_onCore_ne _ _ _ _ hd, State.core_onRuns_ne _ _ _ _ _ hd, State.core_inMode_ne _ _ _ _ hd]
    rfl
  · rw [State.seq_onCore, hworks]
    exact List.mem_map.mpr ⟨w, hmem, if_pos rfl⟩
  · rw [State.byte_onCore, State.byte_onRuns, State.byte_inMode]
    rfl

end Sys2Proof.Machine
end

section
/-! The stationary load: the tile it leaves in the cells, and the stream of an instruction that converts (R79 to R87). -/

namespace Sys2Proof.Machine
open Sys2Proof

/-! ### What counting and computing leave alone -/

/-- `t` differs from `s` in no byte of memory, no uncorrectable unit, and on core `c` in no issued instruction,
loaded tile or started instruction: what a count, a chain of masks and the products of a tile keep. -/
structure KeepsEngine (c : Nat) (s t : State) : Prop where
  byte : ∀ a, t.byte a = s.byte a
  poison : t.poison = s.poison
  works : (t.seq (coreSeq c)).works = (s.seq (coreSeq c)).works
  tiles : (t.core c).tiles = (s.core c).tiles
  runs : (t.core c).runs = (s.core c).runs

namespace KeepsEngine

variable {c : Nat} {s t u : State}

theorem refl (c : Nat) (s : State) : KeepsEngine c s s := ⟨fun _ => rfl, rfl, rfl, rfl, rfl⟩

theorem trans (h : KeepsEngine c s t) (h' : KeepsEngine c t u) : KeepsEngine c s u :=
  ⟨fun a => (h'.byte a).trans (h.byte a), h'.poison.trans h.poison, h'.works.trans h.works, h'.tiles.trans h.tiles,
    h'.runs.trans h.runs⟩

theorem runsOf (h : KeepsEngine c s t) (a : Nat) : (t.core c).runsOf a = (s.core c).runsOf a := by
  unfold Core.runsOf
  rw [h.runs]

theorem bump (h : KeepsEngine c s t) {off n : Nat} : KeepsEngine c s (t.bump off n) :=
  h.trans ⟨fun _ => rfl, rfl, rfl, rfl, rfl⟩

theorem noteDensePort (h : KeepsEngine c s t) {cls : Nat} {rs : List (Nat × Nat)} :
    KeepsEngine c s (t.noteDensePort c cls rs) := h.bump

theorem noteDrops (h : KeepsEngine c s t) {off n : Nat} : KeepsEngine c s (t.noteDrops c off n) :=
  h.trans ⟨fun _ => rfl, rfl, State.works_addCounts _ _ _, rfl, rfl⟩

/-- A change of a core that spares its tiles and its started instructions. -/
theorem onCore (h : KeepsEngine c s t) {f : Core → Core}
    (htiles : ∀ k, (f k).tiles = k.tiles := by intro _; rfl) (hruns : ∀ k, (f k).runs = k.runs := by intro _; rfl) :
    KeepsEngine c s (t.onCore c f) :=
  h.trans ⟨fun _ => rfl, rfl, rfl, by rw [State.core_onCore_same, htiles], by rw [State.core_onCore_same, hruns]⟩

theorem ite (ht : KeepsEngine c s t) (hu : KeepsEngine c s u) {p : Prop} {_ : Decidable p} :
    KeepsEngine c s (if p then t else u) := by
  split <;> assumption

theorem freeEntries (h : KeepsEngine c s t) {es : List Nat} : KeepsEngine c s (t.freeEntries c es).1 := by
  unfold State.freeEntries
  split
  · exact h
  · dsimp only
    refine onCore ?_
    exact h.trans ⟨fun _ => rfl, rfl, rfl, rfl, rfl⟩

theorem planChain (h : KeepsEngine c s t) {p : Plan} {nc : Nat} {masked : List Nat} :
    KeepsEngine c s (p.chain t c nc masked) :=
  .ite h h.freeEntries.onCore

theorem planCompute {v : State} (h : KeepsEngine c s t) {p : Plan} {tl : Tile} {masked : List Nat} {i r : Nat} :
    KeepsEngine c s (p.compute t v c tl masked i r).1 := by
  unfold Plan.compute
  dsimp only
  exact h.onCore

theorem planReload (h : KeepsEngine c s t) {p : Plan} {tl : Tile} : KeepsEngine c s (p.reload t c tl) :=
  .ite h h.bump.noteDensePort.onCore

/-- Without an uncorrectable unit, the feed of an instruction is only counted. -/
theorem planNoteFeed {v : State} (hp : s.poison = []) {p : Plan} {waited : Nat} :
    KeepsEngine c s (p.noteFeed s v c waited).1 := by
  have hops (l : List TD) : l.foldl State.noteOperand s = s := by
    induction l with
    | nil => rfl
    | cons t l ih => rw [List.foldl_cons, State.noteOperand_of_clean hp, ih]
  unfold Plan.noteFeed
  extract_lets +onlyGivenNames tiles rows bad drops empty
  split
  extract_lets ops ecc t1 t2 t3 t4 t5 t6
  have h1 : t1 = s := hops ops
  have h3 : KeepsEngine c s t3 := (h1 ▸ refl c s : KeepsEngine c s t1).noteDrops.noteDrops.bump.bump.bump
  have h4 : KeepsEngine c s t4 := .ite h3.bump h3
  have h5 : KeepsEngine c s t5 := .ite h4 h4.noteDensePort
  exact h5.noteDensePort.bump

end KeepsEngine

/-! ### The stream of an instruction that converts -/

section Stream

/-- A run `r` in state `s` has gone on to `x` in state `t` by computing tiles that wait for their conversion. -/
structure Streamed (c : Nat) (s : State) (r : Dense) (t : State) (x : Dense) : Prop where
  keeps : KeepsEngine c s t
  work : x.work = r.work
  load : x.load = r.load
  tile : x.tile = r.tile
  stat : x.stat = r.stat

variable {s : State} {c : Nat} {w : Work} {p : Plan} {r : Dense}

/-- A tile of an instruction that converts and shares no byte is only computed. -/
theorem Streamed.tileStep {t : State} {x : Dense} (h : Streamed c s r t x) (tl : Tile) (hr : w.race = [])
    (ho : w.own c = []) (hout : p.outp = 0) :
    Streamed c s r (p.tileStep t c w x tl).1 (p.tileStep t c w x tl).2 := by
  unfold Plan.tileStep
  rw [State.viewOf_of_unshared t hr ho]
  dsimp only
  rw [if_pos hout]
  exact ⟨h.keeps.planChain.planCompute, h.work, h.load, h.tile, h.stat⟩

/-- The only instruction of an array streams as far as free entries allow and stays its only instruction, where its output
waits for a conversion. -/
theorem streamAll_of_converting {tl : Tile} {a : Nat} (hruns : (s.core c).runsOf a = [r]) (hload : r.load = false)
    (hstat : r.stat = some tl) (hfind : (s.seq (coreSeq c)).works.find? (fun x => x.seq == r.work) = some w)
    (hplan : planOf w = some p) (hr : w.race = []) (ho : w.own c = []) (hout : p.outp = 0) :
    ∃ t x, s.streamAll c a = t.putRun c a x ∧ Streamed c s r t x := by
  have htake : [r].takeWhile (fun x => x.work != r.work) = [] := by simp
  have hfirst : [r].find? (fun x => x.work == r.work) = some r := by simp
  unfold State.streamAll
  rw [hruns, List.foldl_cons, List.foldl_nil]
  unfold State.streamRun
  dsimp only
  rw [hruns, htake, hfirst]
  dsimp only
  rw [hfind, hstat]
  dsimp only [Option.bind]
  rw [hplan]
  dsimp only [Option.map]
  rw [if_neg (by simp [hload]), if_neg fun h => h.1 hout]
  have hstart : Streamed c s r s r := ⟨.refl c s, rfl, rfl, rfl, rfl⟩
  refine ⟨_, _, rfl, forUpto_keeps (P := fun x : State × Dense => Streamed c s r x.1 x.2) hstart fun _ x hx => ?_⟩
  split
  · exact hx.tileStep tl hr ho hout
  · exact hx

/-- The only instruction of an array begins to stream against its tile: it waits no more for its load, it converts nothing
yet, and no memory and no loaded tile changes. -/
theorem Plan.stream_of_converting {x : Dense} {tl : Tile} {waited : Nat} (hruns : (s.core c).runsOf p.array = [r])
    (hwork : x.work = r.work) (hfind : (s.seq (coreSeq c)).works.find? (fun y => y.seq == r.work) = some w)
    (hplan : planOf w = some p) (hr : w.race = []) (ho : w.own c = []) (hout : p.outp = 0) (hclean : s.poison = []) :
    ∃ y, ((p.stream s c waited w tl x).core c).runsOf p.array = [y] ∧ y.work = x.work ∧ y.load = false ∧ y.tile = x.tile ∧
      y.stat = some tl ∧ ((p.stream s c waited w tl x).core c).tiles = (s.core c).tiles ∧
      ∀ b, (p.stream s c waited w tl x).byte b = s.byte b := by
  unfold Plan.stream
  rw [State.viewOf_of_unshared s hr ho]
  dsimp only
  have hkept : KeepsEngine c s (p.reload (p.noteFeed s s c waited).1 c tl) :=
    (KeepsEngine.planNoteFeed hclean).planReload
  generalize p.reload (p.noteFeed s s c waited).1 c tl = s1 at *
  set x1 : Dense := { x with load := false, stat := some tl, code := x.code.max (p.noteFeed s s c waited).2 }
  have hruns1 : ((s1.putRun c p.array x1).core c).runsOf p.array = [x1] :=
    State.runsOf_putRun_only ((hkept.runsOf _).trans hruns) hwork
  have hfind1 : ((s1.putRun c p.array x1).seq (coreSeq c)).works.find? (fun y => y.seq == x1.work) = some w := by
    unfold State.putRun
    rw [State.seq_onRuns, hkept.works, show x1.work = r.work from hwork, hfind]
  obtain ⟨t, y, ht, hy⟩ := streamAll_of_converting hruns1 rfl rfl hfind1 hplan hr ho hout
  rw [ht]
  refine ⟨y, State.runsOf_putRun_only ((hy.keeps.runsOf _).trans hruns1) hy.work, hy.work, hy.load, hy.tile, hy.stat, ?_,
    fun b => ?_⟩
  · unfold State.putRun at hy ⊢
    rw [State.core_onRuns_same, hy.keeps.tiles, State.core_onRuns_same, hkept.tiles]
  · exact (hy.keeps.byte b).trans (hkept.byte b)

end Stream

/-! ### The load -/

/-- The tile that the stationary load of `run` reads (R84, R93, R100). -/
def Plan.tileLoaded (p : Plan) (s : State) (run : Dense) : Tile :=
  { (s.loadTile p.stat p.trn).1 with src := run.work, from_ := p.stat.bytes, held := s.atRuns p.stat.bytes }

/-- The state once a load from operands without errors is counted. -/
def Plan.loadCounted (p : Plan) (s : State) (c : Nat) : State :=
  ((s.noteDrops c (Reg.corTileBadCnt c) (s.loadTile p.stat p.trn).2).bump (Reg.corLoadBeatCnt c)
    (modeRows p.mode)).noteDensePort c 1 (p.stat.runs fun _ => true)

/-- The state once such a load's tile stands in the cells. -/
def Plan.afterLoad (p : Plan) (s : State) (c : Nat) (run : Dense) : State :=
  (p.loadCounted s c).onCore c fun k =>
    { k with
      tiles := SMap.put none k.tiles p.array (some (p.tileLoaded s run))
      cells := SMap.put none k.cells p.array (some run.work) }

theorem Plan.loadCounted_keeps (p : Plan) (s : State) (c : Nat) : KeepsEngine c s (p.loadCounted s c) :=
  (KeepsEngine.refl c s).noteDrops.bump.noteDensePort

/-- The beats of a load are counted once (R84). -/
theorem Plan.count_loadCounted (p : Plan) (s : State) (c : Nat) :
    (p.loadCounted s c).count (Reg.corLoadBeatCnt c) = sat (s.count (Reg.corLoadBeatCnt c) + modeRows p.mode) := by
  have hsec : Reg.corLoadBeatCnt c ≠ Reg.spdDenseSecCnt c := by unfold Reg.corLoadBeatCnt Reg.spdDenseSecCnt; omega
  have hbad : Reg.corLoadBeatCnt c ≠ Reg.corTileBadCnt c := by unfold Reg.corLoadBeatCnt Reg.corTileBadCnt; omega
  have hdrops (n : Nat) : (s.noteDrops c (Reg.corTileBadCnt c) n).count (Reg.corLoadBeatCnt c) =
      s.count (Reg.corLoadBeatCnt c) := State.count_bump_ne _ _ _ _ hbad
  unfold Plan.loadCounted State.noteDensePort
  rw [State.count_bump_ne _ _ _ _ hsec, State.count_bump_same, hdrops]
  rfl

/-- A load changes of its core the loaded tile and the cells of its array. -/
theorem Plan.core_afterLoad (p : Plan) (s : State) (c : Nat) (r : Dense) : (p.afterLoad s c r).core c =
    { s.core c with
      tiles := SMap.put none (s.core c).tiles p.array (some (p.tileLoaded s r))
      cells := SMap.put none (s.core c).cells p.array (some r.work) } := by
  have hcore : (p.loadCounted s c).core c = s.core c := by
    unfold Plan.loadCounted State.noteDensePort State.noteDrops
    simp only [State.core_bump, State.core_addCounts]
  unfold Plan.afterLoad
  rw [State.core_onCore_same, hcore]

/-- What a load leaves alone: memory, uncorrectable units and issued instructions. -/
theorem Plan.afterLoad_keeps (p : Plan) (s : State) (c : Nat) (r : Dense) :
    (∀ b, (p.afterLoad s c r).byte b = s.byte b) ∧ (p.afterLoad s c r).poison = s.poison ∧
    ((p.afterLoad s c r).seq (coreSeq c)).works = (s.seq (coreSeq c)).works := by
  have h := p.loadCounted_keeps s c
  unfold Plan.afterLoad
  exact ⟨fun b => (State.byte_onCore _ _ _ b).trans (h.byte b), (State.onCore_poison _ _ _).trans h.poison,
    (congrArg Seq.works (State.seq_onCore _ _ _ _)).trans h.works⟩

theorem Plan.count_afterLoad (p : Plan) (s : State) (c : Nat) (r : Dense) :
    (p.afterLoad s c r).count (Reg.corLoadBeatCnt c) = sat (s.count (Reg.corLoadBeatCnt c) + modeRows p.mode) := by
  unfold Plan.afterLoad
  rw [State.count_onCore, Plan.count_loadCounted]

/-- A load of an instruction that shares no byte: an LDS leaves its array and ends, any other instruction streams against the
tile. -/
theorem Plan.load_of_unshared {s : State} {c waited : Nat} {w : Work} {p : Plan} {r : Dense}
    (hr : w.race = []) (ho : w.own c = []) (hp : s.poison = []) :
    ∃ k, p.load s c waited w r =
      if p.lds then ((p.afterLoad s c r).onRuns c p.array fun l => l.filter fun x => x.work != r.work).endCoreWork c r.work k
      else p.stream (p.afterLoad s c r) c waited w (p.tileLoaded s r) { r with code := k } := by
  refine ⟨r.code.max ((countCode ((s.loadTile p.stat p.trn).2 != 0)).max .ok), ?_⟩
  unfold Plan.load
  rw [State.viewOf_of_unshared s hr ho]
  dsimp only
  rw [State.noteOperand_of_clean hp, State.badOperand_of_clean hp]
  rfl

/-- STATIONARY_LOAD of the only instruction of an array, which waits for its load (R84). -/
theorem execStationaryLoad_of_only {s : State} {w : Work} {p : Plan} {r : Dense} {c : Fin 800} {sa : Fin 4}
    {feedWait : BitVec 32}
    (hruns : (s.core c.val).runsOf (if (s.core c.val).mode = 3 then sa.val else 0) = [r]) (hload : r.load = true)
    (hfind : (s.seq (coreSeq c.val)).works.find? (fun x => x.seq == r.work) = some w) (hplan : planOf w = some p) :
    execStationaryLoad c sa feedWait s = .next (p.load s c.val feedWait.toNat w r) := by
  unfold execStationaryLoad onRun
  simp only [hruns, List.find?_cons, hload, hfind, hplan]

/-- Settles O26: the load puts its tile in the cells; an LDS then leaves its array and ends, and any other instruction that
converts only computes tiles until a conversion. -/
theorem stationaryLoadResult : Obligations.StationaryLoadResult := by
  unfold Obligations.StationaryLoadResult
  intro c sa beats s w r p
  rw [← coreSeq_val c]
  intro u k a tl hruns hload hfind hplan harray hst hrace hown hclean
  have hmem : w ∈ (s.seq u).works := List.mem_of_find?_eq_some hfind
  have hseq : w.seq = r.work := by simpa using List.find?_some hfind
  have hexec := execStationaryLoad_of_only (feedWait := beats) hruns hload hfind hplan
  obtain ⟨code, hcode⟩ := p.load_of_unshared (c := c.val) (waited := beats.toNat) (r := r) (hrace w hmem) hown hclean
  rw [hcode] at hexec
  clear hcode
  obtain ⟨hbyte, hpoison, hworks⟩ := p.afterLoad_keeps s c.val r
  have hcore := p.core_afterLoad s c.val r
  have hcount := p.count_afterLoad s c.val r
  generalize p.afterLoad s c.val r = s1 at *
  have hruns1 : (s1.core c.val).runsOf p.array = [r] := by rw [hcore, harray]; exact hruns
  have htile1 : (s1.core c.val).tile p.array = some tl := by rw [hcore, Core.tile, SMap.get_put_same]; rfl
  have hacc1 : (s1.core c.val).acc = k.acc := by rw [hcore]
  refine ⟨fun hlds => ?_, fun hlds hout => ?_⟩
  · rw [if_pos hlds, State.endCoreWork_of_unshared (by rw [State.seq_onRuns, hworks]; exact hrace)] at hexec
    refine ⟨_, code, hexec, ?_, ?_, ?_, ?_, ?_, fun b => ?_⟩
    · rw [State.core_endWork, ← harray, State.runsOf_onRuns, hruns1]
      simp
    · rw [State.core_endWork, ← harray, State.core_onRuns_same]
      exact htile1
    · rw [State.core_endWork, State.core_onRuns_same]
      exact hacc1
    · rw [← hseq]
      exact claimEnded_endWork (by rw [State.seq_onRuns, hworks]; exact hmem) hst
    · exact hcount
    · exact hbyte b
  · rw [if_neg (by simp [hlds])] at hexec
    obtain ⟨x, hx, hwork, hload1, htile, hstat, htiles, hmem1⟩ := p.stream_of_converting (x := { r with code := code })
      (tl := p.tileLoaded s r) (waited := beats.toNat) hruns1 rfl (hworks ▸ hfind) hplan (hrace w hmem) hown hout
      (hpoison.trans hclean)
    refine ⟨_, x, hexec, harray ▸ hx, hwork, hload1, htile, hstat, ?_, fun b => (hmem1 b).trans (hbyte b)⟩
    rw [Core.tile, htiles, ← harray]
    exact htile1

end Sys2Proof.Machine
end

section
/-! Accesses at a chamber's banks: their counts, their records and the bytes they leave (R185, R187, R192, R194, R198). -/

namespace Sys2Proof.Machine
open Sys2Proof

/-! ### The form of an access -/

/-- The six conditions of a form that a bank serves (R185, R187, R192). -/
theorem chamberForm_iff {cls o n : Nat} : chamberForm cls o n = true ↔
    n ≠ 0 ∧ n % 4 = 0 ∧ n ≤ portBytes cls ∧ 128 % n = 0 ∧ o % n = 0 ∧ o % portAlign cls = 0 := by
  simp [chamberForm, and_assoc]

/-- An access that a bank serves ends inside the chamber: its length divides both its offset and the chamber's size. -/
theorem chamberForm_end {cls n : Nat} {off : BitVec 21} (h : chamberForm cls off.toNat n = true) :
    off.toNat + n ≤ 0x20_0000 := by
  obtain ⟨hn, -, -, hrow, ho, -⟩ := chamberForm_iff.mp h
  have hoff := off.isLt
  have hsize : n ∣ 0x20_0000 := (Nat.dvd_of_mod_eq_zero hrow).trans (by decide)
  exact Nat.le_of_lt_add_of_dvd (by omega) ((Nat.dvd_of_mod_eq_zero ho).add dvd_rfl) hsize

theorem target_chamber (h5 : Bool) {c o : Nat} (hc : c < 800) (ho : o < 0x20_0000) :
    Machine.target h5 (chamberBase c + o) = .chamber c o := by
  unfold Machine.target chamberBase
  rw [if_neg (by omega), if_neg (by simp; omega), if_pos (by simp; omega)]
  have hm : (0x2000_0000_0000 + 0x40_0000 * c + o - 0x2000_0000_0000) % 0x40_0000 = o := by omega
  have hd : (0x2000_0000_0000 + 0x40_0000 * c + o - 0x2000_0000_0000) / 0x40_0000 = c := by omega
  simp only [hm, hd, if_pos ho]

/-- No clear of a memory controller meets a chamber (R401). -/
theorem State.clearing_chamber (s : State) {c o : Nat} (hc : c < 800) (ho : o < 0x20_0000) :
    s.clearing (chamberBase c + o) = false := by
  unfold State.clearing State.target
  rw [target_chamber _ hc ho]

/-- Without an uncorrectable unit, the read of an access that a bank serves records nothing. -/
theorem State.noteRead_chamber_of_clean {s : State} {c o n : Nat} (hc : c < 800) (hn : n ≠ 0) (ho : o + n ≤ 0x20_0000)
    (hp : s.poison = []) : s.noteRead (chamberBase c + o) n = s := by
  have hlast : chamberBase c + o + n - 1 = chamberBase c + (o + n - 1) := by omega
  unfold State.noteRead State.poisonIn
  rw [hp, hlast, s.clearing_chamber hc (by omega), s.clearing_chamber hc (by omega)]
  rfl

/-! ### Masked writes -/

/-- The state with the selected bytes of a masked write stored at rising addresses. -/
def State.putMasked (s : State) (a : Nat) : List (Option Byte) → State
  | [] => s
  | x :: bs => (x.elim s (s.putByte a)).putMasked (a + 1) bs

theorem maskedWrites_cons (a : Nat) (x : Option Byte) (bs : List (Option Byte)) :
    maskedWrites a (x :: bs) = (x.map fun v => (8 * a, 8, v.toNat)).toList ++ maskedWrites (a + 1) bs := by
  have hshift : (fun y : Option Byte × Nat => y.1.map fun v => (8 * (a + (y.2 + 1)), 8, v.toNat)) =
      fun y => y.1.map fun v => (8 * (a + 1 + y.2), 8, v.toNat) := by
    funext y
    rw [Nat.add_right_comm a 1 y.2, Nat.add_assoc]
  have htail : ((bs.zipIdx 1).filterMap fun y : Option Byte × Nat => y.1.map fun v => (8 * (a + y.2), 8, v.toNat)) =
      maskedWrites (a + 1) bs := by
    rw [List.zipIdx_succ, List.filterMap_map]
    exact congrArg (List.filterMap · bs.zipIdx) hshift
  rw [← htail]
  cases x <;> rfl

/-- The write of an eight-bit element is that of a byte. -/
theorem State.putBits_byte (s : State) (a : Nat) (v : Byte) : s.putBits (8 * a) 8 v.toNat = s.putByte a v := by
  unfold State.putBits
  rw [if_pos (Nat.le_refl 8), Nat.mul_div_cancel_left a (by decide)]
  change s.putByte a (BitVec.ofNat 8 v.toNat) = s.putByte a v
  rw [BitVec.ofNat_toNat, BitVec.setWidth_eq]

theorem State.foldl_putBits_maskedWrites (s : State) (a : Nat) (bs : List (Option Byte)) :
    (maskedWrites a bs).foldl (fun s (b, n, v) => s.putBits b n v) s = s.putMasked a bs := by
  induction bs generalizing s a with
  | nil => rfl
  | cons x bs ih =>
    rw [maskedWrites_cons, List.foldl_append, ih]
    cases x with
    | none => rfl
    | some v => exact congrArg (State.putMasked · (a + 1) bs) (s.putBits_byte a v)

/-- Without an uncorrectable unit, a masked write stores its selected bytes and records nothing. -/
theorem State.wrElems_maskedWrites {s : State} (hp : s.poison = []) (a : Nat) (bs : List (Option Byte)) :
    s.wrElems (maskedWrites a bs) = s.putMasked a bs := by
  unfold State.wrElems State.touched
  rw [hp, State.foldl_putBits_maskedWrites]
  rfl

/-- A masked write changes memory alone. -/
theorem State.putMasked_mem (s : State) (a : Nat) (bs : List (Option Byte)) :
    ∃ m, s.putMasked a bs = { s with mem := m } := by
  induction bs generalizing s a with
  | nil => exact ⟨s.mem, rfl⟩
  | cons x bs ih =>
    have hx : ∃ m, x.elim s (s.putByte a) = { s with mem := m } := by
      cases x with
      | none => exact ⟨s.mem, rfl⟩
      | some v =>
        change ∃ m, s.putByte a v = { s with mem := m }
        unfold State.putByte
        split
        · exact ⟨s.mem, rfl⟩
        · exact ⟨_, rfl⟩
    obtain ⟨m, hm⟩ := hx
    unfold State.putMasked
    rw [hm]
    exact ih _ _

/-- Below the control-cluster SRAM every address is its own cell, which no other address shares. -/
theorem State.cell_ne_of_lt_sram (s : State) {a b : Nat} (ha : a < sramBase) (h : b ≠ a) : s.cell b ≠ s.cell a := by
  unfold sramBase at ha
  unfold State.cell
  split <;> split <;> omega

theorem State.byte_select_same (s : State) {a : Nat} (ha : a < sramBase) (x : Option Byte) :
    (x.elim s (s.putByte a)).byte a = x.getD (s.byte a) := by
  cases x with
  | none => rfl
  | some v => exact s.byte_putByte_same a v (by omega)

theorem State.byte_select_ne (s : State) {a b : Nat} (ha : a < sramBase) (h : b ≠ a) (x : Option Byte) :
    (x.elim s (s.putByte a)).byte b = s.byte b := by
  cases x with
  | none => rfl
  | some v => exact s.byte_putByte_ne a b v (s.cell_ne_of_lt_sram ha h)

/-- A masked write leaves the bytes before it alone. -/
theorem State.byte_putMasked_lt (s : State) {a b : Nat} {bs : List (Option Byte)} (ha : a + bs.length ≤ sramBase)
    (h : b < a) : (s.putMasked a bs).byte b = s.byte b := by
  induction bs generalizing s a with
  | nil => rfl
  | cons x bs ih =>
    rw [List.length_cons] at ha
    exact (ih _ (by omega) (by omega)).trans (s.byte_select_ne (by omega) (by omega) x)

/-- From its first address on, a masked write stores the bytes that it selects and no other; past its end it selects none. -/
theorem State.byte_putMasked (s : State) {a : Nat} {bs : List (Option Byte)} (ha : a + bs.length ≤ sramBase) (k : Nat) :
    (s.putMasked a bs).byte (a + k) = (bs.getD k none).getD (s.byte (a + k)) := by
  induction bs generalizing s a k with
  | nil => rfl
  | cons x bs ih =>
    rw [List.length_cons] at ha
    unfold State.putMasked
    cases k with
    | zero => exact (State.byte_putMasked_lt _ (by omega) (by omega)).trans (s.byte_select_same (by omega) x)
    | succ k =>
      have hk : a + (k + 1) = a + 1 + k := by omega
      rw [hk, ih _ (by omega), s.byte_select_ne (by omega) (by omega) x, List.getD_cons_succ]

/-! ### What counting and recording an error leave alone -/

/-- `t` differs from `s` in no counter, no uncorrectable unit and no byte of memory: what a first-record register, an
event and its message keep. -/
structure Reports (s t : State) : Prop where
  cnt : t.cnt = s.cnt
  poison : t.poison = s.poison
  mem : t.mem = s.mem
  memGen : t.memGen = s.memGen
  chGen : t.chGen = s.chGen
  hostwin : t.reg Reg.hifHostwinBase = s.reg Reg.hifHostwinBase

namespace Reports

variable {s t : State}

/-- A byte is read from memory, or is the undefined byte of its generation, and the host window places its cell (R463). -/
theorem byte (h : Reports s t) (a : Nat) : t.byte a = s.byte a := by
  have hcell : t.cell a = s.cell a := by
    unfold State.cell State.fld
    rw [h.hostwin]
  unfold State.byte State.unlisted
  rw [hcell, h.mem, h.memGen, h.chGen]

theorem refl (s : State) : Reports s s := ⟨rfl, rfl, rfl, rfl, rfl, rfl⟩

theorem setReg (h : Reports s t) {off : Nat} {v : Word} (hoff : Reg.hifHostwinBase ≠ off) : Reports s (t.setReg off v) :=
  { h with hostwin := (t.reg_setReg_ne off _ v hoff).trans h.hostwin }

theorem setFld (h : Reports s t) {off hi lo x : Nat} (hoff : Reg.hifHostwinBase ≠ off) :
    Reports s (t.setFld off hi lo x) := h.setReg hoff

theorem recordFirst (h : Reports s t) {off : Nat} {v : Word} (hoff : Reg.hifHostwinBase ≠ off) :
    Reports s (t.recordFirst off v) := by
  unfold State.recordFirst
  split
  · exact h.setFld hoff
  · exact h.setReg hoff

theorem msix (h : Reports s t) {v : Nat} : Reports s (t.msix v) := by
  unfold State.msix
  split
  · exact h.setFld (by unfold Reg.hifHostwinBase Reg.hifPba; omega)
  · split
    · exact ⟨h.cnt, h.poison, h.mem, h.memGen, h.chGen, h.hostwin⟩
    · exact ⟨h.cnt, h.poison, h.mem, h.memGen, h.chGen, h.hostwin⟩

theorem event (h : Reports s t) {b : Nat} : Reports s (t.event b) := by
  have hset : Reports s (t.setFld Reg.mgtEvent b b 1) := h.setFld (by decide)
  unfold State.event
  split
  · exact h
  · dsimp only
    split
    · exact hset.msix
    · exact hset

theorem drawn (h : Reports s t) : Reports s t.drawn := ⟨h.cnt, h.poison, h.mem, h.memGen, h.chGen, h.hostwin⟩

theorem withFresh (h : Reports s t) {l : List Nat} : Reports s { t with fresh := l } :=
  ⟨h.cnt, h.poison, h.mem, h.memGen, h.chGen, h.hostwin⟩

end Reports

/-- The read of the one uncorrectable word of memory counts it, and past that count only reports it (R198). -/
theorem State.noteRead_uncorrectable {s : State} {c o : Nat} (hc : c < 800) (ho : o < 0x20_0000)
    (hp : s.poison = [chamberBase c + o]) (hf : s.fresh = []) :
    Reports (s.bump (Reg.spdEccUncorrCnt c) 1) (s.noteRead (chamberBase c + o) 4) := by
  have hsize : 0 < eccSize s.fuses.h5 (chamberBase c + o) := by
    unfold eccSize
    rw [target_chamber _ hc ho]
    exact Nat.zero_lt_succ 3
  have hin : s.poisonIn (chamberBase c + o) 4 = [chamberBase c + o] := by
    unfold State.poisonIn
    rw [hp]
    simp [hsize]
  have hnote : s.noteUncorr (chamberBase c + o) = ((s.bump (Reg.spdEccUncorrCnt c) 1).recordFirst (Reg.spdEccAddr c)
      (BitVec.ofNat 64 (o / 4))).event 4 := by
    unfold State.noteUncorr State.target
    rw [hf, target_chamber _ hc ho]
    rfl
  unfold State.noteRead
  rw [hin]
  change Reports _ (s.noteUncorr (chamberBase c + o)).drawn
  rw [hnote]
  exact ((Reports.refl _).recordFirst (by unfold Reg.hifHostwinBase Reg.spdEccAddr; omega)).event.drawn

/-! ### The counts of an access -/

/-- The state once an event is counted where it occurred. -/
def State.bumpIf (s : State) (b : Bool) (off : Nat) : State := if b then s.bump off 1 else s

theorem State.bumpIf_cnt (s : State) (b : Bool) (off : Nat) : ∃ m, s.bumpIf b off = { s with cnt := m } := by
  cases b
  · exact ⟨s.cnt, rfl⟩
  · exact ⟨_, rfl⟩

theorem State.count_bumpIf_same (s : State) (b : Bool) (off : Nat) :
    (s.bumpIf b off).count off = if b then sat (s.count off + 1) else s.count off := by
  cases b
  · rfl
  · exact s.count_bump_same off 1

theorem State.count_bumpIf_ne (s : State) (b : Bool) {off o : Nat} (h : o ≠ off) :
    (s.bumpIf b off).count o = s.count o := by
  cases b
  · rfl
  · exact s.count_bump_ne off 1 o h

/-- No counter has a part in the class of a bank (R190). -/
theorem State.viaSecondary_bumpIf (s : State) (w : Bool) (off c cls b : Nat) (load : Bool) :
    (s.bumpIf w off).viaSecondary c cls b load = s.viaSecondary c cls b load := by
  cases w <;> rfl

/-- The state once an access is counted: a conflict where it waited, and a secondary path where it takes one (R194). -/
def State.accessCounted (s : State) (c cls : Nat) (load : Bool) (o : Nat) (waited : Bool) : State :=
  let t := s.bumpIf waited (Reg.spdBankConflictCnt c)
  t.bumpIf (t.viaSecondary c cls (bankOf o) load) (Reg.spdDenseSecCnt c)

/-- In `t` the two counts of an access stand as they do once the access is made in `s` (R194). -/
def AccessCounts (s : State) (c cls : Nat) (load : Bool) (o : Nat) (waited : Bool) (t : State) : Prop :=
  t.count (Reg.spdBankConflictCnt c) =
    (if waited then sat (s.count (Reg.spdBankConflictCnt c) + 1) else s.count (Reg.spdBankConflictCnt c)) ∧
  t.count (Reg.spdDenseSecCnt c) =
    (if s.viaSecondary c cls (bankOf o) load then sat (s.count (Reg.spdDenseSecCnt c) + 1)
      else s.count (Reg.spdDenseSecCnt c))

section
variable (s : State) (c cls : Nat) (load : Bool) (o : Nat) (waited : Bool)

/-- The count changes counters alone. -/
theorem State.accessCounted_cnt : ∃ m, s.accessCounted c cls load o waited = { s with cnt := m } := by
  obtain ⟨m, hm⟩ := s.bumpIf_cnt waited (Reg.spdBankConflictCnt c)
  unfold State.accessCounted
  rw [hm]
  exact State.bumpIf_cnt _ _ _

theorem accessCounts_accessCounted : AccessCounts s c cls load o waited (s.accessCounted c cls load o waited) := by
  have hne : Reg.spdBankConflictCnt c ≠ Reg.spdDenseSecCnt c := by
    unfold Reg.spdBankConflictCnt Reg.spdDenseSecCnt
    omega
  unfold AccessCounts State.accessCounted
  dsimp only
  rw [State.viaSecondary_bumpIf, State.count_bumpIf_ne _ _ hne, State.count_bumpIf_same, State.count_bumpIf_same,
    State.count_bumpIf_ne _ _ hne.symm]
  exact ⟨rfl, rfl⟩

/-- A third counter raised after the count stands one higher, and the two counts of the access stand as before. -/
theorem accessCounts_bump {r : Nat} (hwait : Reg.spdBankConflictCnt c ≠ r) (hsec : Reg.spdDenseSecCnt c ≠ r) :
    AccessCounts s c cls load o waited ((s.accessCounted c cls load o waited).bump r 1) ∧
      ((s.accessCounted c cls load o waited).bump r 1).count r = sat (s.count r + 1) := by
  have hcount : (s.accessCounted c cls load o waited).count r = s.count r := by
    unfold State.accessCounted
    dsimp only
    rw [State.count_bumpIf_ne _ _ hsec.symm, State.count_bumpIf_ne _ _ hwait.symm]
  obtain ⟨hconflict, hsecondary⟩ := accessCounts_accessCounted s c cls load o waited
  refine ⟨⟨?_, ?_⟩, ?_⟩
  · rw [State.count_bump_ne _ _ _ _ hwait, hconflict]
  · rw [State.count_bump_ne _ _ _ _ hsec, hsecondary]
  · rw [State.count_bump_same, hcount]
    rfl

end

/-! ### What a bank serves -/

/-- A form that no bank serves does nothing. -/
theorem execChamberAccess_of_no_form {c : Fin 800} {cls : Fin 7} {load : Bool} {off : BitVec 21} {len : Fin 129}
    {waited : Bool} {found : List Ecc} {s : State} (h : ¬chamberForm cls.val off.toNat len.val = true) :
    execChamberAccess c cls load off len none waited found s = .next s := by
  unfold execChamberAccess
  exact if_pos (by simp [h])

/-- An access whose check bits show no error is counted, and then reads or writes. -/
theorem execChamberAccess_of_clean {c : Fin 800} {cls : Fin 7} {load : Bool} {off : BitVec 21} {len : Fin 129}
    {wr : Option (List (Option Byte))} {waited : Bool} {s : State} (hup : s.domUp (5 + grottoOf c.val) = true)
    (hform : chamberForm cls.val off.toNat (wr.elim len.val List.length) = true) :
    execChamberAccess c cls load off len wr waited [] s =
      let t := s.accessCounted c.val cls.val load off.toNat waited
      let a := chamberBase c.val + off.toNat
      .next (wr.elim (t.noteRead a len.val) fun bs => t.wrElems (maskedWrites a bs)) := by
  have hnew : (Ecc.clean == Ecc.uncorrectable) = false := rfl
  unfold execChamberAccess
  cases wr
  all_goals
    dsimp only [Option.elim_none, Option.elim_some] at hform ⊢
    rw [if_neg (by simp [hup, hform])]
    simp only [List.getD_nil, hnew, State.chamberEcc, ite_self, List.foldl_fixed, Bool.and_false, Bool.false_and,
      List.filter_false, List.foldl_nil]
    rfl

/-- The read of one word whose check bits show `e` is counted, then what they show, and then the read (R198); its bank
notes which word it has counted. -/
theorem execChamberAccess_of_word {c : Fin 800} {cls : Fin 7} {load : Bool} {off : BitVec 21} {waited : Bool} {e : Ecc}
    {s : State} (hup : s.domUp (5 + grottoOf c.val) = true) (hform : chamberForm cls.val off.toNat 4 = true) :
    ∃ f, execChamberAccess c cls load off 4 none waited [e] s =
      let t := s.accessCounted c.val cls.val load off.toNat waited
      let a := chamberBase c.val + off.toNat
      .next { (t.chamberEcc c.val a e).noteRead a 4 with fresh := f } := by
  unfold execChamberAccess
  dsimp only [Fin.isValue, Fin.val_ofNat]
  rw [if_neg (by simp [hup, hform])]
  exact ⟨_, rfl⟩

section
variable {c : Fin 800} {cls : Fin 7} {load : Bool} {off : BitVec 21} {len : Fin 129} {waited : Bool} {s : State}
  (hup : s.domUp (5 + grottoOf c.val) = true) (hclean : s.poison = [])

include hup hclean

/-- A write stores the bytes that it selects and no other (R192). -/
theorem execChamberAccess_write {bs : List (Option Byte)} (hform : chamberForm cls.val off.toNat bs.length = true) :
    ∃ t, execChamberAccess c cls load off len (some bs) waited [] s = .next t ∧
      AccessCounts s c.val cls.val load off.toNat waited t ∧
      (∀ k, k < bs.length → t.byte (chamberBase c.val + off.toNat + k) =
        (bs.getD k none).getD (s.byte (chamberBase c.val + off.toNat + k))) ∧
      (∀ b, b < chamberBase c.val + off.toNat ∨ chamberBase c.val + off.toNat + bs.length ≤ b → t.byte b = s.byte b) ∧
      t.regs = s.regs ∧ t.seqs = s.seqs ∧ t.poison = [] := by
  have hexec := execChamberAccess_of_clean (load := load) (len := len) (wr := some bs) (waited := waited) hup hform
  have hcounts := accessCounts_accessCounted s c.val cls.val load off.toNat waited
  obtain ⟨n, hn⟩ := s.accessCounted_cnt c.val cls.val load off.toNat waited
  dsimp only [Option.elim_some] at hexec
  rw [hn] at hexec hcounts
  rw [State.wrElems_maskedWrites (s := { s with cnt := n }) hclean] at hexec
  have hend : chamberBase c.val + off.toNat + bs.length ≤ sramBase := by
    have hin := chamberForm_end hform
    have hc := c.isLt
    unfold chamberBase sramBase
    omega
  have hbyte := State.byte_putMasked { s with cnt := n } hend
  have hbefore (b : Nat) := State.byte_putMasked_lt { s with cnt := n } (b := b) hend
  obtain ⟨m, hm⟩ := State.putMasked_mem { s with cnt := n } (chamberBase c.val + off.toNat) bs
  rw [hm] at hexec hbyte hbefore
  refine ⟨_, hexec, hcounts, fun k _ => hbyte k, fun b hb => ?_, rfl, rfl, hclean⟩
  rcases hb with hlt | hge
  · exact hbefore b hlt
  · obtain ⟨k, rfl⟩ := Nat.exists_eq_add_of_le ((Nat.le_add_right _ _).trans hge)
    refine (hbyte k).trans ?_
    rw [List.getD_eq_default _ _ (by omega)]
    rfl

/-- A read whose check bits show no error changes counters alone. -/
theorem execChamberAccess_read (hform : chamberForm cls.val off.toNat len.val = true) :
    ∃ t, execChamberAccess c cls load off len none waited [] s = .next t ∧
      AccessCounts s c.val cls.val load off.toNat waited t ∧ ∃ n, t = { s with cnt := n } := by
  have hexec := execChamberAccess_of_clean (load := load) (len := len) (wr := none) (waited := waited) hup hform
  obtain ⟨n, hn⟩ := s.accessCounted_cnt c.val cls.val load off.toNat waited
  have hread : (s.accessCounted c.val cls.val load off.toNat waited).noteRead (chamberBase c.val + off.toNat) len.val =
      s.accessCounted c.val cls.val load off.toNat waited :=
    State.noteRead_chamber_of_clean c.isLt (chamberForm_iff.mp hform).1 (chamberForm_end hform) (by rw [hn]; exact hclean)
  dsimp only [Option.elim_none] at hexec
  rw [hread] at hexec
  exact ⟨_, hexec, accessCounts_accessCounted _ _ _ _ _ _, n, hn⟩

/-- A corrected word is counted, and past the counts its read changes nothing but its bank's note (R198). -/
theorem execChamberAccess_corrected (hform : chamberForm cls.val off.toNat 4 = true) :
    ∃ t, execChamberAccess c cls load off 4 none waited [.corrected] s = .next t ∧
      AccessCounts s c.val cls.val load off.toNat waited t ∧
      t.count (Reg.spdEccCorrCnt c.val) = sat (s.count (Reg.spdEccCorrCnt c.val) + 1) ∧
      ∃ n f, t = { s with cnt := n, fresh := f } := by
  obtain ⟨f, hexec⟩ := execChamberAccess_of_word (load := load) (waited := waited) (e := .corrected) hup hform
  obtain ⟨hcounts, hcorr⟩ := accessCounts_bump s c.val cls.val load off.toNat waited (r := Reg.spdEccCorrCnt c.val)
    (by unfold Reg.spdEccCorrCnt Reg.spdBankConflictCnt; omega) (by unfold Reg.spdEccCorrCnt Reg.spdDenseSecCnt; omega)
  obtain ⟨n, hn⟩ := s.accessCounted_cnt c.val cls.val load off.toNat waited
  dsimp only at hexec
  generalize s.accessCounted c.val cls.val load off.toNat waited = t at *
  have hpoison : t.poison = [] := by rw [hn]; exact hclean
  have hecc : t.chamberEcc c.val (chamberBase c.val + off.toNat) .corrected = t.bump (Reg.spdEccCorrCnt c.val) 1 := by
    unfold State.chamberEcc
    rw [hpoison]
    rfl
  rw [hecc, State.noteRead_chamber_of_clean (s := t.bump (Reg.spdEccCorrCnt c.val) 1) c.isLt (by decide)
    (chamberForm_end hform) hpoison] at hexec
  exact ⟨_, hexec, hcounts, hcorr, _, f, by rw [hn]; rfl⟩

/-- A word found uncorrectable is so from then on, and is counted (R198). -/
theorem execChamberAccess_uncorrectable (hfresh : s.fresh = []) (hform : chamberForm cls.val off.toNat 4 = true) :
    ∃ t, execChamberAccess c cls load off 4 none waited [.uncorrectable] s = .next t ∧
      AccessCounts s c.val cls.val load off.toNat waited t ∧ t.poison = [chamberBase c.val + off.toNat] ∧
      t.count (Reg.spdEccUncorrCnt c.val) = sat (s.count (Reg.spdEccUncorrCnt c.val) + 1) ∧ ∀ b, t.byte b = s.byte b := by
  obtain ⟨f, hexec⟩ := execChamberAccess_of_word (load := load) (waited := waited) (e := .uncorrectable) hup hform
  obtain ⟨⟨hconflict, hsecondary⟩, huncorr⟩ := accessCounts_bump s c.val cls.val load off.toNat waited
    (r := Reg.spdEccUncorrCnt c.val) (by unfold Reg.spdEccUncorrCnt Reg.spdBankConflictCnt; omega)
    (by unfold Reg.spdEccUncorrCnt Reg.spdDenseSecCnt; omega)
  obtain ⟨n, hn⟩ := s.accessCounted_cnt c.val cls.val load off.toNat waited
  dsimp only at hexec
  generalize s.accessCounted c.val cls.val load off.toNat waited = t at *
  have hecc : t.chamberEcc c.val (chamberBase c.val + off.toNat) .uncorrectable =
      { t with poison := [chamberBase c.val + off.toNat] } := by
    unfold State.chamberEcc
    rw [show t.poison = [] by rw [hn]; exact hclean]
    rfl
  rw [hecc] at hexec
  have hreports := (State.noteRead_uncorrectable (s := { t with poison := [chamberBase c.val + off.toNat] })
    c.isLt (o := off.toNat) off.isLt rfl (by rw [hn]; exact hfresh)).withFresh (l := f)
  have hcount (r : Nat) := congrArg (SMap.get 0 · r) hreports.cnt
  refine ⟨_, hexec, ⟨(hcount _).trans hconflict, (hcount _).trans hsecondary⟩, hreports.poison,
    (hcount _).trans huncorr, fun b => (hreports.byte b).trans ?_⟩
  rw [hn]
  rfl

end

end Sys2Proof.Machine
end

section
/-! The packet mesh: what a packet's arrival counts, where it goes and what an uncorrectable flit spoils (R241, R242, R245). -/

namespace Sys2Proof.Machine
open Sys2Proof

/-! ### A packet's arrival at a router -/

/-- A router has room for a packet that leaves the mesh there (R242). -/
theorem State.vcRoom_self (s : State) (c ch : Nat) (own : PacketOwner) (bad : Bool) : s.vcRoom c ch ⟨c, own, bad⟩ = true := by
  simp [State.vcRoom]

/-- A packet for another router waits in its channel at its next output, behind the packets there (R241, R242). -/
theorem State.meshArrive_pass {s : State} {c ch : Nat} {p : MeshPkt} {e : Ecc} (h : p.dst ≠ c) :
    ∃ n, s.meshArrive c ch p e = { s with
      cnt := n
      mesh := SMap.put [] s.mesh (16 * c + 4 * meshOut c p.dst + ch) (s.vcBuf c (meshOut c p.dst) ch ++
        [{ p with poisoned := p.poisoned || e == .uncorrectable }]) } := by
  unfold State.meshArrive
  cases e <;> exact ⟨_, if_neg h⟩

theorem State.meshArrive_here_clean {s : State} {c ch : Nat} {p : MeshPkt} (hd : p.dst = c) (hp : p.poisoned = false) :
    s.meshArrive c ch p .clean = s := by
  obtain ⟨dst, own, bad⟩ := p
  subst hd hp
  exact if_pos rfl

/-- A corrected flit is counted, and spoils nothing (R245). -/
theorem State.meshArrive_here_corrected {s : State} {c ch : Nat} {p : MeshPkt} (hd : p.dst = c) (hp : p.poisoned = false) :
    s.meshArrive c ch p .corrected = s.bump (Reg.nocLinkCorrCnt c) 1 := by
  obtain ⟨dst, own, bad⟩ := p
  subst hd hp
  exact if_pos rfl

/-- An uncorrectable flit is counted, and spoils what the packet belongs to (R245). -/
theorem State.meshArrive_here_uncorrectable {s : State} {c ch : Nat} {p : MeshPkt} (hd : p.dst = c) :
    s.meshArrive c ch p .uncorrectable = (s.bump (Reg.nocLinkUncorrCnt c) 1).poisonOwner p.owner := by
  obtain ⟨dst, own, bad⟩ := p
  subst hd
  cases bad <;> exact if_pos rfl

theorem Code.rank_le_rank_max (x y : Code) : y.rank ≤ (x.max y).rank := by
  unfold Code.max
  split
  · exact Nat.le_refl _
  · next h => exact Nat.le_of_not_lt h

/-- Every work under the handle of a poisoned packet has at least the code of an uncorrectable error (R245). -/
theorem State.rank_works_poisonOwner {s : State} {u : SeqId} {h : BitVec 5} {w : Work}
    (hw : w ∈ ((s.poisonOwner (.work u h)).seq u).works) (hh : w.handle = h.toNat) : Code.rank .ecc ≤ w.acc.rank := by
  unfold State.poisonOwner at hw
  rw [State.seq_onSeq_same] at hw
  obtain ⟨x, -, rfl⟩ := List.mem_map.mp hw
  split at hh
  · next hx =>
    rw [if_pos hx]
    exact Code.rank_le_rank_max _ _
  · next hx => exact absurd hh hx

/-! ### Where a packet comes from -/

section
variable {c dst : Fin 800} {ch : Fin 4} {e : Ecc} {own : PacketOwner} {s : State} (hup : s.domUp 4 = true)

include hup

/-- A packet from the core or edge block at a router enters the mesh where there is room (R242). -/
theorem execMeshPacketReceive_from_core : execMeshPacketReceive c 4 ch dst e own s =
    .next (if s.vcRoom c.val ch.val ⟨dst.val, own, false⟩ then s.meshArrive c.val ch.val ⟨dst.val, own, false⟩ e
      else s) := by
  unfold execMeshPacketReceive
  rw [if_neg (by simp [hup]), if_pos rfl]

/-- A router takes the first packet of the channel whose turn it is at the link (R242). -/
theorem execMeshPacketReceive_of_turn {d : Fin 4} {n : Nat} {p : MeshPkt} {l : List MeshPkt}
    (hn : meshNext c.val d.val = some n) (hturn : s.vcTurn n (meshBack d.val) = some ch.val)
    (hbuf : s.vcBuf n (meshBack d.val) ch.val = p :: l) :
    execMeshPacketReceive c d.castSucc ch dst e own s =
      .next (({ s with
        mesh := SMap.put [] s.mesh (16 * n + 4 * meshBack d.val + ch.val) l
        meshTurn := SMap.put 3 s.meshTurn (4 * n + meshBack d.val) ch.val } : State).meshArrive c.val ch.val p e) := by
  unfold execMeshPacketReceive
  rw [if_neg (by simp [hup]), if_neg (show d.castSucc ≠ 4 from Fin.castSucc_ne_last d)]
  simp only [Fin.val_castSucc, hn, hturn, hbuf, ne_eq, not_true_eq_false, if_false]

theorem execMeshPacketReceive_of_not_turn {d : Fin 4} {n : Nat} (hn : meshNext c.val d.val = some n)
    (hturn : s.vcTurn n (meshBack d.val) ≠ some ch.val) :
    execMeshPacketReceive c d.castSucc ch dst e own s = .next s := by
  unfold execMeshPacketReceive
  rw [if_neg (by simp [hup]), if_neg (show d.castSucc ≠ 4 from Fin.castSucc_ne_last d)]
  simp only [Fin.val_castSucc, hn, if_pos hturn]

end

/-- Settles O29: an access is counted, and then its clean, corrected or uncorrectable words are read or its selected bytes
written; a packet enters its buffer, leaves the mesh or stays where it is. SPD.DENSE_SEC_CNT counts as log entry 105 has it,
and the room of a buffer is that of log entry 112. -/
theorem chamberAndMesh : Obligations.ChamberAndMesh := by
  unfold Obligations.ChamberAndMesh
  refine ⟨?_, ?_⟩
  · intro c cls load off len bs waited s hup hclean hfresh o a form counted
    have hform (n : Nat) : form n ↔ chamberForm cls.val off.toNat n = true := by
      fin_cases cls <;> exact chamberForm_iff.symm
    refine ⟨fun h => ?_, fun h => ?_, fun h => ?_, fun h => ?_, fun h => ?_⟩
    · exact execChamberAccess_write (len := len) hup hclean ((hform _).mp h)
    · obtain ⟨t, ht, hcounts, n, rfl⟩ :=
        execChamberAccess_read (load := load) (waited := waited) hup hclean ((hform _).mp h)
      exact ⟨_, ht, hcounts, fun _ => rfl, rfl, rfl, hclean⟩
    · obtain ⟨t, ht, hcounts, hcorr, n, f, rfl⟩ :=
        execChamberAccess_corrected (load := load) (waited := waited) hup hclean ((hform _).mp h)
      exact ⟨_, ht, hcounts, hclean, hcorr, fun _ => rfl⟩
    · exact execChamberAccess_uncorrectable hup hclean hfresh ((hform _).mp h)
    · exact execChamberAccess_of_no_form (mt (hform _).mpr h)
  · intro c dst ch e own s hup out p
    have henter (d : Fin 800) (e : Ecc) (own : PacketOwner) := execMeshPacketReceive_from_core (c := c) (dst := d) (ch := ch)
      (e := e) (own := own) hup
    have hhere (e : Ecc) (own : PacketOwner) : execMeshPacketReceive c 4 ch c e own s =
        .next (s.meshArrive c.val ch.val ⟨c.val, own, false⟩ e) := by
      rw [henter, if_pos (s.vcRoom_self _ _ _ _)]
    refine ⟨fun hne hroom => ?_, fun hroom => ?_, ?_, ?_, fun u h => ?_,
      fun d n x l hn hbuf => ⟨fun hturn hx hp => ?_, fun hturn => ?_⟩⟩
    · obtain ⟨n, hn⟩ := s.meshArrive_pass (c := c.val) (ch := ch.val) (p := p) (e := e) (fun h => hne (Fin.ext h))
      exact ⟨_, (henter dst e own).trans (congrArg _ ((if_pos hroom).trans hn)), rfl, SMap.get_put_same _ _ _ _⟩
    · exact (henter dst e own).trans (congrArg _ (if_neg (by rw [hroom]; decide)))
    · exact (hhere .clean own).trans (congrArg _ (State.meshArrive_here_clean rfl rfl))
    · exact (hhere .corrected own).trans (congrArg _ (State.meshArrive_here_corrected rfl rfl))
    · exact ⟨_, (hhere .uncorrectable (.work u h)).trans (congrArg _ (State.meshArrive_here_uncorrectable rfl)),
        State.count_bump_same _ _ _, fun w hw hh => State.rank_works_poisonOwner hw hh⟩
    · exact ⟨_, (execMeshPacketReceive_of_turn hup hn hturn hbuf).trans (congrArg _ (State.meshArrive_here_clean hx hp)),
        rfl, SMap.get_put_same _ _ _ _, SMap.get_put_same _ _ _ _⟩
    · exact execMeshPacketReceive_of_not_turn hup hn hturn

end Sys2Proof.Machine
end

section
/-! Addresses past GDDR7: the chamber that such an address names, and that no clear, no retraining slice and no page table
stands between it and its access (R230, R254, R396, R401). -/

namespace Sys2Proof.Machine
open Sys2Proof

/-- An address that names a word of a chamber lies in the chamber window. -/
theorem inChamberWindow_of_target {s : State} {a c o : Nat} (h : s.target a = .chamber c o) : inChamberWindow a = true := by
  unfold State.target Machine.target at h
  by_contra hout
  unfold inChamberWindow at hout
  rw [if_neg hout] at h
  split_ifs at h

theorem le_of_inChamberWindow {a : Nat} (h : inChamberWindow a = true) : 0x2000_0000_0000 ≤ a := by
  unfold inChamberWindow at h
  exact of_decide_eq_true (Bool.and_eq_true_iff.mp h).1

theorem lt_of_inChamberWindow {a : Nat} (h : inChamberWindow a = true) : a < 0x2000_C800_0000 := by
  unfold inChamberWindow at h
  exact of_decide_eq_true (Bool.and_eq_true_iff.mp h).2

/-- Past GDDR7 no address names a memory controller (R458). -/
theorem State.target_ne_gddr (s : State) {a : Nat} (ha : 0x100_0000_0000 ≤ a) (m o : Nat) : s.target a ≠ .gddr m o := by
  unfold State.target Machine.target
  rw [if_neg (by omega)]
  dsimp only
  split_ifs <;> simp

theorem State.clearing_of_ge (s : State) {a : Nat} (ha : 0x100_0000_0000 ≤ a) : s.clearing a = false := by
  unfold State.clearing
  split
  · next h => exact absurd h (s.target_ne_gddr ha _ _)
  · rfl

/-- The byte that an access delivers past GDDR7, where memory holds no uncorrectable unit. -/
theorem State.rd_of_clean {s : State} (hp : s.poison = []) {a : Nat} (ha : 0x100_0000_0000 ≤ a) : s.rd a = s.byte a := by
  unfold State.rd State.poisoned
  rw [hp, s.clearing_of_ge ha]
  rfl

/-- No retraining slice holds an access to a chamber back (R396). -/
theorem State.training_of_window (s : State) {a : Nat} (ha : inChamberWindow a = true) (n : Nat) :
    s.training a n = false := by
  have hle := le_of_inChamberWindow ha
  unfold State.training
  rw [Bool.and_eq_false_iff]
  refine .inr (List.any_eq_false.mpr fun i _ => ?_)
  dsimp only
  split
  · next h => exact absurd h (s.target_ne_gddr (by omega) _ _)
  · simp

/-- A siphon reaches a chamber's word at its own address, past its TLB (R230). -/
theorem State.sipXlate_chamber {s : State} {a c o : Nat} (h : s.target a = .chamber c o) (n : Nat) (rd wr : Bool) :
    s.sipXlate n a rd wr = (s, .local_ a) := by
  unfold State.sipXlate State.translate
  rw [if_pos (inChamberWindow_of_target h), if_pos (inChamberWindow_of_target h), h]

/-- Inside the chamber window every address is its own local address (R230). -/
theorem eq_of_translate_local {s : State} {root : Word} {va eng a : Nat} {rd wr : Bool} (hwin : inChamberWindow va = true)
    (h : s.translate root va eng rd wr = .local_ a) : a = va := by
  unfold State.translate at h
  rw [if_pos hwin] at h
  split at h
  · cases h
  · cases h
    rfl

theorem toNat_append_eq_add {m n : Nat} (x : BitVec m) (y : BitVec n) : (x ++ y).toNat = x.toNat * 2 ^ n + y.toNat := by
  rw [BitVec.toNat_append, ← Nat.shiftLeft_add_eq_or_of_lt y.isLt, Nat.shiftLeft_eq]

/-- Four bytes in their order in memory are the word that they spell (R8). -/
theorem ofNat_leNat_four (a b c d : Byte) : BitVec.ofNat 32 (leNat [a, b, c, d]) = d ++ c ++ b ++ a := by
  apply BitVec.eq_of_toNat_eq
  have ha := a.isLt
  have hb := b.isLt
  have hc := c.isLt
  have hd := d.isLt
  simp only [toNat_append_eq_add, leNat, BitVec.toNat_ofNat]
  omega

/-- A counter in a chamber that meets no uncorrectable unit reads as its word (R254). -/
theorem State.counterAt_of_clean {s : State} (hp : s.poison = []) {h : Nat} (hh : 0x100_0000_0000 ≤ h) :
    s.counterAt h = s.word32 h := by
  have hbytes : s.rdBytes h 4 = [s.byte h, s.byte (h + 1), s.byte (h + 2), s.byte (h + 3)] := by
    change [s.rd h, s.rd (h + 1), s.rd (h + 2), s.rd (h + 3)] = _
    rw [State.rd_of_clean hp hh, State.rd_of_clean hp (by omega), State.rd_of_clean hp (by omega),
      State.rd_of_clean hp (by omega)]
  unfold State.counterAt State.rdLE
  rw [hbytes]
  exact ofNat_leNat_four _ _ _ _

theorem State.rdBad_of_clean {s : State} (hp : s.poison = []) (a n : Nat) : s.rdBad a n = false := by
  unfold State.rdBad State.poisonIn
  rw [hp]
  rfl

end Sys2Proof.Machine
end

section
/-! The rows of a siphon's program that change its registers, its wait at a counter, and the TLBs (R218 to R220, R233, R234,
R257, R259). -/

namespace Sys2Proof.Machine
open Sys2Proof

/-! ### The registers of a program -/

theorem listSet_eq_set {α : Type} (l : List α) (i : Nat) (v : α) : listSet l i v = l.set i v := by
  induction l generalizing i with
  | nil => rfl
  | cons x l ih =>
    cases i with
    | zero => rfl
    | succ i => exact congrArg (x :: ·) (ih i)

/-- The model's s32 is the signed value of the number modulo 2^32 (R218). -/
theorem s32_eq_toInt (z : Int) : s32 z = (BitVec.ofInt 32 z).toInt := by
  unfold s32 sext
  rw [BitVec.toInt_ofInt, Int.bmod_def]
  dsimp only
  split <;> split <;> omega

theorem SipInstr.x_eq (w : Word) : SipInstr.x w = decide (w.extractLsb' 46 1 = 1) := by
  have h : bits 46 46 w = (w.extractLsb' 46 1).toNat := rfl
  unfold SipInstr.x
  rw [h, Bool.eq_iff_iff, beq_iff_eq, decide_eq_true_iff, ← BitVec.toNat_inj]
  rfl

/-- The barrier that a WAITB names. -/
theorem SipInstr.b2n_x (w : Word) : b2n (SipInstr.x w) = (w.extractLsb' 46 1).toNat := by
  rw [SipInstr.x_eq]
  generalize w.extractLsb' 46 1 = x
  obtain rfl | rfl := BitVec.eq_zero_or_eq_one x <;> rfl

/-! ### One row of a program -/

theorem State.siph_onSiph_same (s : State) (n : Nat) (f : Siphon → Siphon) : (s.onSiph n f).siph n = f (s.siph n) :=
  SMap.get_put_same _ _ _ _

theorem State.siph_onSiph_ne (s : State) (n m : Nat) (f : Siphon → Siphon) (h : m ≠ n) :
    (s.onSiph n f).siph m = s.siph m :=
  SMap.get_put_ne _ _ _ _ _ _ h

theorem State.id_of_xfer {s : State} {n id : Nat} {t : Transfer} (h : s.xfer n id = some t) : t.id = id := by
  simpa using List.find?_some h

/-- A transfer stored under its number is the transfer of that number. -/
theorem State.xfer_setXfer {s : State} {n id : Nat} {t t' : Transfer} (h : s.xfer n id = some t) (hid : t'.id = t.id) :
    (s.setXfer n t').xfer n id = some t' := by
  have ht := State.id_of_xfer h
  unfold State.xfer State.setXfer at *
  rw [State.siph_onSiph_same]
  dsimp only
  generalize (s.siph n).transfers = l at h
  induction l with
  | nil => simp at h
  | cons x l ih =>
    by_cases hx : x.id = id
    · simp [hx, hid, ht]
    · rw [List.find?_cons_of_neg (by simpa using hx)] at h
      rw [List.map_cons, if_neg (by rw [hid, ht]; exact hx), List.find?_cons_of_neg (by simpa using hx)]
      exact ih h

/-- A row of transfer `id` of siphon `n` answers a state in which the transfer is `t`, and changes neither another siphon nor
the siphon's TLB nor any other part of the block. -/
def RowSets (n : Fin 216) (id : Nat) (s : State) (t : Transfer) (o : Out) : Prop :=
  ∃ s', o = .next s' ∧ s'.xfer n.val id = some t ∧ s' = { s with siphons := s'.siphons } ∧
    (∀ m, m ≠ n.val → s'.siph m = s.siph m) ∧ (s'.siph n.val).tlb = (s.siph n.val).tlb

theorem rowSets_of_setXfer {n : Fin 216} {id : Nat} {s : State} {t t' : Transfer} {o : Out} (h : s.xfer n.val id = some t)
    (hid : t'.id = t.id) (ho : o = .next (s.setXfer n.val t')) : RowSets n id s t' o :=
  ⟨_, ho, State.xfer_setXfer h hid, rfl, fun m hm => s.siph_onSiph_ne n.val m _ hm,
    (congrArg Siphon.tlb (s.siph_onSiph_same n.val _)).trans rfl⟩

section
variable {n : Fin 216} {id : Nat} {s : State} {t : Transfer} (hx : s.xfer n.val id = some t) (hm : t.mode = .prog)
  (he : t.ended = false) (hw : t.waiting = false)
include hx hm he hw

/-- The row of a transfer whose current instruction has its opcode runs, and the transfer is stored. -/
theorem onProg_runs {op : Nat} {f : Word → Transfer → State × Transfer} {s' : State} {t' : Transfer}
    (hop : SipInstr.op (t.prog.getD t.pc 0) = op) (hf : f (t.prog.getD t.pc 0) t = (s', t')) :
    onProg n id op s f = .next (s'.setXfer n.val t') := by
  unfold onProg
  rw [hx]
  dsimp only
  rw [hop, if_neg (by simp [hm, he, hw]), hf]

/-- A row that changes its transfer alone. -/
theorem onProg_rowSets {op : Nat} {f : Word → Transfer → State × Transfer} {t' : Transfer}
    (hop : SipInstr.op (t.prog.getD t.pc 0) = op) (hf : f (t.prog.getD t.pc 0) t = (s, t')) (hid : t'.id = t.id) :
    RowSets n id s t' (onProg n id op s f) :=
  rowSets_of_setXfer hx hid (onProg_runs hx hm he hw hop hf)

/-- LOOP below its count goes back. -/
theorem execSipLoop_back (hop : SipInstr.op (t.prog.getD t.pc 0) = 1) :
    let w := t.prog.getD t.pc 0
    let k := if w.extractLsb' 46 1 = 1 then t.operand else SipInstr.imm w
    let c := (t.c.getD (SipInstr.lvl w) 0 + 1) % 2 ^ 32
    c < k → RowSets n id s { t with c := t.c.set (SipInstr.lvl w) c, pc := SipInstr.tgt w } (execSipLoop n id s) := by
  intro w k c hlt
  refine onProg_rowSets hx hm he hw hop ?_ rfl
  simp only [SipInstr.x_eq, listSet_eq_set, decide_eq_true_iff]
  exact if_pos hlt

/-- LOOP at its count clears its counter and goes on. -/
theorem execSipLoop_through (hop : SipInstr.op (t.prog.getD t.pc 0) = 1) :
    let w := t.prog.getD t.pc 0
    let k := if w.extractLsb' 46 1 = 1 then t.operand else SipInstr.imm w
    let c := (t.c.getD (SipInstr.lvl w) 0 + 1) % 2 ^ 32
    ¬c < k → RowSets n id s { t with c := t.c.set (SipInstr.lvl w) 0 }.adv (execSipLoop n id s) := by
  intro w k c hge
  refine onProg_rowSets hx hm he hw hop ?_ rfl
  simp only [SipInstr.x_eq, listSet_eq_set, decide_eq_true_iff]
  exact if_neg hge

/-- ADD of an immediate. -/
theorem execSipAdd_rowSets (hop : SipInstr.op (t.prog.getD t.pc 0) = 2) (hx0 : (t.prog.getD t.pc 0).extractLsb' 46 1 = 0) :
    let w := t.prog.getD t.pc 0
    let d := SipInstr.dim w
    RowSets n id s { t with x := t.x.set d (BitVec.ofInt 32 (t.x.getD d 0 + SipInstr.imm w)).toInt }.adv
      (execSipAdd n id s) := by
  refine onProg_rowSets hx hm he hw hop ?_ rfl
  dsimp only
  rw [SipInstr.x_eq, hx0, listSet_eq_set, s32_eq_toInt]
  rfl

theorem execSipMod_rowSets (hop : SipInstr.op (t.prog.getD t.pc 0) = 3) :
    let w := t.prog.getD t.pc 0
    let d := SipInstr.dim w
    RowSets n id s { t with x := t.x.set d (BitVec.ofInt 32 (t.x.getD d 0 % (SipInstr.imm w : Int))).toInt }.adv
      (execSipMod n id s) := by
  refine onProg_rowSets hx hm he hw hop ?_ rfl
  dsimp only
  rw [listSet_eq_set, s32_eq_toInt]

theorem execSipRev_rowSets (hop : SipInstr.op (t.prog.getD t.pc 0) = 4) :
    let d := SipInstr.dim (t.prog.getD t.pc 0)
    RowSets n id s { t with rev := t.rev.set d (1 - t.rev.getD d 0) }.adv (execSipRev n id s) := by
  refine onProg_rowSets hx hm he hw hop ?_ rfl
  rw [listSet_eq_set]

theorem execSipRot_rowSets (hop : SipInstr.op (t.prog.getD t.pc 0) = 5) :
    let w := t.prog.getD t.pc 0
    let d := SipInstr.dim w
    RowSets n id s { t with rot := t.rot.set d (SipInstr.imm w % t.driven.size d) }.adv (execSipRot n id s) := by
  refine onProg_rowSets hx hm he hw hop ?_ rfl
  dsimp only
  rw [listSet_eq_set]

theorem execSipEnd_rowSets (hop : SipInstr.op (t.prog.getD t.pc 0) = 0) :
    RowSets n id s { t with ended := true } (execSipEnd n id s) :=
  onProg_rowSets hx hm he hw hop rfl rfl

/-- A WAITB at a chamber's counter advances its target, and goes on where the counter has reached it or registers a wait
where it has not (R218, R257, R259). -/
theorem execSipWaitb_chamber {h c o i : Nat} {tg : BitVec 32} {r : State × Transfer}
    (hop : SipInstr.op (t.prog.getD t.pc 0) = 8) (hi : ((t.prog.getD t.pc 0).extractLsb' 46 1).toNat = i)
    (hh : t.bar.getD i 0 % 2 ^ 48 = h) (htg : t.t.getD i 0 + (t.prog.getD t.pc 0).extractLsb' 0 32 = tg)
    (hhome : s.target h = .chamber c o) (hp : s.poison = [])
    (hr : (if 0 ≤ (s.word32 h - tg).toInt then (s, { t with t := t.t.set i tg }.adv)
      else (s.watch h tg (.sip n id), { t with t := t.t.set i tg, waiting := true })) = r) :
    execSipWaitb n id s = .next (r.1.setXfer n.val r.2) := by
  have hge := le_of_inChamberWindow (inChamberWindow_of_target hhome)
  have hcounter := State.counterAt_of_clean hp (Nat.le_trans (by decide) hge)
  have himm : BitVec.ofNat 32 (SipInstr.imm (t.prog.getD t.pc 0)) = (t.prog.getD t.pc 0).extractLsb' 0 32 :=
    BitVec.eq_of_toNat_eq (Nat.mod_mod _ _)
  refine onProg_runs hx hm he hw hop ?_
  dsimp only
  rw [SipInstr.b2n_x, hi, hh, State.sipXlate_chamber hhome]
  dsimp only
  rw [hhome, State.rdBad_of_clean hp, hcounter, listSet_eq_set, himm, htg]
  simp only [Bool.not_true, Bool.false_eq_true, if_false, ahead, decide_eq_true_iff]
  exact hr

end

/-! ### The TLBs -/

/-- The invalidation of the first `k` siphons' TLBs empties those and no other (R234). -/
theorem forUpto_onSiph_dropTlb (s : State) (k n : Nat) :
    (forUpto k (fun n s => s.onSiph n fun q => { q with tlb := [] }) s).siph n =
      if n < k then { s.siph n with tlb := [] } else s.siph n := by
  induction k with
  | zero => rfl
  | succ k ih =>
    have hstep : forUpto (k + 1) (fun n s => s.onSiph n fun q => { q with tlb := [] }) s =
        (forUpto k (fun n s => s.onSiph n fun q => { q with tlb := [] }) s).onSiph k fun q => { q with tlb := [] } := rfl
    rw [hstep]
    by_cases hn : n = k
    · subst hn
      rw [State.siph_onSiph_same, ih, if_neg (by omega), if_pos (by omega)]
    · rw [State.siph_onSiph_ne _ _ _ _ hn, ih]
      exact if_congr (by omega) rfl rfl

theorem State.dropTlbs_siphons (s : State) : s.dropTlbs = { s with siphons := s.dropTlbs.siphons } :=
  forUpto_keeps (P := fun t : State => t = { s with siphons := t.siphons }) rfl fun i t ht => by
    rw [ht]
    rfl

/-- A lookup that misses a siphon's TLB and finds a leaf counts the miss and the reads of its walk, and puts the translation
first in the TLB (R233). -/
theorem State.sipLookup_miss {s : State} {n va sh : Nat} {l : List Nat} {e : Word}
    (hon : (s.epReg (sipUnit n) Reg.sipPtRoot).getLsbD 0 = true)
    (hmiss : ∀ x ∈ (s.siph n).tlb, x.vpage ≠ va >>> x.shift)
    (hwalk : s.walk (s.epReg (sipUnit n) Reg.sipPtRoot) va = (l, .leaf e sh)) :
    s.sipLookup n va = (((s.bump (Reg.sipTlbMissCnt n) 1).bump (Reg.sipWalkReadCnt n) l.length).onSiph n fun q =>
      { q with tlb := (⟨va >>> sh, sh, e⟩ :: q.tlb).take 256 }, .leaf e sh) := by
  have hroot : bits 0 0 (s.epReg (sipUnit n) Reg.sipPtRoot) ≠ 0 := by
    rw [bits, Nat.shiftRight_zero, Nat.zero_add, Nat.sub_zero, pow_one]
    simpa [BitVec.getLsbD] using hon
  have hfind : (s.siph n).tlb.find? (fun e => e.vpage == va >>> e.shift) = none :=
    List.find?_eq_none.mpr fun x hx => by simpa using hmiss x hx
  unfold State.sipLookup
  rw [if_neg hroot, hfind]
  dsimp only
  rw [hwalk]

/-- The walk of the run-ahead fills the TLB at an address that misses it (R233). -/
theorem execTlbWalkDone_miss {n : Fin 216} {va : BitVec 48} {s : State} {l : List Nat} {e : Word} {sh : Nat}
    (hrun : (s.siph n.val).transfers ≠ []) (hwin : inChamberWindow va.toNat = false)
    (hon : (s.epReg (sipUnit n.val) Reg.sipPtRoot).getLsbD 0 = true)
    (hmiss : ∀ x ∈ (s.siph n.val).tlb, x.vpage ≠ va.toNat >>> x.shift)
    (hwalk : s.walk (s.epReg (sipUnit n.val) Reg.sipPtRoot) va.toNat = (l, .leaf e sh)) :
    ∃ t, execTlbWalkDone n va s = .next t ∧
      (t.siph n.val).tlb = (⟨va.toNat >>> sh, sh, e⟩ :: (s.siph n.val).tlb).take 256 ∧
      t.count (Reg.sipTlbMissCnt n.val) = sat (s.count (Reg.sipTlbMissCnt n.val) + 1) ∧ ∀ a, t.byte a = s.byte a := by
  have hexec : execTlbWalkDone n va s = .next (s.sipLookup n.val va.toNat).1 := by
    unfold execTlbWalkDone
    exact if_neg (by simp [hrun, hwin])
  rw [State.sipLookup_miss hon hmiss hwalk] at hexec
  refine ⟨_, hexec, ?_, ?_, fun _ => rfl⟩
  · rw [State.siph_onSiph_same]
    rfl
  · change ((s.bump _ 1).bump _ _).count _ = _
    rw [State.count_bump_ne _ _ _ _ (by unfold Reg.sipTlbMissCnt Reg.sipWalkReadCnt; omega), State.count_bump_same]
    rfl

/-- Settles O32: each register row stores its transfer with one register changed, a WAITB at a chamber's counter goes on or
registers its wait, and a TLB is filled at its front and emptied whole. The invalidation takes effect at once, as log entry
15 has it. -/
theorem siphonRegistersTlb : Obligations.SiphonRegistersTlb := by
  unfold Obligations.SiphonRegistersTlb
  refine ⟨?_, fun s => ⟨⟨_, rfl, s.dropTlbs_siphons, fun n hn => ?_⟩, fun n va l e sh => execTlbWalkDone_miss⟩⟩
  · intro n id s t hx hm he hw _ _ _ _ w d imm lvl x op as32 becomes _ _
    refine ⟨fun hop => ⟨execSipLoop_back hx hm he hw hop, execSipLoop_through hx hm he hw hop⟩,
      execSipAdd_rowSets hx hm he hw, execSipMod_rowSets hx hm he hw, execSipRev_rowSets hx hm he hw,
      execSipRot_rowSets hx hm he hw, execSipEnd_rowSets hx hm he hw, ?_⟩
    · intro h k o va tg t' hop _ hwin hxl _ hhome hp
      obtain rfl := eq_of_translate_local hwin hxl
      refine ⟨fun hreached => ?_, fun hbehind => ?_⟩
      · have hrow := execSipWaitb_chamber hx hm he hw hop rfl rfl rfl hhome hp (if_pos hreached)
        exact rowSets_of_setXfer hx rfl hrow
      · have hrow := execSipWaitb_chamber hx hm he hw hop rfl rfl rfl hhome hp (if_neg (not_le.mpr hbehind))
        exact ⟨_, _, hrow, State.xfer_setXfer hx rfl, rfl, rfl, rfl, rfl, rfl, fun _ => rfl⟩
  · exact (forUpto_onSiph_dropTlb s 216 n).trans (if_pos hn)

end Sys2Proof.Machine
end

section
/-! One element of a siphon's stream: the EMIT of an eight-bit element between chambers, and the PAD of one (R221, R222, R226). -/

namespace Sys2Proof.Machine
open Sys2Proof

/-! ### Eight-bit elements in rows -/

namespace TD

/-- An I8 tensor in rows without block scales: its elements are bytes, and nothing travels with them. -/
structure Bytewise (a : TD) : Prop where
  fm : a.fm = .i8
  lay : a.lay = .rm
  unscaled : a.hasBlocks = false

namespace Bytewise

variable {a : TD} (h : a.Bytewise)
include h

theorem bits : a.bits = 8 := by
  have hfm := h.fm
  unfold TD.fm at hfm
  unfold TD.bits
  cases hf : a.fmt <;> simp_all [Fmt.bits]

/-- Its elements stand at whole bytes. -/
theorem elemBit (m : List Nat) : (a.elemBit m).toNat = 8 * ((a.elemBit m).toNat / 8) := by
  have hdvd : (8 : Int) ∣ a.elemBit m := by
    unfold TD.elemBit
    dsimp only
    rw [h.bits]
    exact ⟨_, (mul_add _ _ _).symm⟩
  omega

end Bytewise
end TD

/-! ### One byte of a chamber, where nothing in flight shares it -/

theorem pageSegs_one (va : Nat) : pageSegs 2 va 1 = [(va, 1)] := by
  have hmin : min 1 (0x1_0000 - va % 0x1_0000) = 1 := by omega
  simp [pageSegs, hmin]

theorem State.readMeet_of_apart {s : State} {m : Access} {a n : Nat} (h : s.meets m a n = false) :
    s.readMeet m a n = (s, s.rdBytes a n) := if_neg (by simp [h])

theorem State.writeMeet_of_apart {s : State} {m : Access} {a : Nat} {bs : List Byte} (h : s.meets m a bs.length = false) :
    s.writeMeet m a bs = (s, bs) := if_neg (by simp [h])

section
variable {s : State} (h : ∀ e ∈ s.upds, e.2.inv = none) (root : Word) (va : Nat)
include h

/-- Engines without an invocation share no byte with an access (R348). -/
theorem State.any_updHit_of_idle (wr : Bool) (k : Nat) :
    (s.upds.any fun e => !(s.updHit e root wr va k).isEmpty) = false :=
  List.any_eq_false.mpr fun e he => by
    unfold State.updHit
    rw [h e he]
    simp

theorem State.readUpdated_of_idle (k : Nat) (bs : List Byte) : s.readUpdated root va k bs = (s, bs) :=
  if_neg (by simp [State.any_updHit_of_idle h])

theorem State.writeUpdated_of_idle (bs : List Byte) : s.writeUpdated root va bs = (s, bs) :=
  if_neg (by simp [State.any_updHit_of_idle h])

end

theorem State.noteWrote_seqs (s : State) (m : Access) (a k : Nat) : ∃ q, s.noteWrote m a k = { s with seqs := q } := by
  unfold State.noteWrote
  split
  · exact ⟨_, rfl⟩
  · exact ⟨_, rfl⟩

theorem State.poolTouch_of_no_pools {s : State} (h : s.pools = []) (a n : Nat) : s.poolTouch a n = s := by
  unfold State.poolTouch State.poolHit
  rw [h]
  rfl

theorem State.notePlaces_of_clean {s : State} (h : s.poison = []) (ps : List (Nat × Nat)) : s.notePlaces ps = (s, .ok) := by
  have hnone : (ps.flatMap fun x => s.poisonIn x.1 x.2) = [] :=
    List.flatMap_eq_nil_iff.mpr fun x _ => by
      unfold State.poisonIn
      rw [h]
      rfl
  unfold State.notePlaces
  simp [hnone]

theorem Code.max_ok (c : Code) : c.max .ok = c := if_neg (Nat.not_lt_zero _)

section
variable {s : State} {a c o : Nat} {m : Access} (ha : s.target a = .chamber c o)
  (hupds : ∀ e ∈ s.upds, e.2.inv = none) (hmeet : s.meets m a 1 = false)
include ha hupds hmeet

/-- A siphon reads the byte of a chamber. -/
theorem State.sipRead_byte (hclean : s.poison = []) (n : Nat) : s.sipRead n m a 1 = ⟨s, [s.byte a], [(a, 1)], none⟩ := by
  have hge := le_of_inChamberWindow (inChamberWindow_of_target ha)
  have hrd : s.rdBytes a 1 = [s.byte a] := congrArg (fun b => [b]) (State.rd_of_clean hclean (Nat.le_trans (by decide) hge))
  unfold State.sipRead
  simp [pageSegs_one, State.sipXlate_chamber ha, State.readMeet_of_apart hmeet, State.readUpdated_of_idle hupds, hrd]

/-- A siphon's write of a byte of a chamber is one element write, of which its instruction takes note. -/
theorem State.sipWrite_byte (n v : Nat) :
    s.sipWrite n m a 0 8 v = ⟨s.noteWrote m a 1, [(8 * a, 8, (BitVec.ofNat 8 v).toNat)], 1, none⟩ := by
  have hbytes : natLE 1 (v % 256) = [BitVec.ofNat 8 v] :=
    congrArg (fun b : Byte => [b]) (BitVec.eq_of_toNat_eq (Nat.mod_mod v 256))
  have hwrite (b : Byte) : s.writeMeet m a [b] = (s, [b]) := State.writeMeet_of_apart hmeet
  unfold State.sipWrite
  simp [pageSegs_one, State.sipXlate_chamber ha, hbytes, hwrite, State.writeUpdated_of_idle hupds, leNat]

end

/-! ### One element of an EMIT or a PAD -/

section
variable {e : Emit} {n c o : Nat} {m : List Nat} (hupds : ∀ u ∈ e.s.upds, u.2.inv = none)
include hupds

/-- The byte of an element of the source is read with nothing that travels with it. -/
theorem Emit.read_byte {a : TD} {x : Nat} (ha : a.Bytewise) (hx : (a.elemBit m).toNat / 8 = x)
    (hat : e.s.target x = .chamber c o) (hclean : e.s.poison = []) (hmeet : e.s.meets (e.t.access e.s false) x 1 = false) :
    e.read n a m = ({ e with places := e.places ++ [(x, 1)] }, some ⟨(e.s.byte x).toNat, some (0x7F, 0)⟩) := by
  have hbit : (a.elemBit m).toNat % 8 = 0 := by
    have := ha.elemBit m
    omega
  have hplain : ¬(a.fm = .t2 ∨ a.hasBlocks = true) := by simp [ha.fm, ha.unscaled]
  unfold Emit.read
  dsimp only
  rw [hx, hbit, ha.bits, State.sipRead_byte hat hupds hmeet hclean, if_neg hplain]
  simpa [leNat] using (e.s.byte x).isLt

/-- The byte of an element of the destination is written with nothing else. -/
theorem Emit.write_byte {b : TD} {x : Nat} {el : SipEl} (hb : b.Bytewise) (hx : (b.elemBit m).toNat / 8 = x)
    (hat : e.s.target x = .chamber c o) (hmeet : e.s.meets (e.t.access e.s true) x 1 = false) :
    ∃ q l, e.write n b m el =
      { e with s := { e.s with seqs := q }, ws := maskedWrites x [some (BitVec.ofNat 8 el.code)] :: e.ws, spans := l } := by
  have hbit : (b.elemBit m).toNat = 8 * x := hx ▸ hb.elemBit m
  have hput : b.put m el.code = (8 * x, 8, el.code) := by
    unfold TD.put
    rw [hbit, hb.bits]
  have hsides : e.sides b m el.side = [] := by
    unfold Emit.sides TD.zeroPad
    simp [hb.fm, hb.lay, hb.unscaled]
  obtain ⟨q, hq⟩ := e.s.noteWrote_seqs (e.t.access e.s true) x 1
  refine ⟨q, Emit.write.insertSpan e.spans (b.spanKey m), ?_⟩
  unfold Emit.write
  simp only [hput, hsides, List.foldl_cons, List.foldl_nil]
  simp [State.sipWrite_byte hat hupds hmeet, hq, hb.fm, maskedWrites]

end

/-- What the one emission of an EMIT or a PAD has done where nothing stands in its way: the passive walk is one position further,
and the byte `x`, if there is one, is to be written at `a`; all that it has read lies in chambers. -/
def Emit.Gives (s : State) (t : Transfer) (a : Nat) (x : Option Byte) (r : Emit) : Prop :=
  ∃ q ws l ps, r = ⟨{ s with seqs := q }, { t with pos := t.pos + 1 }, ws, l, ps⟩ ∧
    ws.reverse.flatten = maskedWrites a [x] ∧ ∀ p ∈ ps, inChamberWindow p.1 = true

section
variable {s : State} {t : Transfer} {y : List Int} {n c o to_ : Nat} (he : t.ended = false) (hdrv : t.drv = false)
  (hb : (td t.dst).Bytewise) (hpos : t.pos < (td t.dst).count)
  (hto : ((td t.dst).elemBit ((td t.dst).walkAt t.pos)).toNat / 8 = to_) (hat : s.target to_ = .chamber c o)
  (hmeet : s.meets (t.access s true) to_ 1 = false) (hupds : ∀ u ∈ s.upds, u.2.inv = none)
include he hdrv hb hpos hto hat hmeet hupds

/-- A data element: the byte that its coordinates name in the source (R221). -/
theorem Emit.one_data {m : List Nat} {from_ c' o' : Nat} (ha : (td t.src).Bytewise) (hm : t.mapped (td t.src) y = some m)
    (hfrom : ((td t.src).elemBit m).toNat / 8 = from_) (hsrc : s.target from_ = .chamber c' o') (hclean : s.poison = [])
    (hmeet' : s.meets (t.access s false) from_ 1 = false) :
    Emit.Gives s t to_ (some (s.byte from_)) (Emit.one n none y ⟨s, t, [], [], []⟩) := by
  have hread := Emit.read_byte (e := ⟨s, t, [], [], []⟩) (n := n) hupds ha hfrom hsrc hclean hmeet'
  obtain ⟨q, l, hwrite⟩ := Emit.write_byte (e := ⟨s, { t with pos := t.pos + 1 }, [], [], [(from_, 1)]⟩) (n := n)
    (el := ⟨(s.byte from_).toNat, some (0x7F, 0)⟩) hupds hb hto hat hmeet
  rw [BitVec.ofNat_toNat, BitVec.setWidth_eq] at hwrite
  refine ⟨q, [maskedWrites to_ [some (s.byte from_)]], l, [(from_, 1)], ?_, rfl,
    by simpa using inChamberWindow_of_target hsrc⟩
  unfold Emit.one
  dsimp only
  rw [if_neg (by simp [he]), if_neg (by simp [hdrv]), hm]
  dsimp only
  rw [hread]
  dsimp only
  rw [if_neg (Nat.not_le.mpr hpos), if_neg (by simp)]
  exact hwrite

/-- A pad element: the fill, which only a destination that takes pads is given (R226). -/
theorem Emit.one_pad (f : Nat) :
    Emit.Gives s t to_ (if (td t.dst).padw then some (BitVec.ofNat 8 f) else none)
      (Emit.one n (some f) y ⟨s, t, [], [], []⟩) := by
  obtain ⟨q, l, hwrite⟩ := Emit.write_byte (e := ⟨s, { t with pos := t.pos + 1 }, [], [], []⟩) (n := n)
    (el := ⟨f, none⟩) hupds hb hto hat hmeet
  have hone : Emit.one n (some f) y ⟨s, t, [], [], []⟩ = if (!(td t.dst).padw) = true then
      ⟨s, { t with pos := t.pos + 1 }, [], [], []⟩ else
      Emit.write n ⟨s, { t with pos := t.pos + 1 }, [], [], []⟩ (td t.dst) ((td t.dst).walkAt t.pos) ⟨f, none⟩ := by
    unfold Emit.one
    dsimp only
    rw [if_neg (by simp [he]), if_neg (by simp [hdrv]), if_neg (Nat.not_le.mpr hpos)]
    rfl
  rw [hone]
  cases (td t.dst).padw with
  | true => exact ⟨q, [maskedWrites to_ [some (BitVec.ofNat 8 f)]], l, [], hwrite, rfl, by simp⟩
  | false => exact ⟨s.seqs, [], [], [], rfl, rfl, by simp⟩

end

/-! ### The whole row -/

/-- The write of one byte is one access, and without an uncorrectable unit it gives no code. -/
theorem State.wrAccesses_byte {s : State} (hclean : s.poison = []) (a : Nat) (x : Option Byte) :
    s.wrAccesses (maskedWrites a [x]) = (s.putMasked a [x], false) := by
  cases x with
  | none => rfl
  | some v =>
    have hbad : s.wrElemsBad (maskedWrites a [some v]) = false := by
      unfold State.wrElemsBad State.touched
      rw [hclean]
      rfl
    change (s.wrElems (maskedWrites a [some v]), false || s.wrElemsBad (maskedWrites a [some v])) = _
    rw [State.wrElems_maskedWrites hclean, hbad]
    rfl

/-- No retraining slice holds the accesses of one emission back: all of them reach chambers (R396). -/
theorem State.serves_emission (s : State) {a : Nat} {x : Option Byte} {ps : List (Nat × Nat)}
    (hps : ∀ p ∈ ps, inChamberWindow p.1 = true) (ha : inChamberWindow a = true) :
    ((ps ++ (maskedWrites a [x]).map fun w : ElemWrite => (w.1 / 8, (w.1 % 8 + w.2.1 + 7) / 8)).any
      fun p => s.training p.1 p.2) = false := by
  refine List.any_eq_false.mpr fun p hp => ?_
  have hwin : inChamberWindow p.1 = true := by
    rcases List.mem_append.mp hp with hp | hp
    · exact hps p hp
    · cases x with
      | none => simp [maskedWrites] at hp
      | some v =>
        obtain rfl : p = (8 * a / 8, _) := by simpa [maskedWrites] using hp
        simpa using ha
  simp [s.training_of_window hwin]

/-- An EMIT or a PAD of one element writes what its emission gives, and goes on (R222). -/
theorem emitRun_one {s r : State} {t t' : Transfer} {n d a : Nat} {pad : Option Nat} {x : Option Byte}
    {ws : List (List ElemWrite)} {l : List (List Nat)} {ps : List (Nat × Nat)}
    (hone : Emit.one n pad (emitCoords s t d 0) ⟨s, t, [], [], []⟩ = ⟨r, t', ws, l, ps⟩)
    (hws : ws.reverse.flatten = maskedWrites a [x]) (hps : ∀ p ∈ ps, inChamberWindow p.1 = true)
    (ha : inChamberWindow a = true) (hclean : r.poison = []) (hpools : r.pools = []) (hsp : t.spoiled = false) :
    emitRun n pad d 1 s t = (r.putMasked a [x], t'.adv) := by
  have hloop : forUpto 1 (fun j e => e.one n pad (emitCoords s t d j)) (⟨s, t, [], [], []⟩ : Emit) =
    ⟨r, t', ws, l, ps⟩ := hone
  have htouch (l : List (Nat × Nat)) : l.foldl (fun s x => s.poolTouch x.1 x.2) r = r :=
    List.foldl_fixed' (fun _ => State.poolTouch_of_no_pools hpools _ _) l
  unfold emitRun
  rw [hloop]
  dsimp only
  rw [hws, s.serves_emission hps ha, htouch, State.notePlaces_of_clean hclean, State.wrAccesses_byte hclean, hsp]
  simp only [Bool.false_eq_true, if_false, Code.max_ok]

/-- A byte stored in the chamber window is the only one to change, and the transfer is stored one position and one instruction
further. -/
theorem State.stores_byte {s : State} {n id a : Nat} {t : Transfer} {q : SMap Seq} (hx : s.xfer n id = some t)
    (ha : inChamberWindow a = true) (x : Option Byte) :
    let s' := (({ s with seqs := q } : State).putMasked a [x]).setXfer n ({ t with pos := t.pos + 1 } : Transfer).adv
    s'.byte a = x.getD (s.byte a) ∧ (∀ b, b ≠ a → s'.byte b = s.byte b) ∧
      s'.xfer n id = some { t with pc := t.pc + 1, pos := t.pos + 1 } := by
  intro s'
  have hlt : a < sramBase := Nat.lt_trans (lt_of_inChamberWindow ha) (by decide)
  obtain ⟨m, hm⟩ := State.putMasked_mem ({ s with seqs := q } : State) a [x]
  refine ⟨State.byte_select_same { s with seqs := q } hlt x, fun b hb => State.byte_select_ne { s with seqs := q } hlt hb x, ?_⟩
  unfold s'
  rw [hm]
  exact State.xfer_setXfer (s := { s with seqs := q, mem := m }) hx rfl

/-- A row of transfer `id` of siphon `n` that emits one element answers a state in which the byte at `a` is `x`, if there is one,
no other byte has changed, and the transfer stands at its next instruction and at the passive side's next position. -/
def EmitsByte (n : Fin 216) (id : Nat) (s : State) (t : Transfer) (a : Nat) (x : Option Byte) (o : Out) : Prop :=
  ∃ s', o = .next s' ∧ s'.byte a = x.getD (s.byte a) ∧ (∀ b, b ≠ a → s'.byte b = s.byte b) ∧
    s'.xfer n.val id = some { t with pc := t.pc + 1, pos := t.pos + 1 }

theorem onProg_emits {n : Fin 216} {id op d a : Nat} {s : State} {t : Transfer} {pad : Option Nat} {x : Option Byte}
    {f : Word → Transfer → State × Transfer} (hx : s.xfer n.val id = some t) (hm : t.mode = .prog) (he : t.ended = false)
    (hw : t.waiting = false) (hop : SipInstr.op (t.prog.getD t.pc 0) = op)
    (hf : f (t.prog.getD t.pc 0) t = emitRun n.val pad d 1 s t)
    (hone : Emit.Gives s t a x (Emit.one n.val pad (emitCoords s t d 0) ⟨s, t, [], [], []⟩)) (ha : inChamberWindow a = true)
    (hclean : s.poison = []) (hpools : s.pools = []) (hsp : t.spoiled = false) :
    EmitsByte n id s t a x (onProg n id op s f) := by
  obtain ⟨q, ws, l, ps, hone, hws, hps⟩ := hone
  have hrun := emitRun_one hone hws hps ha hclean hpools hsp
  exact ⟨_, onProg_runs hx hm he hw hop (hf.trans hrun), State.stores_byte hx ha x⟩

/-- Settles O30: an EMIT of one byte gives the destination's next position the byte that its coordinates name, and a PAD the
fill or nothing; either way one write of at most that byte follows. -/
theorem siphonEmitAndPad : Obligations.SiphonEmitAndPad := by
  unfold Obligations.SiphonEmitAndPad
  intro n id s t m hx hmode he hw hsp hdrv hclean hpools hupds w a b from_ to_ inChamber hcnt hbf hbl hbb hpos hto hmeet
  obtain ⟨c, o, hto⟩ := hto
  have hb : (td t.dst).Bytewise := ⟨hbf, hbl, hbb⟩
  have row {op : Nat} {pad : Option Nat} {x : Option Byte} {f : Word → Transfer → State × Transfer}
      (hop : SipInstr.op w = op) (hf : f w t = emitRun n.val pad (SipInstr.dim w) 1 s t)
      (hone : Emit.Gives s t to_ x (Emit.one n.val pad (emitCoords s t (SipInstr.dim w) 0) ⟨s, t, [], [], []⟩)) :
      EmitsByte n id s t to_ x (onProg n id op s f) :=
    onProg_emits hx hmode he hw hop hf hone (inChamberWindow_of_target hto) hclean hpools hsp
  refine ⟨fun haf hal hab hop hfrom hmeet' hmap => ?_, fun hop => ?_⟩
  · obtain ⟨c', o', hfrom⟩ := hfrom
    have hrow : EmitsByte n id s t to_ (some (s.byte from_)) (execSipEmit n id s) :=
      row hop (congrArg (emitRun n.val none (SipInstr.dim w) · s t) hcnt)
        (Emit.one_data he hdrv hb hpos rfl hto hmeet hupds ⟨haf, hal, hab⟩ hmap rfl hfrom hclean hmeet')
    exact hrow
  · have hrow : EmitsByte n id s t to_ (if b.padw then some (BitVec.ofNat 8 (b.fillCode (SipInstr.fill w))) else none)
        (execSipPad n id s) :=
      row hop (congrArg (emitRun n.val _ (SipInstr.dim w) · s t) hcnt) (Emit.one_pad he hdrv hb hpos rfl hto hmeet hupds _)
    obtain ⟨s', hexec, hat, hother, hxfer⟩ := hrow
    exact ⟨s', hexec, hat.trans (by split <;> rfl), hother, hxfer⟩

end Sys2Proof.Machine
end

section
/-! Bytes stored in chambers and GDDR7, the aligned words of four bytes that they make up, and what a packet that leaves on a
cascade link leaves alone (R8, R401, R412). -/

namespace Sys2Proof.Machine
open Sys2Proof

/-! ### Stored bytes -/

/-- A byte is read from memory or is the undefined byte of its generation, and a register places the cells of host memory. -/
theorem State.byte_of_same_memory {s t : State} (hmem : t.mem = s.mem) (hregs : t.regs = s.regs)
    (hmemGen : t.memGen = s.memGen) (hchGen : t.chGen = s.chGen) (a : Nat) : t.byte a = s.byte a := by
  unfold State.byte State.unlisted State.cell State.fld State.reg
  rw [hmem, hregs, hmemGen, hchGen]

@[simp] theorem State.byte_bump (s : State) (off n a : Nat) : (s.bump off n).byte a = s.byte a := rfl

@[simp] theorem State.byte_onSeq (s : State) (u : SeqId) (f : Seq → Seq) (a : Nat) : (s.onSeq u f).byte a = s.byte a := rfl

/-- Stored bytes are a masked write that selects every one of them. -/
theorem State.putBytes_eq_putMasked (s : State) (a : Nat) (bs : List Byte) :
    s.putBytes a bs = s.putMasked a (bs.map some) := by
  induction bs generalizing s a with
  | nil => rfl
  | cons b bs ih => exact ih (s.putByte a b) (a + 1)

/-- Stored bytes change memory alone. -/
theorem State.putBytes_mem (s : State) (a : Nat) (bs : List Byte) : ∃ m, s.putBytes a bs = { s with mem := m } :=
  s.putBytes_eq_putMasked a bs ▸ s.putMasked_mem a (bs.map some)

@[simp] theorem State.passes_putBytes (s : State) (a : Nat) (bs : List Byte) : (s.putBytes a bs).passes = s.passes := by
  obtain ⟨m, hm⟩ := s.putBytes_mem a bs
  rw [hm]

@[simp] theorem State.seqs_putBytes (s : State) (a : Nat) (bs : List Byte) : (s.putBytes a bs).seqs = s.seqs := by
  obtain ⟨m, hm⟩ := s.putBytes_mem a bs
  rw [hm]

@[simp] theorem State.count_putBytes (s : State) (a : Nat) (bs : List Byte) (o : Nat) :
    (s.putBytes a bs).count o = s.count o := by
  obtain ⟨m, hm⟩ := s.putBytes_mem a bs
  rw [hm]
  rfl

section
variable (s : State) {a : Nat} {bs : List Byte} (ha : a + bs.length ≤ sramBase)
include ha

theorem State.byte_putBytes (k : Nat) : (s.putBytes a bs).byte (a + k) = bs.getD k (s.byte (a + k)) := by
  rw [State.putBytes_eq_putMasked, State.byte_putMasked s (by simpa using ha)]
  simp [List.getD_eq_getElem?_getD]
  cases bs[k]? <;> rfl

theorem State.byte_putBytes_outside {b : Nat} (hb : b < a ∨ a + bs.length ≤ b) :
    (s.putBytes a bs).byte b = s.byte b := by
  rcases hb with hb | hb
  · rw [State.putBytes_eq_putMasked, State.byte_putMasked_lt s (by simpa using ha) hb]
  · obtain ⟨k, rfl⟩ := Nat.exists_eq_add_of_le (Nat.le_trans (Nat.le_add_right _ _) hb)
    rw [State.byte_putBytes s ha, List.getD_eq_default _ _ (by omega)]

end

/-- Where memory holds no uncorrectable unit, an access stores its bytes and records nothing. -/
theorem State.wr_of_clean {s : State} (hp : s.poison = []) (a : Nat) (bs : List Byte) : s.wr a bs = s.putBytes a bs := by
  unfold State.wr State.poisonIn
  rw [hp]
  rfl

/-! ### Aligned words -/

/-- The bytes of an aligned word of GDDR7 belong to one controller (R388). -/
theorem gddrCtl_add {a i : Nat} (ha : a % 4 = 0) (hi : i < 4) : gddrCtl (a + i) = gddrCtl a := by
  have hpage (n : Nat) : (a + i) >>> (12 + n) = a >>> (12 + n) := by
    rw [Nat.shiftRight_add, Nat.shiftRight_add]
    refine congrArg (· >>> n) ?_
    rw [Nat.shiftRight_eq_div_pow, Nat.shiftRight_eq_div_pow]
    omega
  unfold gddrCtl
  dsimp only
  rw [hpage 0, hpage 4, hpage 8, hpage 12, hpage 16, hpage 20, hpage 24]

/-- A clear of a memory controller holds back the whole of an aligned word or none of it (R401). -/
theorem State.clearing_add (s : State) {a i : Nat} (ha : a % 4 = 0) (hi : i < 4) : s.clearing (a + i) = s.clearing a := by
  by_cases hlt : a < 0x100_0000_0000
  · have hhalf : (a + i) >>> 39 = a >>> 39 := by
      rw [Nat.shiftRight_eq_div_pow, Nat.shiftRight_eq_div_pow]
      omega
    unfold State.clearing State.target Machine.target
    rw [if_pos hlt, if_pos (by omega), hhalf, gddrCtl_add ha hi]
    split_ifs <;> rfl
  · rw [s.clearing_of_ge (by omega), s.clearing_of_ge (by omega)]

/-- A counter that no clear holds back and no uncorrectable unit meets reads as its word (R254). -/
theorem State.counterAt_of_serving {s : State} {a : Nat} (hp : s.poison = []) (hclear : s.clearing a = false)
    (ha : a % 4 = 0) : s.counterAt a = s.word32 a := by
  have hrd (i : Nat) (hi : i < 4) : s.rd (a + i) = s.byte (a + i) := by
    unfold State.rd State.poisoned
    rw [hp, s.clearing_add ha hi, hclear]
    rfl
  have hbytes : s.rdBytes a 4 = [s.byte a, s.byte (a + 1), s.byte (a + 2), s.byte (a + 3)] := by
    change [s.rd (a + 0), s.rd (a + 1), s.rd (a + 2), s.rd (a + 3)] = _
    rw [hrd 0 (by decide), hrd 1 (by decide), hrd 2 (by decide), hrd 3 (by decide)]
    rfl
  unfold State.counterAt State.rdLE
  rw [hbytes]
  exact ofNat_leNat_four _ _ _ _

theorem leNat_natLE (n v : Nat) : leNat (natLE n v) = v % 256 ^ n := by
  induction n generalizing v with
  | zero => simp [natLE, leNat, Nat.mod_one]
  | succ n ih =>
    have hcons : leNat (natLE (n + 1) v) = v % 256 + 256 * leNat (natLE n (v / 256)) := rfl
    rw [hcons, ih, Nat.pow_succ', Nat.mod_mul]

/-- A stored word reads as the number that was stored, modulo 2^32. -/
theorem State.word32_putBytes_natLE (s : State) {a : Nat} (ha : a + 4 ≤ sramBase) (v : Nat) :
    (s.putBytes a (natLE 4 v)).word32 a = BitVec.ofNat 32 v := by
  have hbyte (k : Nat) := State.byte_putBytes s (bs := natLE 4 v) ha k
  have hword : (s.putBytes a (natLE 4 v)).word32 a = BitVec.ofNat 32 (leNat (natLE 4 v)) := by
    unfold State.word32
    have h0 := hbyte 0
    rw [Nat.add_zero] at h0
    rw [h0, hbyte 1, hbyte 2, hbyte 3]
    exact (ofNat_leNat_four _ _ _ _).symm
  rw [hword, leNat_natLE]
  exact BitVec.eq_of_toNat_eq (by simp)

/-! ### Packets -/

/-- `t` differs from `s` in the state of its cascade links and in what the device has sent. -/
def OnlyLinks (s t : State) : Prop := ∃ ls o, t = { s with links := ls, out := o }

namespace OnlyLinks
variable {s t : State}

theorem refl (s : State) : OnlyLinks s s := ⟨_, _, rfl⟩

theorem onLink (h : OnlyLinks s t) {l : Nat} {f : Link → Link} : OnlyLinks s (t.onLink l f) := by
  obtain ⟨ls, o, rfl⟩ := h
  exact ⟨_, _, rfl⟩

theorem transmit (h : OnlyLinks s t) {l : Nat} {p : Packet} : OnlyLinks s (t.transmit l p) := by
  obtain ⟨ls, o, rfl⟩ := h
  exact ⟨_, _, rfl⟩

theorem pump (h : OnlyLinks s t) {l : Nat} : OnlyLinks s (t.pump l) := by
  unfold State.pump
  refine List.foldlRecOn _ _ h.onLink fun t ht p _ => ?_
  dsimp only
  split
  · exact ht.transmit
  · exact ht.onLink

theorem sendPkt (h : OnlyLinks s t) {l d kind vc tag addr : Nat} {body : List Byte} :
    OnlyLinks s (t.sendPkt l d kind vc tag addr body) := h.onLink.pump

end OnlyLinks

/-- A memory access that finds its link changes nothing on the way. -/
theorem State.linkTo_of_some {s : State} {d a l : Nat} (h : (s.linkTo d a).2 = some l) : s.linkTo d a = (s, some l) := by
  unfold State.linkTo at h ⊢
  split_ifs with hdrop
  · rw [if_pos hdrop] at h
    cases h
  · rw [if_neg hdrop] at h
    split at h
    · cases h
    · dsimp only at h ⊢
      rw [h]

end Sys2Proof.Machine
end

section
/-! Rope passes: the launch of a staged tile and of a core's own, the take at a span position, and the report (R248 to R253). -/

namespace Sys2Proof.Machine
open Sys2Proof

/-! ### Launches -/

/-- A work that is put into its running state stands so in the issue order. -/
theorem State.running_runWork {s : State} {u : SeqId} {w : Work} (hw : w ∈ (s.seq u).works) :
    ∃ x ∈ ((s.runWork u w.seq).seq u).works, x.seq = w.seq ∧ x.status = .running := by
  unfold State.runWork
  rw [State.seq_onSeq_same]
  exact ⟨{ w with status := .running }, List.mem_map.mpr ⟨w, hw, if_pos rfl⟩, rfl, rfl⟩

/-- Where memory holds no uncorrectable unit, a read draws at most a free value (R401). -/
theorem State.noteRead_of_clean {s : State} (hp : s.poison = []) (a n : Nat) : ∃ k, s.noteRead a n = { s with freeCtr := k } := by
  have hnote : s.noteRead a n = if s.clearing a || s.clearing (a + n - 1) then s.drawn else s := by
    unfold State.noteRead State.poisonIn
    rw [hp]
    rfl
  rw [hnote]
  split
  · exact ⟨_, rfl⟩
  · exact ⟨_, rfl⟩

/-- A core's ROP that may start, reads its source region without a race and without an uncorrectable word, and launches (R248). -/
theorem execRopeLaunch_core {c : Fin 800} {h : BitVec 5} {s : State} {w : Work} {i : Issue} {fd : SReg} {a1 : AReg} {p : Pass}
    (hfind : (s.seq (.core c)).works.find? (fun w => w.handle == h.toNat && w.status == .queued) = some w)
    (hrop : w.instr = .rop i fd a1) (hmay : s.mayStart (s.seq (.core c)) w = true)
    (hpass : ropePass s.nextPass c.val w.seq none w.block = some p) (hclean : s.poison = [])
    (hapart : s.meets (w.access c.val false) (chamberBase c.val + p.src) (128 * p.len) = false) :
    ∃ k, execRopeLaunch (.core c h) s = .next
      { (({ s with freeCtr := k } : State).runWork (.core c) w.seq) with
        passes := s.passes ++ [{ p with data := s.rdBytes (chamberBase c.val + p.src) (128 * p.len), code := .ok,
                                        fence := w.fence, launched := true }]
        nextPass := s.nextPass + 1 } := by
  obtain ⟨k, hnote⟩ := State.noteRead_of_clean hclean (chamberBase c.val + p.src) (128 * p.len)
  refine ⟨k, ?_⟩
  unfold execRopeLaunch
  simp only [hfind, hrop, hmay, hpass, State.readMeet_of_apart hapart, State.rdBad_of_clean hclean, hnote, Bool.not_true,
    Bool.false_eq_true, if_false]
  rfl

/-! ### Takes -/

section
variable {s : State} {x : Pass} (hx : s.passes = [x])
include hx

/-- The launch of the only tile, which its siphon has staged (R248). -/
theorem execRopeLaunch_staged (hl : x.launched = false) :
    execRopeLaunch (.staged x.id) s = .next { s with passes := [{ x with launched := true }] } := by
  unfold execRopeLaunch
  simp [hx, hl]

/-- The only pass, launched and not at the end of its span, passes its next position (R249, R252). -/
theorem execRopeTake_only (hl : x.launched = true) (hpos : x.pos < x.span) (stall : BitVec 32)
    (hkeep : (s.takeTile x x.nextCore stall.toNat).1.passes = s.passes) :
    execRopeTake x.id stall s = .next { (s.takeTile x x.nextCore stall.toNat).1 with
      passes := [(s.takeTile x x.nextCore stall.toNat).2] } := by
  unfold execRopeTake
  simp [hx, hl, Nat.not_le.mpr hpos, hkeep]

/-- The report of the only pass, past the end of its span, ends its work with its code (R253). -/
theorem execRopePassReport_only (hl : x.launched = true) (hpos : x.span ≤ x.pos) :
    execRopePassReport x.id s =
      .next (({ s with passes := [] } : State).endWork (SeqId.ofNum x.unit) x.work x.code) := by
  unfold execRopePassReport
  simp [hx, hl, Nat.not_lt.mpr hpos]

end

section
variable (s : State) {p : Pass} (c stall : Nat)

/-- A core whose take bit is clear only passes the tile on (R249). -/
theorem State.takeTile_forwards (htake : p.take.testBit p.pos = false) :
    s.takeTile p c stall = (s, { p with pos := p.pos + 1 }) := if_pos (by simp [htake])

variable (htake : p.take.testBit p.pos = true)
include htake

/-- A core that stages only forward skips its take, and the skip is counted (R250). -/
theorem State.takeTile_skips (hfwd : s.fwdOnly c = true) :
    s.takeTile p c stall = ((s.bump (Reg.nocRopeSkipCnt c) 1).addCounts p.unit fun k => { k with drops := k.drops + 1 },
      { p with pos := p.pos + 1, skips := p.skips + 1, code := p.code.max .counts }) := by
  unfold State.takeTile
  simp [htake, hfwd]

/-- A take without a counter word stores the tile at DEST and counts itself and the beats that it held the rope (R249, R251). -/
theorem State.takeTile_stores (hfwd : s.fwdOnly c = false) (hctr : p.ctr = none) (hclean : s.poison = [])
    (hapart : s.meets ⟨p.unit, some (p.work, p.fence), true⟩ (chamberBase c + p.dest) p.data.length = false) :
    s.takeTile p c stall =
      (((s.bump (Reg.nocRopeStallCnt c) stall).putBytes (chamberBase c + p.dest) p.data).bump (Reg.nocRopeTakeCnt c) 1,
        { p with pos := p.pos + 1 }) := by
  have hwrite : (s.bump (Reg.nocRopeStallCnt c) stall).writeMeet ⟨p.unit, some (p.work, p.fence), true⟩
      (chamberBase c + p.dest) p.data = (s.bump (Reg.nocRopeStallCnt c) stall, p.data) := State.writeMeet_of_apart hapart
  have hwr := State.wr_of_clean (s := s.bump (Reg.nocRopeStallCnt c) stall) hclean (chamberBase c + p.dest) p.data
  unfold State.takeTile
  simp [htake, hfwd, hctr, hwrite, hwr]

end

/-- What a take leaves: the tile in the core's chamber and nowhere else, one take counted, and the beats of holding. -/
theorem State.taken_bytes_and_counts (s : State) {c dest stall : Nat} {data : List Byte} (hc : c < 800)
    (hend : dest + data.length ≤ 0x20_0000) :
    let a := chamberBase c + dest
    let t := ((s.bump (Reg.nocRopeStallCnt c) stall).putBytes a data).bump (Reg.nocRopeTakeCnt c) 1
    t.passes = s.passes ∧ (∀ k, k < data.length → t.byte (a + k) = data.getD k 0) ∧
      (∀ b, b < a ∨ a + data.length ≤ b → t.byte b = s.byte b) ∧
      t.count (Reg.nocRopeTakeCnt c) = sat (s.count (Reg.nocRopeTakeCnt c) + 1) ∧
      t.count (Reg.nocRopeStallCnt c) = sat (s.count (Reg.nocRopeStallCnt c) + stall) := by
  intro a t
  have hsram : a + data.length ≤ sramBase := by
    simp only [a, chamberBase, sramBase]
    omega
  have hne : Reg.nocRopeTakeCnt c ≠ Reg.nocRopeStallCnt c := by
    unfold Reg.nocRopeTakeCnt Reg.nocRopeStallCnt
    omega
  refine ⟨?_, fun k hk => ?_, fun b hb => ?_, ?_, ?_⟩
  · rw [State.bump_passes, State.passes_putBytes, State.bump_passes]
  · have hbyte := State.byte_putBytes (s.bump (Reg.nocRopeStallCnt c) stall) hsram k
    rw [List.getD_eq_getElem _ _ hk] at hbyte ⊢
    rw [State.byte_bump, hbyte]
  · rw [State.byte_bump, State.byte_putBytes_outside _ hsram hb, State.byte_bump]
  · rw [State.count_bump_same, State.count_putBytes, State.count_bump_ne _ _ _ _ hne]
    rfl
  · rw [State.count_bump_ne _ _ _ _ hne.symm, State.count_putBytes, State.count_bump_same]
    rfl

/-- Settles O33: each launch, take and report of a pass that no other accompanies is one of the outcomes above. -/
theorem ropePasses : Obligations.RopePasses := by
  unfold Obligations.RopePasses
  refine ⟨?_, fun s x stall hx hclean => ⟨fun hl => ?_, fun hl hpos => ⟨fun htake => ?_, ?_, fun htake hfwd => ?_⟩, ?_⟩⟩
  · intro c h s w i fd a1 p u a hfind hrop hmay hpass hclean hapart
    obtain ⟨k, hexec⟩ := execRopeLaunch_core hfind hrop hmay hpass hclean hapart
    exact ⟨_, hexec, rfl, rfl, State.running_runWork (s := { s with freeCtr := k }) (List.mem_of_find?_eq_some hfind),
      fun _ => rfl⟩
  · exact ⟨_, execRopeLaunch_staged hx hl, rfl, rfl⟩
  · have hexec := execRopeTake_only hx hl hpos stall
    rw [s.takeTile_forwards _ _ htake] at hexec
    exact ⟨_, hexec rfl, rfl, rfl⟩
  · intro htake hfwd hctr hcore hend a hapart
    have hexec := execRopeTake_only hx hl hpos stall
    rw [s.takeTile_stores _ _ htake hfwd hctr hclean hapart] at hexec
    obtain ⟨hpasses, hin, hout, htakes, hstalls⟩ := s.taken_bytes_and_counts (stall := stall.toNat) hcore hend
    exact ⟨_, hexec hpasses, rfl, hin, hout, htakes, fun _ => hstalls⟩
  · have hexec := execRopeTake_only hx hl hpos stall
    rw [s.takeTile_skips _ _ htake hfwd] at hexec
    exact ⟨_, hexec rfl, rfl, State.count_bump_same _ _ _, fun _ => rfl⟩
  · intro hl hpos w hw hseq hrun
    refine ⟨_, execRopePassReport_only hx hl hpos, rfl, ?_⟩
    rw [← hseq]
    exact claimEnded_endWork (s := { s with passes := [] }) hw (.inr hrun)

end Sys2Proof.Machine
end

section
/-! What an issue changes: the sequencer of the unit and the counts of the issue, so that an instruction that changes its own
sequencer alone has the frame of `OnlySeq` (R269, R274). -/

namespace Sys2Proof.Machine
open Sys2Proof

/-- An instruction whose unit issues it runs its body. -/
theorem issue_of_issues {w : Issue} {s : State} (h : Issues w s) (body : State → State) :
    issue w s body = .next (body (issued w s)) := by
  obtain ⟨hruns, hfetch, hpc, hpred⟩ := h
  rcases hruns with hrun | ⟨hrun, hfree⟩
  · exact issue_runs w s body hrun hfetch hpc hpred
  · unfold issue issueWhen
    simp [hrun, hfree, hfetch, Nat.not_le.mpr hpc, hpred]

/-- A corrected fetch is counted, and nothing else of a fetch stays (R269). -/
theorem noteFetch_cnt (w : Issue) (s : State) : ∃ m, noteFetch w s = { s with cnt := m } := by
  unfold noteFetch
  split
  · exact ⟨_, rfl⟩
  · exact ⟨_, rfl⟩

theorem issued_seqs_cnt (w : Issue) (s : State) : ∃ q m, issued w s = { s with seqs := q, cnt := m } := by
  obtain ⟨m, hm⟩ := noteFetch_cnt w s
  unfold issued
  rw [hm]
  exact ⟨_, _, rfl⟩

@[simp] theorem seq_issued_same (w : Issue) (s : State) : (issued w s).seq w.u = { s.seq w.u with run := .running } := by
  obtain ⟨m, hm⟩ := noteFetch_cnt w s
  unfold issued
  rw [State.seq_bump, State.seq_onSeq_same, hm]
  rfl

theorem seq_issued_ne {w : Issue} {v : SeqId} (h : v ≠ w.u) (s : State) : (issued w s).seq v = s.seq v := by
  obtain ⟨m, hm⟩ := noteFetch_cnt w s
  unfold issued
  rw [State.seq_bump, State.seq_onSeq_ne _ _ _ _ fun e => h (SeqId.num_injective _ _ e), hm]
  rfl

@[simp] theorem byte_issued (w : Issue) (s : State) (a : Nat) : (issued w s).byte a = s.byte a := by
  obtain ⟨q, m, h⟩ := issued_seqs_cnt w s
  rw [h]
  exact State.byte_of_same_memory rfl rfl rfl rfl a

/-- The count of a corrected fetch is that of the core's own instruction store (R269). -/
theorem count_noteFetch (w : Issue) (s : State) (o : Nat) : (noteFetch w s).count o =
    if w.fetch = .corrected ∧ w.u.isCp = false ∧ o = w.u.regBase + 0x48 then sat (s.count o + 1) else s.count o := by
  obtain ⟨u, neg, ps, fetch⟩ := w
  cases u with
  | core c =>
    have hreg : Reg.corIstoreCorrCnt c.val = Reg.corSeqStat c.val + 0x48 := by
      unfold Reg.corIstoreCorrCnt Reg.corSeqStat
      omega
    cases fetch with
    | corrected =>
      by_cases ho : o = Reg.corSeqStat c.val + 0x48
      · subst ho
        rw [if_pos ⟨rfl, rfl, rfl⟩, ← hreg]
        exact State.count_bump_same _ _ _
      · rw [if_neg fun h => ho h.2.2]
        exact State.count_bump_ne _ _ _ _ (hreg ▸ ho)
    | clean => exact (if_neg (by simp)).symm
    | uncorrectable => exact (if_neg (by simp)).symm
  | cp n =>
    have hnone : noteFetch ⟨.cp n, neg, ps, fetch⟩ s = s := by
      unfold noteFetch
      split
      · next h => cases h
      · rfl
    rw [hnone, if_neg (by simp [SeqId.isCp])]

theorem countsIssue_issued (w : Issue) (s : State) : CountsIssue w s (issued w s) := by
  intro o
  change ((noteFetch w s).bump (w.u.regBase + 0x40) 1).count o = _
  by_cases ho : o = w.u.regBase + 0x40
  · subst ho
    rw [State.count_bump_same, count_noteFetch, if_neg (by omega), if_pos rfl]
    rfl
  · rw [State.count_bump_ne _ _ _ _ ho, count_noteFetch, if_neg ho]

/-- An instruction that changes the sequencer of its unit alone. -/
theorem onlySeq_issued_onSeq (w : Issue) (s : State) (f : Seq → Seq) : OnlySeq w s ((issued w s).onSeq w.u f) := by
  obtain ⟨q, m, h⟩ := issued_seqs_cnt w s
  refine ⟨?_, fun v hv => ?_, countsIssue_issued w s, fun a => ?_⟩
  · rw [h]
    rfl
  · rw [State.seq_onSeq_ne _ _ _ _ fun e => hv (SeqId.num_injective _ _ e), seq_issued_ne hv]
  · rw [State.byte_onSeq, byte_issued]

end Sys2Proof.Machine
end

section
/-! Barrier counters: where a counter lies, an arrival at it here and at a peer, a wait that passes and one that is registered,
and the two ways in which a released wait goes on (R254 to R259). -/

namespace Sys2Proof.Machine
open Sys2Proof

/-! ### The home of a counter -/

/-- A leaf that gives a local address has granted the access and names no peer (R232, R422). -/
theorem leafCheck_local {s : State} {e : Word} {sh va eng a : Nat} {rd wr : Bool}
    (h : s.leafCheck e sh va eng rd wr = .local_ a) : a = leafAddr e sh va ∧ leafDenied e eng rd wr = none ∧
      ¬(bits 60 60 e = 1 ∧ bits 59 48 e ≠ s.devId) ∧ s.accessFail a = none := by
  unfold State.leafCheck at h
  dsimp only at h
  split at h
  · cases h
  · next hdenied =>
    split at h
    · cases h
    · next hremote =>
      split at h
      · split at h <;> cases h
      · cases h
      · cases h
      · next hserved =>
        cases h
        exact ⟨rfl, hdenied, hremote, hserved⟩

/-- A counter of this device lies in a chamber or in GDDR7 (R254). -/
theorem lt_of_counterHome_local {s : State} {root : Word} {va eng a : Nat} {wr : Bool}
    (h : s.counterHome root va eng wr = .local_ a) : a < 0x2000_C800_0000 := by
  by_cases hwin : inChamberWindow va = true
  · have htrans : s.translate root va eng true wr = .local_ a := by
      unfold State.counterHome at h
      simpa [hwin] using h
    rw [eq_of_translate_local hwin htrans]
    exact lt_of_inChamberWindow hwin
  · unfold State.counterHome at h
    dsimp only at h
    rw [if_neg hwin] at h
    split at h
    · next e sh hwalk =>
      obtain ⟨-, h⟩ | ⟨hhome, h⟩ := ite_eq_iff.mp h
      · cases h
      · obtain ⟨rfl, hdenied, hremote, hserved⟩ := leafCheck_local h
        have hlocal : bits 60 60 e = 0 ∨ bits 59 48 e = s.devId := by
          have hbit : bits 60 60 e < 2 := Nat.mod_lt _ (by decide)
          by_contra hcon
          exact hremote ⟨by omega, fun hd => hcon (.inr hd)⟩
        cases htarget : s.target (leafAddr e sh va) with
        | chamber c o => exact lt_of_inChamberWindow (inChamberWindow_of_target htarget)
        | gddr m o =>
          by_contra hge
          exact s.target_ne_gddr (by omega) m o htarget
        | unpopulated => simp [State.accessFail, htarget] at hserved
        | cxl p o => simp [hdenied, hlocal, htarget] at hhome
        | sram o => simp [hdenied, hlocal, htarget] at hhome
        | regs o => simp [hdenied, hlocal, htarget] at hhome
        | host => simp [hdenied, hlocal, htarget] at hhome
    · next hwalk =>
      unfold State.translate at h
      rw [if_neg hwin, hwalk] at h
      cases h

/-- No walk of the page tables reads a sequencer or a counter (R231). -/
theorem State.walkFrom_seqs_cnt (s : State) (q : SMap Seq) (m : SMap Nat) (va : Nat) (ls : List (Nat × Nat)) (tbl : Nat)
    (n : List Nat) : ({ s with seqs := q, cnt := m } : State).walkFrom va ls tbl n = s.walkFrom va ls tbl n := by
  induction ls generalizing tbl n with
  | nil => rfl
  | cons l ls ih =>
    unfold State.walkFrom
    simp only [ih]
    rfl

/-- The home of a counter depends on no sequencer and no count (R254). -/
theorem State.counterHome_seqs_cnt (s : State) (q : SMap Seq) (m : SMap Nat) (root : Word) (va eng : Nat) (wr : Bool) :
    ({ s with seqs := q, cnt := m } : State).counterHome root va eng wr = s.counterHome root va eng wr := by
  have hwalk : ({ s with seqs := q, cnt := m } : State).walk root va = s.walk root va := by
    unfold State.walk
    rw [State.walkFrom_seqs_cnt]
  have htrans : ({ s with seqs := q, cnt := m } : State).translate root va eng true wr = s.translate root va eng true wr := by
    unfold State.translate
    rw [hwalk]
    rfl
  unfold State.counterHome
  rw [hwalk, htrans]
  rfl

/-! ### Arrivals -/

/-- Beside its write, an arrival at a correct word counts at a chamber and marks the waits that it releases (R255, R259). -/
theorem State.arriveAt_wrQuiet {s : State} {a : Nat} (hbad : s.rdBad a 4 = false) (inc : Nat) :
    ∃ n w, (s.arriveAt a inc).1 = { s.wrQuiet a (natLE 4 (s.rdLE a 4 + inc)) with cnt := n, watches := w } := by
  unfold State.arriveAt
  rw [hbad]
  dsimp only
  rw [if_neg Bool.false_ne_true]
  generalize s.wrQuiet a (natLE 4 (s.rdLE a 4 + inc)) = r
  split
  · exact ⟨_, _, rfl⟩
  · exact ⟨_, _, rfl⟩

@[simp] theorem State.byte_wrQuiet (s : State) (a : Nat) (bs : List Byte) (b : Nat) :
    (s.wrQuiet a bs).byte b = (s.putBytes a bs).byte b := rfl

@[simp] theorem State.seqs_wrQuiet (s : State) (a : Nat) (bs : List Byte) : (s.wrQuiet a bs).seqs = s.seqs :=
  s.seqs_putBytes a bs

/-- An arrival at a word that serves adds its increment modulo 2^32 and writes no other byte; the issued works stay (R255). -/
theorem State.arriveAt_of_serving {s : State} {a : Nat} (hclean : s.poison = []) (hclear : s.clearing a = false)
    (ha : a % 4 = 0) (hend : a + 4 ≤ sramBase) (inc : Nat) :
    (s.arriveAt a inc).2 = .ok ∧ (s.arriveAt a inc).1.seqs = s.seqs ∧
      (s.arriveAt a inc).1.word32 a = s.word32 a + BitVec.ofNat 32 inc ∧
      ∀ b, b < a ∨ a + 4 ≤ b → (s.arriveAt a inc).1.byte b = s.byte b := by
  have hbad := State.rdBad_of_clean hclean a 4
  obtain ⟨n, w, harrive⟩ := State.arriveAt_wrQuiet hbad inc
  have hbyte (b : Nat) : (s.arriveAt a inc).1.byte b = (s.putBytes a (natLE 4 (s.rdLE a 4 + inc))).byte b := by
    rw [harrive, ← State.byte_wrQuiet]
    exact State.byte_of_same_memory rfl rfl rfl rfl b
  refine ⟨?_, ?_, ?_, fun b hb => ?_⟩
  · unfold State.arriveAt
    rw [hbad]
    rfl
  · rw [harrive]
    simp only [State.seqs_wrQuiet]
  · calc (s.arriveAt a inc).1.word32 a
        = (s.putBytes a (natLE 4 (s.rdLE a 4 + inc))).word32 a := by
          unfold State.word32
          rw [hbyte, hbyte, hbyte, hbyte]
      _ = s.counterAt a + BitVec.ofNat 32 inc := by
          rw [s.word32_putBytes_natLE hend, BitVec.ofNat_add, State.counterAt]
      _ = s.word32 a + BitVec.ofNat 32 inc := by rw [State.counterAt_of_serving hclean hclear ha]
  · exact (hbyte b).trans (State.byte_putBytes_outside s hend hb)

section
variable {u : SeqId} {s : State} {k : Work} (hworks : (s.seq u).works = [k])
include hworks

theorem find_only {h : BitVec 5} (hhandle : k.handle = h.toNat) (hqueued : k.status = .queued) :
    (s.seq u).works.find? (fun w => w.handle == h.toNat && w.status == .queued) = some k := by
  simp [hworks, hhandle, hqueued]

/-- No fence holds the only instruction of a unit back (R308, R446). -/
theorem State.mayStart_only (hpaused : s.paused = false) : s.mayStart (s.seq u) k = true := by
  simp [State.mayStart, hworks, hpaused]

/-- No instruction of the unit comes before its only one. -/
theorem any_earlier_only (p : Work → Bool) : ((s.seq u).works.any fun x => decide (x.seq < k.seq) && p x) = false := by
  simp [hworks]

end

theorem afterDone_of_nil {q : Seq} {w : Work} (h : w.after = []) : afterDone q w = true := by
  unfold afterDone
  rw [h]
  rfl

section
variable {u : SeqId} {s : State} {h : BitVec 5} {k : Work} {w : Issue} {fd r2 : SReg} {a1 : AReg} {opt : Opt} {a : Nat}
  (hworks : (s.seq u).works = [k]) (hhandle : k.handle = h.toNat) (hqueued : k.status = .queued)
  (harrive : k.instr = .barArrive w fd a1 r2 opt) (hafter : k.after = []) (hpaused : s.paused = false)
  (hword : (k.vals.getD 0 0).toNat % 4 = 0) (hstores : s.storesOpen u k = false)
include hworks hhandle hqueued harrive hafter hpaused hword hstores

/-- The arrival of a unit's only work, at a counter of this device (R255, R256). -/
theorem execBarArrivalApply_local
    (hhome : s.counterHome (s.epReg u.epochUnit Reg.sipPtRoot) (k.vals.getD 0 0).toNat 0 true = .local_ a)
    (htrain : s.training a 4 = false) :
    execBarArrivalApply u h s =
      .next ((s.arriveAt a (ob opt 15 0)).1.endWork u k.seq (s.arriveAt a (ob opt 15 0)).2) := by
  unfold execBarArrivalApply
  simp only [find_only hworks hhandle hqueued, harrive, State.mayStart_only hworks hpaused, afterDone_of_nil hafter,
    any_earlier_only hworks, hstores, hword, hhome, htrain, Bool.not_true, Bool.or_false, Bool.false_eq_true, ne_eq,
    not_true_eq_false, if_false]

/-- The arrival of a unit's only work, at a peer's counter: a request leaves, and the work runs (R255, R425). -/
theorem execBarArrivalApply_remote {d l : Nat}
    (hhome : s.counterHome (s.epReg u.epochUnit Reg.sipPtRoot) (k.vals.getD 0 0).toNat 0 true = .remote d a)
    (hlink : s.linkTo d a = (s, some l)) :
    execBarArrivalApply u h s = .next
      (((s.sendPkt l d 4 0 (s.nextReq % 65536) (globalAddr d a) (natLE 4 (ob opt 15 0))).request l d
        (.arrive u.num k.seq)).runWork u k.seq) := by
  unfold execBarArrivalApply
  simp only [find_only hworks hhandle hqueued, harrive, State.mayStart_only hworks hpaused, afterDone_of_nil hafter,
    any_earlier_only hworks, hstores, hword, hhome, hlink, Bool.not_true, Bool.or_false, Bool.false_eq_true, ne_eq,
    not_true_eq_false, if_false]
  rfl

end

/-! ### Waits -/

@[simp] theorem State.byte_watch (s : State) (h : Nat) (t : BitVec 32) (who : Waiter) (a : Nat) :
    (s.watch h t who).byte a = s.byte a := rfl

/-- The unit waits for a target at a home address, and the wait is registered there (R257, R259). -/
def State.heldWait (s : State) (u : SeqId) (h : Nat) (t : BitVec 32) : State :=
  ((s.onSeq u fun q => { q with barWait := some (h, t) }).park u).watch h t (.seq u)

@[simp] theorem State.seq_heldWait (s : State) (u : SeqId) (h : Nat) (t : BitVec 32) :
    (s.heldWait u h t).seq u = { s.seq u with run := .waiting, barWait := some (h, t) } := by
  have hseq : (s.heldWait u h t).seq u = ((s.onSeq u fun q => { q with barWait := some (h, t) }).park u).seq u := rfl
  rw [hseq, State.park, State.seq_onSeq_same, State.seq_onSeq_same]

@[simp] theorem State.byte_heldWait (s : State) (u : SeqId) (h : Nat) (t : BitVec 32) (b : Nat) :
    (s.heldWait u h t).byte b = s.byte b := by
  rw [State.heldWait, State.byte_watch, State.park, State.byte_onSeq, State.byte_onSeq]

/-- A wait joins the registered ones, and no notification of it is on its way yet (R259). -/
theorem State.watches_watch (s : State) (h : Nat) (t : BitVec 32) (who : Waiter) :
    ∃ poll, (s.watch h t who).watches = s.watches ++ [⟨h, t, who, poll, false⟩] :=
  ⟨decide (watchLimit (s.watchTable h) ≤ s.watchesOf (s.watchTable h)), rfl⟩

theorem State.watches_heldWait (s : State) (u : SeqId) (h : Nat) (t : BitVec 32) :
    ∃ poll, (s.heldWait u h t).watches = s.watches ++ [⟨h, t, .seq u, poll, false⟩] :=
  State.watches_watch ((s.onSeq u fun q => { q with barWait := some (h, t) }).park u) h t (.seq u)

/-- BAR.WAIT at a counter of this device goes on, or holds its target and registers (R257, R259). -/
theorem execBarWait_local {w : Issue} {a1 : AReg} {r2 : SReg} {s : State} {a : Nat} (hi : Issues w s)
    (hclean : s.poison = []) (hva : ((s.seq w.u).getA a1).toNat % 4 = 0)
    (hhome : s.counterHome (s.epReg w.u.epochUnit Reg.sipPtRoot) ((s.seq w.u).getA a1).toNat 0 false = .local_ a)
    (hclear : s.clearing a = false) (ha : a % 4 = 0) {target : BitVec 32}
    (htarget : ((s.seq w.u).getS r2).setWidth 32 = target) :
    execBarWait w a1 r2 s = .next (if 0 ≤ (s.word32 a - target).toInt then (issued w s).adv w.u else
      (issued w s).heldWait w.u a target) := by
  obtain ⟨q, m, hissued⟩ := issued_seqs_cnt w s
  have hcounter : (issued w s).counterAt a = s.word32 a := by
    rw [hissued]
    exact State.counterAt_of_serving hclean hclear ha
  have hhome' : (issued w s).counterHome ((issued w s).epReg w.u.epochUnit Reg.sipPtRoot) ((s.seq w.u).getA a1).toNat 0 false =
      .local_ a := by
    rw [hissued]
    exact (s.counterHome_seqs_cnt _ _ _ _ _ _).trans hhome
  have hbad : (issued w s).rdBad a 4 = false := by
    rw [hissued]
    exact State.rdBad_of_clean hclean a 4
  unfold execBarWait
  rw [issue_of_issues hi]
  have hA : ({ s.seq w.u with run := .running } : Seq).getA a1 = (s.seq w.u).getA a1 := rfl
  have hS : ({ s.seq w.u with run := .running } : Seq).getS r2 = (s.seq w.u).getS r2 := rfl
  simp [hA, hS, hva, hhome', hbad, hcounter, ahead, htarget, State.heldWait]

/-- The sequencer of a wait whose counter has reached its target stands behind its BAR.WAIT (R257). -/
theorem State.seq_release {s : State} {u : SeqId} (hwait : (s.seq u).barWait.isSome = true) :
    (s.release (.seq u)).seq u = { s.seq u with run := .running, pc := (s.seq u).pc + 1, barWait := none } := by
  unfold State.release
  rw [State.seq_onSeq_same, if_pos hwait]

section
variable {u : SeqId} {s : State} {x : Watch} (hx : s.watches = [x]) (hwho : x.who = .seq u)
include hx hwho

/-- The notification of the only wait releases its sequencer (R259). -/
theorem execBarNotify_only (hfired : x.fired = true) :
    execBarNotify (.seq u) s = .next (({ s with watches := [] } : State).release (.seq u)) := by
  unfold execBarNotify
  simp [hx, hwho, hfired]

/-- The poll of the only wait, at a counter that has reached its target, releases its sequencer (R259). -/
theorem execBarPollRead_only (hpoll : x.poll = true) (hclean : s.poison = [])
    (hreached : 0 ≤ (s.counterAt x.home - x.target).toInt) :
    ∃ m, execBarPollRead (.seq u) s = .next (({ s with watches := [], cnt := m } : State).release (.seq u)) := by
  cases u with
  | core c =>
    have hbad : (s.bump (Reg.nocBarPollCnt c.val) 1).rdBad x.home 4 = false := State.rdBad_of_clean hclean _ _
    have hahead : ahead ((s.bump (Reg.nocBarPollCnt c.val) 1).counterAt x.home) x.target = true := decide_eq_true hreached
    refine ⟨(s.bump (Reg.nocBarPollCnt c.val) 1).cnt, ?_⟩
    unfold execBarPollRead
    simp [hx, hwho, hpoll, pollCore, hbad, hahead]
  | cp n =>
    have hbad : s.rdBad x.home 4 = false := State.rdBad_of_clean hclean _ _
    have hahead : ahead (s.counterAt x.home) x.target = true := decide_eq_true hreached
    refine ⟨s.cnt, ?_⟩
    unfold execBarPollRead
    simp [hx, hwho, hpoll, pollCore, hbad, hahead]

end

/-- Settles O34: an arrival adds to its counter or leaves as a request, a wait passes or is held and registered, and a notice
or a poll releases it behind its BAR.WAIT. -/
theorem barriers : Obligations.Barriers := by
  unfold Obligations.Barriers
  intro u s
  refine ⟨?_, ?_, ?_⟩
  · intro h k w fd r2 a1 opt a hworks hhandle hqueued harrive hafter _ hpaused hword hstores home
    have hk : k ∈ (s.seq u).works := hworks ▸ List.mem_singleton_self k
    refine ⟨fun hhome hclean hclear htrain ha => ?_, fun d hhome hlink => ?_⟩
    · have hlt := lt_of_counterHome_local hhome
      have hexec := execBarArrivalApply_local hworks hhandle hqueued harrive hafter hpaused hword hstores hhome htrain
      obtain ⟨hcode, hseqs, hsum, hother⟩ :=
        State.arriveAt_of_serving hclean hclear ha (by unfold sramBase; omega) (ob opt 15 0)
      have hk' : k ∈ ((s.arriveAt a (ob opt 15 0)).1.seq u).works := by
        unfold State.seq
        rw [hseqs]
        exact hk
      rw [hcode] at hexec
      refine ⟨_, hexec, claimEnded_endWork hk' (.inl hqueued), ?_, hother⟩
      exact hsum.trans (congrArg (s.word32 a + ·) (BitVec.eq_of_toNat_eq (by simp [claimOpt, ob])))
    · obtain ⟨l, hl⟩ := Option.isSome_iff_exists.mp hlink
      have hexec := execBarArrivalApply_remote hworks hhandle hqueued harrive hafter hpaused hword hstores hhome
        (State.linkTo_of_some hl)
      obtain ⟨ls, o, hsent⟩ : OnlyLinks s
          (s.sendPkt l d 4 0 (s.nextReq % 65536) (globalAddr d a) (natLE 4 (ob opt 15 0))) := (OnlyLinks.refl s).sendPkt
      rw [hsent] at hexec
      exact ⟨_, hexec, State.running_runWork hk, ⟨_, List.mem_append_right _ (List.mem_singleton_self _), rfl, rfl⟩,
        State.byte_of_same_memory rfl rfl rfl rfl⟩
  · rintro w a1 r2 a rfl hi hclean va target hva hhome hclear ha
    have hexec := execBarWait_local (r2 := r2) hi hclean hva hhome hclear ha (target := target) rfl
    obtain ⟨q, m, hissued⟩ := issued_seqs_cnt w s
    refine ⟨fun hreached => ?_, fun hbehind => ?_⟩
    · rw [if_pos hreached] at hexec
      refine ⟨_, hexec, onlySeq_issued_onSeq w s _, ?_⟩
      unfold State.adv
      rw [State.seq_onSeq_same, seq_issued_same]
    · rw [if_neg (not_le.mpr hbehind)] at hexec
      obtain ⟨poll, hwatches⟩ := (issued w s).watches_heldWait w.u a target
      have hkept : (issued w s).watches = s.watches := by rw [hissued]
      refine ⟨_, _, hexec, by simp, hwatches.trans (congrArg (· ++ _) hkept), rfl, rfl, rfl, rfl, fun b => ?_⟩
      rw [State.byte_heldWait, byte_issued]
  · intro x hx hwho hwait
    refine ⟨fun hfired => ?_, fun hpoll hclean _ _ hreached => ?_⟩
    · exact ⟨_, execBarNotify_only hx hwho hfired, rfl, State.seq_release hwait⟩
    · obtain ⟨m, hexec⟩ := execBarPollRead_only hx hwho hpoll hclean hreached
      exact ⟨_, hexec, rfl, State.seq_release hwait⟩

end Sys2Proof.Machine
end

section
/-! What registers, counts, events, packets and writes to memory leave alone: the sequencers, the epochs and the update
engines; and, but for the writes, every byte of memory (R197, R198, R412, R510). -/

namespace Sys2Proof.Machine
open Sys2Proof

theorem State.seq_of_same_seqs {s t : State} (h : t.seqs = s.seqs) (v : SeqId) : t.seq v = s.seq v := by
  unfold State.seq
  rw [h]

/-- `t` differs from `s` in no sequencer, no configuration epoch and no update engine. -/
structure KeepsControl (s t : State) : Prop where
  seqs : t.seqs = s.seqs
  epoch : t.epoch = s.epoch
  unitEpoch : t.unitEpoch = s.unitEpoch
  snaps : t.snaps = s.snaps
  upds : t.upds = s.upds

/-- `t` differs from `s` moreover in no byte of memory: what a signal inside the device or to another keeps. -/
structure Signals (s t : State) : Prop extends KeepsControl s t where
  mem : t.mem = s.mem
  memGen : t.memGen = s.memGen
  chGen : t.chGen = s.chGen
  hostwin : t.reg Reg.hifHostwinBase = s.reg Reg.hifHostwinBase

namespace KeepsControl
variable {s t u : State}

theorem refl (s : State) : KeepsControl s s := ⟨rfl, rfl, rfl, rfl, rfl⟩

theorem trans (h : KeepsControl s t) (h' : KeepsControl t u) : KeepsControl s u :=
  ⟨h'.seqs.trans h.seqs, h'.epoch.trans h.epoch, h'.unitEpoch.trans h.unitEpoch, h'.snaps.trans h.snaps,
    h'.upds.trans h.upds⟩

theorem seq (h : KeepsControl s t) (v : SeqId) : t.seq v = s.seq v := State.seq_of_same_seqs h.seqs v

theorem upd (h : KeepsControl s t) (m : Nat) : t.upd m = s.upd m := by
  unfold State.upd
  rw [h.upds]

theorem ite (ht : KeepsControl s t) (hu : KeepsControl s u) {p : Prop} {_ : Decidable p} :
    KeepsControl s (if p then t else u) := by
  split <;> assumption

theorem setReg (h : KeepsControl s t) {off : Nat} {v : Word} : KeepsControl s (t.setReg off v) :=
  h.trans ⟨rfl, rfl, rfl, rfl, rfl⟩

theorem setFld (h : KeepsControl s t) {off hi lo x : Nat} : KeepsControl s (t.setFld off hi lo x) := h.setReg

theorem recordFirst (h : KeepsControl s t) {off : Nat} {v : Word} : KeepsControl s (t.recordFirst off v) :=
  .ite h.setFld h.setReg

theorem bump (h : KeepsControl s t) {off n : Nat} : KeepsControl s (t.bump off n) := h.trans ⟨rfl, rfl, rfl, rfl, rfl⟩

theorem drawn (h : KeepsControl s t) : KeepsControl s t.drawn := h.trans ⟨rfl, rfl, rfl, rfl, rfl⟩

end KeepsControl

/-! ### Signals -/

namespace Signals
variable {s t u : State}

theorem refl (s : State) : Signals s s := ⟨.refl s, rfl, rfl, rfl, rfl⟩

theorem trans (h : Signals s t) (h' : Signals t u) : Signals s u :=
  ⟨h.toKeepsControl.trans h'.toKeepsControl, h'.mem.trans h.mem, h'.memGen.trans h.memGen, h'.chGen.trans h.chGen,
    h'.hostwin.trans h.hostwin⟩

/-- Counts and error records are no part of what a byte is read from. -/
theorem byte (h : Signals s t) (a : Nat) : t.byte a = s.byte a :=
  Reports.byte (s := { s with cnt := t.cnt, poison := t.poison }) (t := t)
    ⟨rfl, rfl, h.mem, h.memGen, h.chGen, h.hostwin⟩ a

theorem ite (ht : Signals s t) (hu : Signals s u) {p : Prop} {_ : Decidable p} : Signals s (if p then t else u) := by
  split <;> assumption

theorem setReg (h : Signals s t) {off : Nat} {v : Word} (hoff : Reg.hifHostwinBase ≠ off) : Signals s (t.setReg off v) :=
  ⟨h.toKeepsControl.setReg, h.mem, h.memGen, h.chGen, (t.reg_setReg_ne off _ v hoff).trans h.hostwin⟩

theorem setFld (h : Signals s t) {off hi lo x : Nat} (hoff : Reg.hifHostwinBase ≠ off) :
    Signals s (t.setFld off hi lo x) := h.setReg hoff

theorem recordFirst (h : Signals s t) {off : Nat} {v : Word} (hoff : Reg.hifHostwinBase ≠ off) :
    Signals s (t.recordFirst off v) := .ite (h.setFld hoff) (h.setReg hoff)

theorem bump (h : Signals s t) {off n : Nat} : Signals s (t.bump off n) := h.trans ⟨.bump (.refl t), rfl, rfl, rfl, rfl⟩

theorem drawn (h : Signals s t) : Signals s t.drawn := h.trans ⟨.drawn (.refl t), rfl, rfl, rfl, rfl⟩

theorem send (h : Signals s t) {m : Sent} : Signals s (t.send m) :=
  h.trans ⟨⟨rfl, rfl, rfl, rfl, rfl⟩, rfl, rfl, rfl, rfl⟩

theorem withMsixWait (h : Signals s t) {l : List Nat} : Signals s { t with msixWait := l } :=
  h.trans ⟨⟨rfl, rfl, rfl, rfl, rfl⟩, rfl, rfl, rfl, rfl⟩

theorem msix (h : Signals s t) {v : Nat} : Signals s (t.msix v) :=
  .ite (h.setFld (by unfold Reg.hifHostwinBase Reg.hifPba; omega)) (.ite h.withMsixWait h.send)

theorem event (h : Signals s t) {b : Nat} : Signals s (t.event b) :=
  have hset : Signals s (t.setFld Reg.mgtEvent b b 1) := h.setFld (by decide)
  .ite h (.ite hset.msix hset)

theorem onLink (h : Signals s t) {l : Nat} {f : Link → Link} : Signals s (t.onLink l f) :=
  h.trans ⟨⟨rfl, rfl, rfl, rfl, rfl⟩, rfl, rfl, rfl, rfl⟩

theorem of_onlyLinks (h : Signals s t) (ho : OnlyLinks t u) : Signals s u := by
  obtain ⟨ls, o, rfl⟩ := ho
  exact h.trans ⟨⟨rfl, rfl, rfl, rfl, rfl⟩, rfl, rfl, rfl, rfl⟩

theorem pump (h : Signals s t) {l : Nat} : Signals s (t.pump l) := h.of_onlyLinks (OnlyLinks.refl t).pump

theorem sendManage (h : Signals s t) {l d : Nat} {body : List Byte} : Signals s (t.sendManage l d body) := by
  unfold State.sendManage
  exact List.foldlRecOn _ _ h fun t ht p _ => ht.of_onlyLinks (OnlyLinks.refl t).sendPkt

theorem notify (h : Signals s t) {d : Nat} {kind : String} {body : List Nat} : Signals s (t.notify d kind body) := by
  unfold State.notify
  dsimp only
  split
  · exact h.send.bump
  · exact .ite h.send h.send.sendManage

theorem notifyAll (h : Signals s t) {kind : String} {body : List Nat} : Signals s (t.notifyAll kind body) := by
  unfold State.notifyAll
  exact List.foldlRecOn _ _ h fun t ht d _ => ht.notify

theorem setLinkStat (h : Signals s t) {l hi lo x : Nat} : Signals s (t.setFld (Reg.cslLinkStat l) hi lo x) :=
  h.setFld (by unfold Reg.hifHostwinBase Reg.cslLinkStat; omega)

/-- A quarantine is reported once: recorded at the master, or sent to it (R418). -/
theorem quarantine (h : Signals s t) {l reason : Nat} : Signals s (t.quarantine l reason) :=
  have hlink := h.setLinkStat.setLinkStat
  .ite hlink (.ite (.event (.recordFirst hlink.onLink (by decide))) hlink.onLink.notify)

theorem settle (h : Signals s t) {l : Nat} : Signals s (t.settle l) := by
  unfold State.settle
  dsimp only
  split
  · exact h
  · refine .ite h.quarantine ?_
    split
    · exact h.quarantine
    · exact .ite h.quarantine h
    · exact .pump (.ite (h.setLinkStat.setLinkStat.onLink.setFld (by decide)) h.setLinkStat.setLinkStat.onLink)

theorem recheck (h : Signals s t) : Signals s t.recheck := by
  unfold State.recheck
  exact List.foldlRecOn _ _ h fun t ht l _ => .ite ht.settle ht

theorem digest (h : Signals s t) : Signals s t.digest := by
  have hdigest (k : Nat) : Reg.hifHostwinBase ≠ Reg.cslDigest k := by unfold Reg.hifHostwinBase Reg.cslDigest; omega
  exact .ite (forUpto_keeps h fun k t ht => ht.drawn.setReg (hdigest k))
    (forUpto_keeps h fun k t ht => ht.setReg (hdigest k))

/-- The master's new group step is stored and sent (R426). -/
theorem sendStep (h : Signals s t) {n : Word} : Signals s (t.sendStep n) := .ite (h.setReg (by decide)).notifyAll h

end Signals

/-! ### Reads and writes of memory -/

namespace KeepsControl
variable {s t : State}

theorem event (h : KeepsControl s t) {b : Nat} : KeepsControl s (t.event b) :=
  h.trans (Signals.refl t).event.toKeepsControl

theorem noteUncorr (h : KeepsControl s t) {a : Nat} : KeepsControl s (t.noteUncorr a) := by
  unfold State.noteUncorr
  split
  · exact h.trans ⟨rfl, rfl, rfl, rfl, rfl⟩
  · split
    · exact h.bump.recordFirst.event
    · exact h.bump.recordFirst.event
    · exact h.bump.event
    · exact h

theorem noteRead (h : KeepsControl s t) {a n : Nat} : KeepsControl s (t.noteRead a n) := by
  unfold State.noteRead
  split
  · exact .ite h.drawn h
  · exact .drawn (List.foldlRecOn _ _ h fun t ht a _ => ht.noteUncorr)

theorem putBytes (h : KeepsControl s t) {a : Nat} {bs : List Byte} : KeepsControl s (t.putBytes a bs) := by
  obtain ⟨m, hm⟩ := t.putBytes_mem a bs
  rw [hm]
  exact h.trans ⟨rfl, rfl, rfl, rfl, rfl⟩

theorem withErrors (h : KeepsControl s t) {p f : List Nat} : KeepsControl s { t with poison := p, fresh := f } :=
  h.trans ⟨rfl, rfl, rfl, rfl, rfl⟩

theorem wr (h : KeepsControl s t) {a : Nat} {bs : List Byte} : KeepsControl s (t.wr a bs) := by
  unfold State.wr
  dsimp only
  split
  · exact h.putBytes
  · exact List.foldlRecOn _ _ h.putBytes.withErrors fun t ht a _ => ht.noteUncorr

theorem wrLE (h : KeepsControl s t) {a n v : Nat} : KeepsControl s (t.wrLE a n v) := h.wr

theorem amaxRoll (h : KeepsControl s t) {n slot : Nat} : KeepsControl s (t.amaxRoll n slot) := by
  unfold State.amaxRoll
  refine .ite h ?_
  extract_lets hist s1 s2
  have h2 : KeepsControl s s2 := .wrLE (.wrLE (List.foldlRecOn _ _ h fun t ht x _ => ht.wrLE))
  split
  · refine .ite h2 ?_
    split
    · exact h2
    · exact h2.wrLE
  · exact h2

theorem amaxRollAll (h : KeepsControl s t) {n : Nat} : KeepsControl s (t.amaxRollAll n) :=
  forUpto_keeps h fun _ _ ht => ht.amaxRoll

theorem cursors (h : KeepsControl s t) {n : Nat} : KeepsControl s (t.cursors n) :=
  .ite h (forUpto_keeps h fun _ _ ht => .ite ht ht.wrLE.wrLE)

end KeepsControl

end Sys2Proof.Machine
end

section
/-! COMMIT, FENCE.CFG and LOOP.STEP: the epoch that a commit raises, the fence that waits for every enabled unit, and what a
step of the loop leaves to the program and to the update engines (R316 to R318, R341, R352). -/

namespace Sys2Proof.Machine
open Sys2Proof

/-! ### Issue -/

/-- A unit that issues an instruction runs its body where it is ready, and presents it again where it is not. -/
theorem issueWhen_of_issues {w : Issue} {s : State} (h : Issues w s) (ready : State → Bool) (stall body : State → State) :
    issueWhen w ready stall s body = .next (if ready s then body (issued w s) else stall s) := by
  obtain ⟨hruns, hfetch, hpc, hpred⟩ := h
  have hgoes : issueWhen w ready stall s body =
      if !ready s then .next (stall s) else .next (body (issued w s)) := by
    unfold issueWhen
    rcases hruns with hrun | ⟨hrun, hfree⟩
    · simp [hrun, hfetch, Nat.not_le.mpr hpc, hpred]
    · simp [hrun, hfree, hfetch, Nat.not_le.mpr hpc, hpred]
  rw [hgoes]
  cases ready s <;> rfl

/-- A write to an s-register changes no other part of a sequencer. -/
theorem Seq.setS_eq (q : Seq) (r : SReg) (v : Word) : ∃ m, q.setS r v = { q with s := m } := by
  unfold Seq.setS
  split
  · exact ⟨_, rfl⟩
  · exact ⟨_, rfl⟩

theorem Seq.pc_setS (q : Seq) (r : SReg) (v : Word) : (q.setS r v).pc = q.pc := by
  obtain ⟨m, hm⟩ := q.setS_eq r v
  rw [hm]

theorem Seq.h_setS (q : Seq) (r : SReg) (v : Word) : (q.setS r v).h = q.h := by
  obtain ⟨m, hm⟩ := q.setS_eq r v
  rw [hm]

@[simp] theorem State.seq_adv_same (s : State) (u : SeqId) :
    (s.adv u).seq u = { s.seq u with pc := (s.seq u).pc + 1 } := State.seq_onSeq_same _ _ _

theorem State.reg_onSeq (s : State) (u : SeqId) (f : Seq → Seq) (o : Nat) : (s.onSeq u f).reg o = s.reg o := rfl

theorem State.reg_adv (s : State) (u : SeqId) (o : Nat) : (s.adv u).reg o = s.reg o := rfl

theorem State.byte_adv (s : State) (u : SeqId) (a : Nat) : (s.adv u).byte a = s.byte a := rfl

theorem Seq.anyBusy_iff (q : Seq) : q.anyBusy = true ↔ ∃ i, i < 32 ∧ q.getH i = .busy := by
  have hbusy (h : Handle) : isBusy h = true ↔ h = .busy := by cases h <;> simp [isBusy]
  simp [Seq.anyBusy, hbusy]

/-- A counted loop: what each of its turns adds to what the turns before it have reached. -/
theorem forUpto_induction {α : Type} {P : Nat → α → Prop} {n : Nat} {f : Nat → α → α} {a : α} (h : P 0 a)
    (hf : ∀ i, i < n → ∀ x, P i x → P (i + 1) (f i x)) : P n (forUpto n f a) := by
  unfold forUpto
  induction n with
  | zero => exact h
  | succ n ih => exact hf n (Nat.lt_succ_self n) _ (ih fun i hi => hf i (Nat.lt_succ_of_lt hi))

/-! ### COMMIT -/

/-- Past the epoch and its shadow values a commit only signals (R316, R417). -/
theorem State.signals_commitAll (s : State) : Signals s.commit s.commitAll := (Signals.refl s.commit).digest.recheck

theorem State.seq_commitAll (s : State) (u : SeqId) : s.commitAll.seq u = s.seq u :=
  (s.signals_commitAll.seq u).trans (State.seq_of_same_seqs rfl u)

theorem State.epoch_commitAll (s : State) : s.commitAll.epoch = s.epoch + 1 := s.signals_commitAll.epoch

theorem State.unitEpoch_commitAll (s : State) : s.commitAll.unitEpoch = s.unitEpoch := s.signals_commitAll.unitEpoch

/-- The new epoch has taken up the shadow values (R13, R316). -/
theorem State.snaps_commitAll (s : State) :
    SMap.get [] s.commitAll.snaps s.commitAll.epoch.toNat = epShadows s.regs := by
  rw [s.signals_commitAll.snaps, s.epoch_commitAll]
  exact SMap.get_put_same _ _ _ _

theorem State.byte_commitAll (s : State) (a : Nat) : s.commitAll.byte a = s.byte a :=
  (s.signals_commitAll.byte a).trans (State.byte_of_same_memory rfl rfl rfl rfl a)

/-- The digest stands in its own registers (R417). -/
theorem State.reg_digest_ne (s : State) {o : Nat} (ho : ∀ k, k < 8 → o ≠ Reg.cslDigest k) : s.digest.reg o = s.reg o := by
  unfold State.digest
  dsimp only
  split
  · refine forUpto_induction (P := fun _ (t : State) => t.reg o = s.reg o) rfl fun k hk t ht => ?_
    exact (t.drawn.reg_setReg_ne _ _ _ (ho k hk)).trans ht
  · refine forUpto_induction (P := fun _ (t : State) => t.reg o = s.reg o) rfl fun k hk t ht => ?_
    exact (t.reg_setReg_ne _ _ _ (ho k hk)).trans ht

theorem State.recheck_of_no_quarantine {s : State} (h : ∀ l, l < 12 → s.linkState l ≠ 2) : s.recheck = s :=
  List.foldlRecOn (motive := (· = s)) _ _ rfl fun _ ht l hl => by
    subst ht
    exact if_neg (h l (List.mem_range.mp hl))

/-- Without a link in QUARANTINE a commit stores no register but the digest. -/
theorem State.reg_commitAll_ne {s : State} (h : ∀ l, l < 12 → s.linkState l ≠ 2) {o : Nat}
    (ho : ∀ k, k < 8 → o ≠ Reg.cslDigest k) : s.commitAll.reg o = s.reg o := by
  have hlinks (l : Nat) (hl : l < 12) : s.commit.digest.linkState l ≠ 2 := by
    have hreg : s.commit.digest.reg (Reg.cslLinkStat l) = s.reg (Reg.cslLinkStat l) :=
      s.commit.reg_digest_ne fun k _ => by unfold Reg.cslLinkStat Reg.cslDigest; omega
    unfold State.linkState State.fld
    rw [hreg]
    exact h l hl
  unfold State.commitAll
  rw [State.recheck_of_no_quarantine hlinks]
  exact s.commit.reg_digest_ne ho

theorem exec_commit {w : Issue} {s : State} (hcp : w.u.isCp = true) (h : Issues w s) (fd : SReg) :
    exec (.commit w fd) s = .next (((issued w s).commitAll.onSeq w.u fun q =>
      q.setS fd ((issued w s).commitAll.epoch.zeroExtend 64)).adv w.u) := by
  change execCommit w fd s = _
  unfold execCommit
  rw [issue_of_issues h]
  simp [hcp]

/-! ### FENCE.CFG -/

theorem State.fenceOk_iff (s : State) (t : BitVec 32) : s.fenceOk t = true ↔
    ∀ u, u < 1068 → s.unitOff u = false → 0 ≤ (SMap.get 0 s.unitEpoch u - t).toInt := by
  simp [State.fenceOk, or_iff_not_imp_left]

theorem exec_fenceCfg {w : Issue} {s : State} (hcp : w.u.isCp = true) (h : Issues w s) (r1 : SReg) :
    exec (.fenceCfg w r1) s =
      .next (if s.fenceOk (((s.seq w.u).getS r1).setWidth 32) then (issued w s).adv w.u else s) := by
  change execFenceCfg w r1 s = _
  unfold execFenceCfg
  rw [issueWhen_of_issues h]
  simp [hcp]

/-! ### LOOP.STEP -/

@[simp] theorem State.upd_onSeq (s : State) (u : SeqId) (f : Seq → Seq) (m : Nat) : (s.onSeq u f).upd m = s.upd m := rfl

theorem State.upd_onUpd (s : State) (k : Nat) (f : Upd → Upd) (m : Nat) :
    (s.onUpd k f).upd m = if m = k then f (s.upd k) else s.upd m := by
  split
  · next h => exact h ▸ SMap.get_put_same _ _ _ _
  · next h => exact SMap.get_put_ne _ _ _ _ _ _ h

/-- A schedule row changes the update engines alone, each of which holds it under its step (R352). -/
theorem State.loadRow_spec (s : State) (n : Word) : (s.loadRow n).seqs = s.seqs ∧ (s.loadRow n).unitEpoch = s.unitEpoch ∧
    ∀ m, m < 16 → ((s.loadRow n).upd m).rowStep = n := by
  unfold State.loadRow
  extract_lets base rows a ok bs row t
  have hread : KeepsControl s t := .ite (.refl s) (.noteRead (.refl s))
  refine forUpto_induction (P := fun i (r : State) => r.seqs = s.seqs ∧ r.unitEpoch = s.unitEpoch ∧
    ∀ m, m < i → (r.upd m).rowStep = n) ⟨hread.seqs, hread.unitEpoch, fun m hm => absurd hm m.not_lt_zero⟩ ?_
  rintro i - r ⟨hseqs, hepoch, hrows⟩
  refine ⟨hseqs, hepoch, fun m hm => ?_⟩
  rw [State.upd_onUpd]
  split
  · rfl
  · exact hrows m (by omega)

/-- The step `n` begins: the control cluster switches its epoch, the engines take their row, and the group is told (R341,
R352, R426, R438). -/
def State.beginStep (s : State) (n : Word) : State :=
  let s := { s with unitEpoch := SMap.put 0 s.unitEpoch 1067 s.epoch }
  let s := s.loadRow n
  (s.sendStep n).bump Reg.rslDroppedMbCnt s.droppedMembers

/-- The control cluster stands in the newest epoch and each engine holds the new row; no sequencer has changed. -/
theorem State.beginStep_spec (s : State) (n : Word) : (s.beginStep n).seqs = s.seqs ∧
    SMap.get 0 (s.beginStep n).unitEpoch 1067 = s.epoch ∧ ∀ m, m < 16 → ((s.beginStep n).upd m).rowStep = n := by
  unfold State.beginStep
  extract_lets s1 s2
  obtain ⟨hseqs, hepoch, hrows⟩ := s1.loadRow_spec n
  have h2 : KeepsControl s2 ((s2.sendStep n).bump Reg.rslDroppedMbCnt s2.droppedMembers) :=
    (Signals.refl s2).sendStep.bump.toKeepsControl
  refine ⟨h2.seqs.trans hseqs, ?_, fun m hm => ?_⟩
  · rw [h2.unitEpoch, hepoch]
    exact SMap.get_put_same _ _ _ _
  · rw [h2.upd]
    exact hrows m hm

/-- What a LOOP.STEP that ends step `k` does outside its sequencer: amax slots roll, cursors advance, and step `n` begins
(R72, R451). -/
def State.loopStepped (s : State) (k : Nat) (n : Word) : State :=
  (((s.setFld Reg.rslStat 1 1 0).amaxRollAll k).cursors n.toNat).beginStep n

theorem State.loopStepped_spec (s : State) (k : Nat) (n : Word) : (s.loopStepped k n).seqs = s.seqs ∧
    SMap.get 0 (s.loopStepped k n).unitEpoch 1067 = s.epoch ∧ ∀ m, m < 16 → ((s.loopStepped k n).upd m).rowStep = n := by
  have hkept : KeepsControl s (((s.setFld Reg.rslStat 1 1 0).amaxRollAll k).cursors n.toNat) :=
    (KeepsControl.refl s).setFld.amaxRollAll.cursors
  obtain ⟨hseqs, hepoch, hrows⟩ := State.beginStep_spec (((s.setFld Reg.rslStat 1 1 0).amaxRollAll k).cursors n.toNat) n
  exact ⟨hseqs.trans hkept.seqs, hepoch.trans hkept.epoch, hrows⟩

/-- Whether the step after the current one is still to be done: LOOP.STEP branches back (R318). -/
def Seq.stepsRemain (q : Seq) (ra : SReg) : Bool := decide (0 < (q.getS ra - (q.step + 1)).toInt)

/-- Where LOOP.STEP goes on (R318). -/
def Seq.loopTarget (q : Seq) (ra : SReg) (imm : Imm) : Int := (q.pc : Int) + if q.stepsRemain ra then imm.toInt else 1

theorem exec_loopStep_of_busy {w : Issue} {s : State} (hcp : w.u.isCp = true) (h : Issues w s)
    (hbusy : (s.seq w.u).anyBusy = true) (rd ra : SReg) (imm : Imm) : exec (.loopStep w rd ra imm) s = .next s := by
  change execLoopStep w rd ra imm s = _
  unfold execLoopStep
  rw [issueWhen_of_issues h]
  simp [hcp, hbusy]

theorem exec_loopStep_of_ready {w : Issue} {s : State} (hcp : w.u.isCp = true) (h : Issues w s) {rd ra : SReg} {imm : Imm}
    (hbusy : (s.seq w.u).anyBusy = false) (hheld : s.loopHeld ((s.seq w.u).step + 1).toNat = false)
    (htarget : (s.seq w.u).stepsRemain ra = true →
      0 ≤ (s.seq w.u).loopTarget ra imm ∧ (s.seq w.u).loopTarget ra imm < pcLimit w.u) :
    exec (.loopStep w rd ra imm) s =
      .next (((issued w s).loopStepped (s.seq w.u).step.toNat ((s.seq w.u).step + 1)).onSeq w.u fun q =>
        { q.setS rd ((s.seq w.u).step + 1) with
          step := (s.seq w.u).step + 1
          inLoop := (s.seq w.u).stepsRemain ra
          loopOver := !(s.seq w.u).stepsRemain ra
          pc := ((s.seq w.u).loopTarget ra imm).toNat }) := by
  change execLoopStep w rd ra imm s = _
  unfold execLoopStep
  dsimp only
  rw [issueWhen_of_issues h, if_pos (by rw [hcp, hbusy, hheld]; rfl)]
  have hin : ((s.seq w.u).stepsRemain ra && !(decide (0 ≤ (s.seq w.u).loopTarget ra imm) &&
      decide ((s.seq w.u).loopTarget ra imm < pcLimit w.u))) = false := by
    cases hremain : (s.seq w.u).stepsRemain ra with
    | false => rfl
    | true => simp [htarget hremain]
  unfold Seq.loopTarget Seq.stepsRemain at hin ⊢
  unfold State.loopStepped State.beginStep
  rw [if_neg (by simp [hcp]), if_neg (Bool.eq_false_iff.mp hin)]

/-- The step rises in the program and in the engines, and no handle changes (R318, R341, R352). -/
theorem loopStep_of_ready {w : Issue} {s : State} (hcp : w.u.isCp = true) (h : Issues w s) {rd ra : SReg} {imm : Imm}
    (hbusy : (s.seq w.u).anyBusy = false) (hheld : s.loopHeld ((s.seq w.u).step + 1).toNat = false)
    (htarget : (s.seq w.u).stepsRemain ra = true →
      0 ≤ (s.seq w.u).loopTarget ra imm ∧ (s.seq w.u).loopTarget ra imm < pcLimit w.u) :
    ∃ t, exec (.loopStep w rd ra imm) s = .next t ∧ (t.seq w.u).step = (s.seq w.u).step + 1 ∧
      (t.seq w.u).pc = ((s.seq w.u).loopTarget ra imm).toNat ∧
      (t.seq w.u).getS rd = (if rd = 0 then 0 else (s.seq w.u).step + 1) ∧
      (∀ x, x ≠ rd → (t.seq w.u).getS x = (s.seq w.u).getS x) ∧ (t.seq w.u).h = (s.seq w.u).h ∧
      SMap.get 0 t.unitEpoch 1067 = s.epoch ∧ ∀ m, m < 16 → (t.upd m).rowStep = (s.seq w.u).step + 1 := by
  obtain ⟨hseqs, hepoch, hrows⟩ := (issued w s).loopStepped_spec (s.seq w.u).step.toNat ((s.seq w.u).step + 1)
  have hseq : ((issued w s).loopStepped (s.seq w.u).step.toNat ((s.seq w.u).step + 1)).seq w.u =
      { s.seq w.u with run := .running } := (State.seq_of_same_seqs hseqs w.u).trans (seq_issued_same w s)
  refine ⟨_, exec_loopStep_of_ready hcp h hbusy hheld htarget, ?_, ?_, ?_, fun x hx => ?_, ?_, ?_, fun m hm => ?_⟩
  case refine_6 =>
    obtain ⟨q, m, hissued⟩ := issued_seqs_cnt w s
    rw [State.onSeq_unitEpoch, hepoch, hissued]
  case refine_7 => rw [State.upd_onSeq, hrows m hm]
  all_goals rw [State.seq_onSeq_same, hseq]
  · exact Seq.getS_setS_same _ _ _
  · exact Seq.getS_setS_ne _ _ _ _ hx
  · exact Seq.h_setS _ _ _

/-- Settles O22: a commit raises the epoch and then only signals, a fence compares epochs, and a LOOP.STEP that no handle and
no hold stops leaves its step to the program and its row to the engines. -/
theorem commitFenceLoop : Obligations.CommitFenceLoop := by
  unfold Obligations.CommitFenceLoop
  refine ⟨fun n w fd r1 s hu hi => ?_, fun n w rd ra imm s hu hi => ?_⟩
  · have hcp : w.u.isCp = true := hu ▸ rfl
    obtain ⟨q, m, hissued⟩ := issued_seqs_cnt w s
    have hepoch : (issued w s).commitAll.epoch = s.epoch + 1 := by rw [State.epoch_commitAll, hissued]
    refine ⟨⟨_, exec_commit hcp hi fd, hepoch, ?_, ?_, ?_, ?_, fun hlinks o ho => ?_, fun a => ?_⟩, ?_⟩
    · rw [State.adv_unitEpoch, State.onSeq_unitEpoch, State.unitEpoch_commitAll, hissued]
    · rw [State.adv_snaps, State.adv_epoch, State.onSeq_snaps, State.onSeq_epoch, State.snaps_commitAll, hissued]
    · rw [State.seq_adv_same, State.seq_onSeq_same, hepoch]
      exact Seq.getS_setS_same _ _ _
    · rw [State.seq_adv_same, State.seq_onSeq_same, State.seq_commitAll, seq_issued_same]
      exact congrArg (· + 1) (Seq.pc_setS _ _ _)
    · rw [State.reg_adv, State.reg_onSeq, State.reg_commitAll_ne (hissued ▸ hlinks) ho, hissued]
      rfl
    · rw [State.byte_adv, State.byte_onSeq, State.byte_commitAll, byte_issued]
    · rw [exec_fenceCfg hcp hi, ← State.fenceOk_iff]
      refine ⟨fun hreached => ?_, fun hbehind => ?_⟩
      · rw [if_pos hreached]
        refine ⟨_, rfl, onlySeq_issued_onSeq w s _, ?_⟩
        rw [State.seq_adv_same, seq_issued_same]
      · rw [if_neg hbehind]
  · have hcp : w.u.isCp = true := hu ▸ rfl
    refine ⟨fun hidle hheld => ?_, fun hbusy => exec_loopStep_of_busy hcp hi ((Seq.anyBusy_iff _).mpr hbusy) rd ra imm⟩
    have hfree : (s.seq w.u).anyBusy = false := Bool.eq_false_iff.mpr fun hbusy => by
      obtain ⟨i, hi, hb⟩ := (Seq.anyBusy_iff _).mp hbusy
      exact hidle i hi hb
    have hgoes := loopStep_of_ready (rd := rd) (ra := ra) (imm := imm) hcp hi hfree hheld
    refine ⟨fun htaken hlow hhigh => ?_, fun hdone => ?_⟩
    · have hremain : (s.seq w.u).stepsRemain ra = true := decide_eq_true htaken
      have htarget : (s.seq w.u).loopTarget ra imm = (s.seq w.u).pc + imm.toInt := by
        unfold Seq.loopTarget
        rw [if_pos hremain]
      exact htarget ▸ hgoes fun _ => htarget ▸ ⟨hlow, hhigh⟩
    · have hremain : (s.seq w.u).stepsRemain ra = false := decide_eq_false hdone
      have htarget : ((s.seq w.u).loopTarget ra imm).toNat = (s.seq w.u).pc + 1 := by
        unfold Seq.loopTarget
        rw [hremain]
        rfl
      exact htarget ▸ hgoes fun h => absurd h (Bool.eq_false_iff.mp hremain)

end Sys2Proof.Machine
end

section
/-! The launch of programs on idle cores: what a started program finds in its registers and in its instruction store, and that
a launch changes the sequencers of the named cores alone (R267, R319). -/

namespace Sys2Proof.Machine
open Sys2Proof

/-! ### The control-cluster SRAM -/

theorem target_sram (h5 : Bool) {a : Nat} (hlow : sramBase ≤ a) (hhigh : a < sramBase + 0x400_0000) :
    target h5 a = .sram (a - sramBase) := by
  unfold sramBase at *
  have hgddr : ¬a < 0x100_0000_0000 := by omega
  have hcxl : ¬a < 0x2000_0000_0000 := by omega
  have hchamber : ¬a < 0x2000_C800_0000 := by omega
  simp [target, sramBase, hgddr, hcxl, hchamber, hlow, hhigh]

/-- The control-cluster SRAM has no check bits, so that an access delivers what is stored (R335, R393). -/
theorem State.rd_sram {s : State} (hp : poisonOk s = true) {a : Nat} (hlow : sramBase ≤ a)
    (hhigh : a < sramBase + 0x400_0000) : s.rd a = s.byte a := by
  have hsize : eccSize s.fuses.h5 a = 0 := by
    unfold eccSize
    rw [target_sram _ hlow hhigh]
  have hunit : eccUnit s.fuses.h5 a = a := by
    unfold eccUnit
    rw [hsize]
    rfl
  have hgood : s.poisoned a = false := by
    unfold State.poisoned
    rw [hunit]
    by_contra hbad
    have hmem : a ∈ s.poison := List.contains_iff_mem.mp (by simpa using hbad)
    have hecc := List.all_eq_true.mp hp a hmem
    rw [hsize] at hecc
    exact absurd hecc (by simp)
  unfold State.rd
  rw [hgood, s.clearing_of_ge (by unfold sramBase at hlow; omega)]
  rfl

theorem State.rdLE_sram {s t : State} (hs : poisonOk s = true) (ht : poisonOk t = true) (hbyte : ∀ a, t.byte a = s.byte a)
    {a n : Nat} (hlow : sramBase ≤ a) (hhigh : a + n ≤ sramBase + 0x400_0000) : t.rdLE a n = s.rdLE a n := by
  unfold State.rdLE State.rdBytes
  refine congrArg leNat (List.map_congr_left fun i hi => ?_)
  have hlt := List.mem_range.mp hi
  rw [State.rd_sram ht (by omega) (by omega), State.rd_sram hs (by omega) (by omega), hbyte]

/-! ### A started program -/

/-- Values stored from key 1 on. -/
theorem get_foldl_put_succ (v : Nat → Word) (n k : Nat) :
    SMap.get 0 ((List.range n).foldl (fun m i => SMap.put 0 m (i + 1) (v i)) []) k =
      if k = 0 ∨ n < k then 0 else v (k - 1) := by
  induction n with
  | zero => simp [SMap.get, Nat.pos_iff_ne_zero, em]
  | succ n ih =>
    rw [List.range_succ, List.foldl_append, List.foldl_cons, List.foldl_nil]
    by_cases hk : k = n + 1
    · subst hk
      rw [SMap.get_put_same, if_neg (by omega)]
      rfl
    · rw [SMap.get_put_ne _ _ _ _ _ _ hk, ih]
      exact if_congr (by omega) rfl rfl

/-- A program starts with s1 to s15 from its launch, and 0 in every other s-register (R267). -/
theorem Seq.getS_started (q : Seq) (entry : Nat) (regs : List Word) (l : Launcher) (step : Word) (r : SReg) :
    (q.started entry regs l step).getS r = if r = 0 ∨ 15 < r.toNat then 0 else regs.getD (r.toNat - 1) 0 := by
  unfold Seq.getS Seq.started
  by_cases hr : r = 0
  · rw [if_pos hr, if_pos (.inl hr)]
  · have hnat : r.toNat ≠ 0 := fun h => hr (BitVec.eq_of_toNat_eq h)
    rw [if_neg hr]
    refine (get_foldl_put_succ (fun i => regs.getD i 0) 15 r.toNat).trans ?_
    simp only [hr, hnat]

theorem Seq.getP_started (q : Seq) (entry : Nat) (regs : List Word) (l : Launcher) (step : Word) (p : PReg) :
    (q.started entry regs l step).getP p = decide (p = 0) := by
  unfold Seq.getP
  split
  · next hp => exact (decide_eq_true hp).symm
  · next hp => exact (decide_eq_false hp).symm

/-- A core's sequencer once a launch has loaded its instruction store and started its program (R267, R319). -/
def State.loaded (s : State) (l : Launch) (q : Seq) : Seq :=
  Seq.started { q with istore := forUpto l.len (fun i m =>
    SMap.put 0 m i (BitVec.ofNat 64 (s.rdLE (sramBase + 4 * l.image + 8 * i) 8))) q.istore } l.entry l.regs l.by_ l.step

theorem State.startCore_eq (s : State) (l : Launch) : s.startCore l = s.onSeq (SeqId.ofNum l.core) (s.loaded l) := rfl

theorem State.istore_loaded (s : State) (l : Launch) (q : Seq) {x : Nat} (hx : x < l.len) :
    SMap.get 0 (s.loaded l q).istore x = BitVec.ofNat 64 (s.rdLE (sramBase + 4 * l.image + 8 * x) 8) := by
  refine forUpto_induction (P := fun i (m : SMap Word) => ∀ x, x < i →
    SMap.get 0 m x = BitVec.ofNat 64 (s.rdLE (sramBase + 4 * l.image + 8 * x) 8))
    (fun x hx => absurd hx x.not_lt_zero) (fun i _ m hm x hx => ?_) x hx
  by_cases hxi : x = i
  · subst hxi
    exact SMap.get_put_same _ _ _ _
  · exact (SMap.get_put_ne _ _ _ _ _ _ hxi).trans (hm x (by omega))

/-! ### Launches on idle cores -/

/-- `t` differs from `s` in sequencers and in the free values drawn. -/
def OnlyPrograms (s t : State) : Prop := ∃ q f, t = { s with seqs := q, freeCtr := f }

namespace OnlyPrograms
variable {s t u : State}

theorem refl (s : State) : OnlyPrograms s s := ⟨_, _, rfl⟩

theorem trans (h : OnlyPrograms s t) (h' : OnlyPrograms t u) : OnlyPrograms s u := by
  obtain ⟨q, f, rfl⟩ := h
  obtain ⟨q', f', rfl⟩ := h'
  exact ⟨_, _, rfl⟩

theorem launches (h : OnlyPrograms s t) : t.launches = s.launches := by
  obtain ⟨q, f, rfl⟩ := h
  rfl

theorem byte (h : OnlyPrograms s t) (a : Nat) : t.byte a = s.byte a := by
  obtain ⟨q, f, rfl⟩ := h
  exact State.byte_of_same_memory rfl rfl rfl rfl a

theorem poisonOk (h : OnlyPrograms s t) (hp : Machine.poisonOk s = true) : Machine.poisonOk t = true := by
  obtain ⟨q, f, rfl⟩ := h
  exact hp

end OnlyPrograms

/-- The launch of a block's program on one core (R319). -/
def launchOf (by_ : Launcher) (b : List Byte) (step : Word) (c : Nat) : Launch where
  core := c
  by_ := by_
  entry := blockField b 0 4
  image := blockField b 8 8
  len := blockField b 4 4
  regs := (List.range 15).map fun i => BitVec.ofNat 64 (blockField b (0x10 + 8 * i) 8)
  step := step

/-- Where one launch waits, no choice is left and it starts. -/
theorem State.startNext_only {s : State} {l : Launch} (h : s.launches = [l]) :
    s.startNext l.core = ({ s.drawn with launches := [] } : State).startCore l := by
  unfold State.startNext
  simp [h, Nat.mod_one]

theorem State.launchOn_cons {s : State} {by_ : Launcher} {b : List Byte} {step : Word} {c : Nat} {cores : List Nat}
    (hnone : s.launches = []) (hidle : (s.seq (SeqId.ofNum c)).run = .idle) : s.launchOn by_ b step (c :: cores) =
      (s.drawn.startCore (launchOf by_ b step c)).launchOn by_ b step cores := by
  have hdrawn : ({ s.drawn with launches := [] } : State) = s.drawn := by
    rw [← hnone]
    rfl
  have hwaits : ({ s with launches := s.launches ++ [launchOf by_ b step c] } : State).launches =
      [launchOf by_ b step c] := congrArg (· ++ _) hnone
  have hstart : (if (s.seq (SeqId.ofNum c)).run = .idle then
      ({ s with launches := s.launches ++ [launchOf by_ b step c] } : State).startNext c
      else { s with launches := s.launches ++ [launchOf by_ b step c] }) =
      s.drawn.startCore (launchOf by_ b step c) := by
    rw [if_pos hidle, ← hdrawn]
    exact State.startNext_only hwaits
  exact congrArg (State.launchOn · by_ b step cores) hstart

/-- Each named core runs what an unchanged memory has loaded; every other sequencer is as it was (R267, R319). -/
theorem State.launchOn_spec {by_ : Launcher} {b : List Byte} {step : Word} {cores : List Nat} {s : State}
    (hnone : s.launches = []) (hnodup : cores.Nodup) (hlt : ∀ c ∈ cores, c < 800)
    (hidle : ∀ c : Fin 800, c.val ∈ cores → (s.seq (.core c)).run = .idle) :
    OnlyPrograms s (s.launchOn by_ b step cores) ∧
    (∀ v : SeqId, v.num ∉ cores → (s.launchOn by_ b step cores).seq v = s.seq v) ∧
    ∀ c : Fin 800, c.val ∈ cores → ∃ r, OnlyPrograms s r ∧
      (s.launchOn by_ b step cores).seq (.core c) = r.loaded (launchOf by_ b step c.val) (s.seq (.core c)) := by
  induction cores generalizing s with
  | nil => exact ⟨.refl s, fun _ _ => rfl, fun c hc => absurd hc List.not_mem_nil⟩
  | cons c cores ih =>
    obtain ⟨hfresh, hnodup⟩ := List.nodup_cons.mp hnodup
    have hc : c < 800 := hlt c List.mem_cons_self
    have hcore : SeqId.ofNum c = .core ⟨c, hc⟩ := dif_pos hc
    have hnum : (SeqId.ofNum c).num = c := by rw [hcore]; rfl
    rw [State.launchOn_cons hnone (by rw [hcore]; exact hidle ⟨c, hc⟩ List.mem_cons_self)]
    have hstarted : OnlyPrograms s (s.drawn.startCore (launchOf by_ b step c)) := ⟨_, _, rfl⟩
    have hother (v : SeqId) (hv : v.num ≠ c) : (s.drawn.startCore (launchOf by_ b step c)).seq v = s.seq v :=
      State.seq_onSeq_ne _ _ _ _ (hnum.symm ▸ hv)
    have hne (d : Nat) (hd : d ∈ cores) : d ≠ c := fun h => hfresh (h ▸ hd)
    obtain ⟨honly, hkept, hruns⟩ := ih (hstarted.launches.trans hnone) hnodup
      (fun d hd => hlt d (List.mem_cons_of_mem c hd))
      (fun d hd => hother (.core d) (hne d.val hd) ▸ hidle d (List.mem_cons_of_mem c hd))
    refine ⟨hstarted.trans honly, fun v hv => ?_, fun d hd => ?_⟩
    · obtain ⟨hvc, hvs⟩ := not_or.mp (mt List.mem_cons.mpr hv)
      exact (hkept v hvs).trans (hother v hvc)
    · rcases List.mem_cons.mp hd with rfl | hd
      · refine ⟨s.drawn, ⟨_, _, rfl⟩, (hkept (.core d) hfresh).trans ?_⟩
        rw [State.startCore_eq, launchOf, hcore]
        exact State.seq_onSeq_same _ _ _
      · obtain ⟨r, hr, hseq⟩ := hruns d hd
        exact ⟨r, hstarted.trans hr, hseq.trans (by rw [hother (.core d) (hne d.val hd)])⟩

end Sys2Proof.Machine
end

section
/-! RUN: the issue of an instruction that takes a handle, the launch block that it reads, and the programs that it starts (R276,
R308, R319). -/

namespace Sys2Proof.Machine
open Sys2Proof

/-! ### What an issue leaves for the instruction to read -/

/-- What reads no sequencer and no counter reads the same after an issue. -/
theorem apply_issued {α : Type} (f : State → α) (w : Issue) (s : State)
    (hf : ∀ q m, f { s with seqs := q, cnt := m } = f s) : f (issued w s) = f s := by
  obtain ⟨q, m, hissued⟩ := issued_seqs_cnt w s
  rw [hissued, hf]

theorem rdBad_issued (w : Issue) (s : State) (a n : Nat) : (issued w s).rdBad a n = s.rdBad a n :=
  apply_issued (·.rdBad a n) w s fun _ _ => rfl

theorem rdBytes_issued (w : Issue) (s : State) (a n : Nat) : (issued w s).rdBytes a n = s.rdBytes a n :=
  apply_issued (·.rdBytes a n) w s fun _ _ => rfl

theorem paused_issued (w : Issue) (s : State) : (issued w s).paused = s.paused :=
  apply_issued (·.paused) w s fun _ _ => rfl

theorem coreRefuses_issued (w : Issue) (s : State) (c : Nat) : (issued w s).coreRefuses c = s.coreRefuses c :=
  apply_issued (·.coreRefuses c) w s fun _ _ => rfl

theorem launches_issued (w : Issue) (s : State) : (issued w s).launches = s.launches :=
  apply_issued (·.launches) w s fun _ _ => rfl

theorem poisonOk_issued (w : Issue) (s : State) : poisonOk (issued w s) = poisonOk s :=
  apply_issued poisonOk w s fun _ _ => rfl

/-! ### The handle -/

/-- The lowest-numbered FREE handle is the one that an instruction takes (R276). -/
theorem Seq.freeHandle_of_lowest {q : Seq} {h : Nat} (hlt : h < 32) (hfree : q.getH h = .free)
    (hlow : ∀ i, i < h → q.getH i ≠ .free) : q.freeHandle = some h := by
  unfold Seq.freeHandle
  rw [List.find?_range_eq_some]
  exact ⟨decide_eq_true hfree, List.mem_range.mpr hlt, fun i hi => by simpa using hlow i hi⟩

/-- A tensor instruction with a FREE handle takes it (R276, R277). -/
theorem issueTensor_of_free {w : Issue} {h : Nat} {s : State} (hi : claimIssuesTensor w h s) (fd : SReg) (i : Instr)
    (f : Work → State → Work × State) :
    issueTensor w fd i none s f = .next (takeHandle w.u fd i f (issued w s)) := by
  obtain ⟨hissues, hpaused, hgated, hlt, hfree, hlow⟩ := hi
  have hhandle := Seq.freeHandle_of_lowest hlt hfree hlow
  unfold issueTensor
  rw [issueWhen_of_issues hissues, if_pos (by simp [hpaused, hgated, hhandle])]

/-- The state in which a taken handle is BUSY and its work stands in the issue order (R276, R291). -/
def State.withWork (s : State) (u : SeqId) (fd : SReg) (h : Nat) (k : Work) : State :=
  (s.onSeq u fun q =>
    { (q.setH h .busy).setS fd (BitVec.ofNat 64 h) with works := q.works ++ [k], nseq := q.nseq + 1 }).adv u

/-- The record with which an issue begins (R291). -/
def State.issuedWork (s : State) (u : SeqId) (h : Nat) (i : Instr) : Work := { newWork (s.seq u) h i with epoch := s.epoch }

theorem takeHandle_of_free {u : SeqId} {fd : SReg} {i : Instr} {f : Work → State → Work × State} {s : State} {h : Nat}
    (hfree : (s.seq u).freeHandle = some h) : takeHandle u fd i f s =
      let r := f (s.issuedWork u h i) s
      let x := r.2.raced u r.1
      x.2.withWork u fd h x.1 := by
  unfold takeHandle
  extract_lets q
  split
  · next hnone => exact absurd (hfree.symm.trans hnone) nofun
  · next g hsome =>
    obtain rfl : h = g := Option.some.inj (hfree.symm.trans hsome)
    rfl

/-- A work that no longer waits for its start notes no byte that it shares (R129). -/
theorem State.raced_of_begun (s : State) (u : SeqId) {k : Work} (h : k.status ≠ .queued) :
    s.raced u k = ({ k with skips := s.skipsAll k }, s) := by
  unfold State.raced
  exact if_pos (by simp [h])

/-- The issue of a work whose `f` has begun or ended it. -/
theorem takeHandle_of_begun {u : SeqId} {fd : SReg} {i : Instr} {f : Work → State → Work × State} {s t : State} {h : Nat}
    {k : Work} (hfree : (s.seq u).freeHandle = some h) (hf : f (s.issuedWork u h i) s = (k, t))
    (hbegun : k.status ≠ .queued) : takeHandle u fd i f s = t.withWork u fd h { k with skips := t.skipsAll k } := by
  rw [takeHandle_of_free hfree, hf]
  dsimp only
  rw [t.raced_of_begun u hbegun]

theorem State.seq_withWork_same (s : State) (u : SeqId) (fd : SReg) (h : Nat) (k : Work) :
    ((s.withWork u fd h k).seq u).getH h = .busy ∧ ((s.withWork u fd h k).seq u).pc = (s.seq u).pc + 1 ∧
    ((s.withWork u fd h k).seq u).getS fd = (if fd = 0 then 0 else BitVec.ofNat 64 h) ∧
    k ∈ ((s.withWork u fd h k).seq u).works := by
  unfold State.withWork
  rw [State.seq_adv_same, State.seq_onSeq_same]
  refine ⟨?_, congrArg (· + 1) (Seq.pc_setS _ _ _), Seq.getS_setS_same _ _ _,
    List.mem_append_right _ (List.mem_singleton_self k)⟩
  change SMap.get .free ((((s.seq u).setH h .busy).setS fd _).h) h = .busy
  rw [Seq.h_setS]
  exact SMap.get_put_same Handle.free .busy (s.seq u).h h

theorem State.seq_withWork_ne (s : State) {u v : SeqId} (hv : v ≠ u) (fd : SReg) (h : Nat) (k : Work) :
    (s.withWork u fd h k).seq v = s.seq v := by
  have hnum : v.num ≠ u.num := fun e => hv (SeqId.num_injective _ _ e)
  unfold State.withWork State.adv
  rw [State.seq_onSeq_ne _ _ _ _ hnum, State.seq_onSeq_ne _ _ _ _ hnum]

theorem State.byte_withWork (s : State) (u : SeqId) (fd : SReg) (h : Nat) (k : Work) (a : Nat) :
    (s.withWork u fd h k).byte a = s.byte a := by
  unfold State.withWork
  rw [State.byte_adv, State.byte_onSeq]

/-! ### The launch block -/

theorem withBlock_of_good {u : SeqId} {i n : Nat} {s : State} (hin : i + n ≤ storeWords u)
    (hgood : s.rdBad (storeBase u + 4 * i) (4 * n) = false) (k : Work) :
    withBlock u i n 1 k s = ({ k with block := s.rdBytes (storeBase u + 4 * i) (4 * n) }, s) := by
  unfold withBlock
  dsimp only
  rw [if_neg (by omega), hgood]
  rfl

theorem mem_launchCores {b : List Byte} {c : Nat} :
    c ∈ launchCores b ↔ c < 800 ∧ (blockField b 0x88 100).testBit c = true := by
  simp [launchCores]

theorem launchOk_of_limits {b : List Byte} (hentry : blockField b 0 4 < blockField b 4 4)
    (hlen : blockField b 4 4 ≤ 8192) (himage : blockField b 8 8 + 2 * blockField b 4 4 ≤ 16777216)
    (hnamed : ∃ c, c < 800 ∧ (blockField b 0x88 100).testBit c = true) : launchOk b = true := by
  obtain ⟨c, hc⟩ := hnamed
  have hcores : launchCores b ≠ [] := List.ne_nil_of_mem (mem_launchCores.mpr hc)
  simp [launchOk, hentry, hlen, himage, hcores]

/-- A RUN whose every core takes programs launches on all of them (R319). -/
theorem State.startRun_of_ready {s : State} {u : SeqId} {n : Fin 4} {k : Work} (hu : u = .cp n)
    (hok : launchOk k.block = true) (hready : ∀ c ∈ launchCores k.block, s.coreRefuses c = false) : s.startRun u k =
      ({ k with status := .running, left := launchCores k.block, acc := .ok },
        s.launchOn (.run n k.seq) k.block (s.seq u).stepNow (launchCores k.block)) := by
  subst hu
  have hoff : (launchCores k.block).filter s.coreRefuses = [] :=
    List.filter_eq_nil_iff.mpr fun c hc => by simp [hready c hc]
  have hon : ((launchCores k.block).filter fun c => !s.coreRefuses c) = launchCores k.block :=
    List.filter_eq_self.mpr fun c hc => by simp [hready c hc]
  have hsome : (launchCores k.block).isEmpty = false := by
    cases he : (launchCores k.block).isEmpty with
    | false => rfl
    | true => simp [launchOk, he] at hok
  unfold State.startRun
  simp [hok, hoff, hon, hsome]

/-- A fence holds no work back that every earlier work of it has passed (R308). -/
theorem State.mayStart_of_fence {s : State} {q : Seq} {k : Work} (hpaused : s.paused = false)
    (hfence : ∀ x ∈ q.works, k.fence ≤ x.seq) : s.mayStart q k = true := by
  unfold State.mayStart
  rw [hpaused, Bool.not_false, Bool.true_and, List.all_eq_true]
  exact fun x hx => by simp [hfence x hx]

/-- The work of a RUN that has read its block `b` and launched: it waits for the cores that the block names (R319). -/
def Work.launched (k : Work) (b : List Byte) (cores : List Nat) : Work :=
  { k with block := b, status := .running, left := cores, acc := .ok }

/-- What a RUN does with its record: it reads its block, and launches where no fence holds it (R308, R319). -/
def runBody (w : Issue) (a1 : AReg) (k : Work) (s : State) : Work × State :=
  let r := withBlock w.u ((s.seq w.u).getA a1).toNat 64 1 k s
  if r.1.status = .queued ∧ r.2.mayStart (s.seq w.u) r.1 then r.2.startRun w.u r.1 else r

theorem exec_run_eq (w : Issue) (fd : SReg) (a1 : AReg) (s : State) : exec (.run w fd a1) s =
    issueTensor w fd (.run w fd a1) (if w.u.isCp then none else some 0x81) s (runBody w a1) := rfl

section
variable {n : Fin 4} {w : Issue} {a1 : AReg} {s : State} {b : List Byte} {cores : List Nat} (hu : w.u = .cp n)
  (hb : s.rdBytes (storeBase w.u + 4 * ((s.seq w.u).getA a1).toNat) 256 = b) (hnames : launchCores b = cores)
  (hin : ((s.seq w.u).getA a1).toNat + 64 ≤ storeWords w.u)
  (hgood : s.rdBad (storeBase w.u + 4 * ((s.seq w.u).getA a1).toNat) 256 = false) (hok : launchOk b = true)
  (hready : ∀ c ∈ cores, s.coreRefuses c = false)
include hu hb hnames hin hgood hok hready

theorem runBody_of_ready {k : Work} (hpaused : s.paused = false) (hfence : ∀ x ∈ (s.seq w.u).works, k.fence ≤ x.seq)
    (hqueued : k.status = .queued) :
    runBody w a1 k s = (k.launched b cores, s.launchOn (.run n k.seq) b (s.seq w.u).stepNow cores) := by
  subst hnames
  have hread : withBlock w.u ((s.seq w.u).getA a1).toNat 64 1 k s = ({ k with block := b }, s) := by
    rw [withBlock_of_good hin hgood, hb]
  unfold runBody
  rw [hread]
  exact (if_pos ⟨hqueued, State.mayStart_of_fence hpaused hfence⟩).trans (State.startRun_of_ready hu hok hready)

/-- An accepted RUN that nothing holds back takes its handle and launches at its issue (R319). -/
theorem exec_run_of_ready {fd : SReg} {h : Nat} (hi : claimIssuesTensor w h s)
    (hfence : ∀ k ∈ (s.seq w.u).works, (s.seq w.u).fence ≤ k.seq) :
    ∃ k by_ step, exec (.run w fd a1) s = .next (((issued w s).launchOn by_ b step cores).withWork w.u fd h k) ∧
      k.seq = (s.seq w.u).nseq ∧ k.handle = h ∧ k.status = .running ∧ k.left = cores := by
  have hcp : w.u.isCp = true := hu ▸ rfl
  have hseq := seq_issued_same w s
  have ⟨_, hpaused, _, hlt, hfree, hlow⟩ := hi
  have hhandle : ((issued w s).seq w.u).freeHandle = some h :=
    hseq ▸ Seq.freeHandle_of_lowest (q := { s.seq w.u with run := .running }) hlt hfree hlow
  have haddr : ((issued w s).seq w.u).getA a1 = (s.seq w.u).getA a1 := by rw [hseq]; rfl
  have hbody := runBody_of_ready (a1 := a1) (s := issued w s) (k := (issued w s).issuedWork w.u h (.run w fd a1)) hu
    (by rw [haddr, rdBytes_issued, hb]) hnames (by rw [haddr]; exact hin) (by rw [haddr, rdBad_issued, hgood]) hok
    (fun c hc => (coreRefuses_issued w s c).trans (hready c hc)) ((paused_issued w s).trans hpaused)
    (by unfold State.issuedWork; rw [hseq]; exact hfence) rfl
  rw [exec_run_eq, if_pos hcp, issueTensor_of_free hi, takeHandle_of_begun hhandle hbody nofun]
  refine ⟨_, _, _, rfl, ?_, rfl, rfl, rfl⟩
  change ((issued w s).seq w.u).nseq = _
  rw [hseq]

end

/-! ### The programs -/

/-- The registers of a launch are those of its block from 0x10 on (R319). -/
theorem regs_launchOf (by_ : Launcher) (b : List Byte) (step : Word) (c : Nat) {k : Nat} (hk : k < 15) :
    (launchOf by_ b step c).regs.getD k 0 = BitVec.ofNat 64 (blockField b (0x10 + 8 * k) 8) := by
  simp [launchOf, hk]

theorem getS_loaded_launchOf (s : State) (by_ : Launcher) (b : List Byte) (step : Word) (c : Nat) (q : Seq) (r : SReg) :
    (s.loaded (launchOf by_ b step c) q).getS r =
      if r = 0 ∨ 15 < r.toNat then 0 else BitVec.ofNat 64 (blockField b (8 + 8 * r.toNat) 8) := by
  refine (Seq.getS_started _ _ _ _ _ r).trans ?_
  split
  · rfl
  · next hr =>
    obtain ⟨hzero, hhigh⟩ := not_or.mp hr
    have hpos : r.toNat ≠ 0 := fun h => hzero (BitVec.eq_of_toNat_eq h)
    rw [regs_launchOf by_ b step c (by omega), show 0x10 + 8 * (r.toNat - 1) = 8 + 8 * r.toNat by omega]

/-- Settles O19: the RUN takes its handle, each core that its block names runs the image from memory, and every other core and
every byte is as it was. -/
theorem runLaunches : Obligations.RunLaunches := by
  unfold Obligations.RunLaunches
  intro n w fd a1 s h hu hi hpoison q i b entry len image named hin hgood hentry _ hlen himage hnamed hfence hnone hcores
  have hbase : storeBase w.u = 0x3000_0000_0000 := by rw [hu]; rfl
  have hwords : storeWords w.u = 16777216 := by rw [hu]; rfl
  have hmem (c : Nat) : c ∈ launchCores b ↔ named c := mem_launchCores
  have hlt (c : Nat) (hc : c ∈ launchCores b) : c < 800 := (mem_launchCores.mp hc).1
  have hother (c : Fin 800) : SeqId.core c ≠ w.u := by rw [hu]; exact nofun
  obtain ⟨k, by_, step, hexec, hseq, hhandle, hstatus, hleft⟩ := exec_run_of_ready (fd := fd) (b := b) hu
    (by rw [hbase]) rfl (by rw [hwords]; exact hin) (by rw [hbase]; exact hgood)
    (launchOk_of_limits hentry hlen himage hnamed) (fun c hc => (hcores ⟨c, hlt c hc⟩ ((hmem c).mp hc)).1) hi hfence
  obtain ⟨honly, hkept, hruns⟩ := State.launchOn_spec (by_ := by_) (b := b) (step := step) (cores := launchCores b)
    ((launches_issued w s).trans hnone) (List.nodup_range.filter _) hlt fun c hc =>
      (congrArg Seq.run (seq_issued_ne (hother c) s)).trans (hcores c ((hmem c.val).mp hc)).2
  have hunit : w.u.num ∉ launchCores b := fun hc => by
    have hhigh : 0x3FC ≤ w.u.num := by rw [hu]; exact Nat.le_add_right _ _
    have := hlt _ hc
    omega
  have hown := hkept w.u hunit
  obtain ⟨hbusy, hpc, hs, hwork⟩ :=
    State.seq_withWork_same ((issued w s).launchOn by_ b step (launchCores b)) w.u fd h k
  refine ⟨_, hexec, hbusy, ?_, hs, ⟨k, hwork, hseq, hhandle, hstatus, fun c => ?_⟩, fun c hc => ?_, fun c hc => ?_,
    fun a => ?_⟩
  · rw [hpc, hown, seq_issued_same]
  · rw [hleft]
    exact hmem c
  · obtain ⟨r, hr, hrun⟩ := hruns c ((hmem c.val).mpr hc)
    rw [State.seq_withWork_ne _ (hother c), hrun]
    refine ⟨rfl, rfl, getS_loaded_launchOf r by_ b step c.val _, fun _ => rfl, fun _ => rfl, fun _ => rfl,
      Seq.getP_started _ _ _ _ _, fun x hx => ?_⟩
    rw [State.istore_loaded r _ _ hx]
    refine congrArg (BitVec.ofNat 64) (State.rdLE_sram hpoison (hr.poisonOk ((poisonOk_issued w s).trans hpoison))
      (fun a => (hr.byte a).trans (byte_issued w s a)) ?_ ?_)
    · exact (Nat.le_add_right _ _).trans (Nat.le_add_right _ _)
    · change 0x3000_0000_0000 + 4 * image + 8 * x + 8 ≤ 0x3000_0000_0000 + 0x400_0000
      omega
  · rw [State.seq_withWork_ne _ (hother c), hkept (.core c) fun hin => hc ((hmem c.val).mp hin), seq_issued_ne (hother c)]
  · rw [State.byte_withWork, honly.byte, byte_issued]

end Sys2Proof.Machine
end

section
/-! The fields of a register: what a stored field reads as, which fields it leaves alone, and that a 64-bit write of a register
without a bit named RSVD stores its writable fields (R10 to R12). -/

namespace Sys2Proof.Machine
open Sys2Proof

/-! ### Fields of a word -/

theorem getLsbD_setBits {hi lo : Nat} (hle : lo ≤ hi) (v : Word) (x i : Nat) : (setBits hi lo v x).getLsbD i =
    (decide (i < 64) && if lo ≤ i ∧ i ≤ hi then x.testBit (i - lo) else v.getLsbD i) := by
  have hmask : ((2 ^ (hi + 1 - lo) - 1) <<< lo).testBit i = decide (lo ≤ i ∧ i ≤ hi) := by
    rw [Nat.testBit_shiftLeft, Nat.testBit_two_pow_sub_one, ← Bool.decide_and]
    exact decide_eq_decide.mpr (by omega)
  have hfield : ((x % 2 ^ (hi + 1 - lo)) <<< lo).testBit i = (decide (lo ≤ i ∧ i ≤ hi) && x.testBit (i - lo)) := by
    rw [Nat.testBit_shiftLeft, Nat.testBit_mod_two_pow, ← Bool.and_assoc, ← Bool.decide_and]
    exact congrArg (· && _) (decide_eq_decide.mpr (by omega))
  unfold setBits
  simp only [BitVec.getLsbD_or, BitVec.getLsbD_and, BitVec.getLsbD_not, BitVec.getLsbD_ofNat, hmask, hfield]
  by_cases hi64 : i < 64
  · by_cases hin : lo ≤ i ∧ i ≤ hi <;> simp [hi64, hin]
  · simp [hi64]

theorem testBit_bits (hi lo : Nat) (v : Word) (i : Nat) :
    (bits hi lo v).testBit i = (decide (lo + i ≤ hi) && v.getLsbD (lo + i)) := by
  unfold bits
  rw [Nat.testBit_mod_two_pow, Nat.testBit_shiftRight]
  exact congrArg₂ _ (decide_eq_decide.mpr (by omega)) rfl

/-- A stored field reads as what was stored, cut to the field's width. -/
theorem bits_setBits_same {hi lo : Nat} (hle : lo ≤ hi) (hhi : hi < 64) (v : Word) (x : Nat) :
    bits hi lo (setBits hi lo v x) = x % 2 ^ (hi + 1 - lo) := by
  refine Nat.eq_of_testBit_eq fun i => ?_
  rw [testBit_bits, getLsbD_setBits hle, Nat.testBit_mod_two_pow]
  by_cases hi' : lo + i ≤ hi
  · have h64 : lo + i < 64 := by omega
    have hlt : i < hi + 1 - lo := by omega
    simp [hi', h64, hlt]
  · have hlt : ¬i < hi + 1 - lo := by omega
    simp [hi', hlt]

/-- A stored field leaves every field beside it alone. -/
theorem bits_setBits_apart {hi lo h l : Nat} (hle : lo ≤ hi) (hapart : h < lo ∨ hi < l) (hh : h < 64) (v : Word) (x : Nat) :
    bits h l (setBits hi lo v x) = bits h l v := by
  refine Nat.eq_of_testBit_eq fun i => ?_
  rw [testBit_bits, testBit_bits, getLsbD_setBits hle]
  by_cases hi' : l + i ≤ h
  · have h64 : l + i < 64 := by omega
    have hout : ¬(lo ≤ l + i ∧ l + i ≤ hi) := by omega
    simp [hi', h64, hout]
  · simp [hi']

theorem bits_low (v : Word) : bits 31 0 v = (v.setWidth 32).toNat := by
  simp [bits]

theorem bits_bit (b : Nat) (v : Word) : bits b b v = (v.getLsbD b).toNat := by
  unfold bits
  rw [Nat.add_sub_cancel_left, Nat.pow_one, Nat.shiftRight_eq_div_pow]
  exact (Nat.toNat_testBit _ _).symm

/-! ### Fields of a stored register -/

theorem State.fld_setFld_same (s : State) (off : Nat) {hi lo : Nat} (hle : lo ≤ hi) (hhi : hi < 64) (x : Nat) :
    (s.setFld off hi lo x).fld off hi lo = x % 2 ^ (hi + 1 - lo) := by
  unfold State.fld
  rw [State.reg_setFld_same, bits_setBits_same hle hhi]

theorem State.fld_setFld_apart (s : State) (off : Nat) {hi lo h l : Nat} (hle : lo ≤ hi) (hapart : h < lo ∨ hi < l)
    (hh : h < 64) (x : Nat) : (s.setFld off hi lo x).fld off h l = s.fld off h l := by
  unfold State.fld
  rw [State.reg_setFld_same, bits_setBits_apart hle hapart hh]

theorem State.fld_of_reg {s t : State} {off : Nat} (h : t.reg off = s.reg off) (hi lo : Nat) :
    t.fld off hi lo = s.fld off hi lo := congrArg (bits hi lo) h

theorem State.bit_of_reg {s t : State} {off : Nat} (h : t.reg off = s.reg off) (b : Nat) : t.bit off b = s.bit off b :=
  congrArg (· == 1) (State.fld_of_reg h b b)

/-! ### A 64-bit write (R10 to R12) -/

/-- Where no written bit is named RSVD, a register that is no counter takes the write field by field. -/
theorem State.storeReg_of_fields (s : State) {off : Nat} {v : Word} {fs : List FieldDef}
    (hfs : (findReg off).map (·.1.fields) = some fs) (hcnt : fs.any (fun f => f.acc == .rc) = false)
    (hrsvd : rsvdBits off v = 0) : s.storeReg off v allOnes =
      s.setReg off (fs.foldl (fun new f => FieldDef.store f (s.reg off) v allOnes new) (s.reg off)) := by
  have hall : v &&& allOnes = v := BitVec.and_allOnes
  obtain ⟨⟨r, ix⟩, hfind, hr⟩ := Option.map_eq_some_iff.mp hfs
  subst hr
  unfold rsvdBits at hrsvd
  rw [hfind] at hrsvd
  unfold State.storeReg
  rw [hfind]
  dsimp only at hrsvd ⊢
  rw [hall, if_neg (not_not.mpr hrsvd), if_neg (by unfold RegDef.isCnt; rw [hcnt]; exact Bool.false_ne_true)]

theorem FieldDef.store_rw {f : FieldDef} (hrw : f.acc = .rw) (old v new : Word) :
    FieldDef.store f old v allOnes new = setBits f.hi f.lo new (bits f.hi f.lo v) := by
  have hall : old &&& ~~~allOnes ||| v &&& allOnes = v := by
    have hone : allOnes = BitVec.allOnes 64 := rfl
    rw [hone, BitVec.not_allOnes, BitVec.and_zero, BitVec.zero_or, BitVec.and_allOnes]
  unfold FieldDef.store
  rw [hrw, hall]

/-- A field takes the written bits alone. -/
theorem FieldDef.bits_store_apart {f : FieldDef} {h l : Nat} (hle : f.lo ≤ f.hi) (hapart : f.hi < l) (hh : h < 64)
    (old v mask new : Word) : bits h l (FieldDef.store f old v mask new) = bits h l new := by
  unfold FieldDef.store
  split
  · exact bits_setBits_apart hle (.inr hapart) hh _ _
  · exact bits_setBits_apart hle (.inr hapart) hh _ _
  · exact bits_setBits_apart hle (.inr hapart) hh _ _
  all_goals rfl

/-- A writable field that stands above the other fields of its register holds the written bits. -/
theorem State.fld_storeReg_top (s : State) {off : Nat} {v : Word} {f : FieldDef} {fs : List FieldDef}
    (hfs : (findReg off).map (·.1.fields) = some (f :: fs)) (hcnt : (f :: fs).any (fun f => f.acc == .rc) = false)
    (hrsvd : rsvdBits off v = 0) (hrw : f.acc = .rw) (hle : f.lo ≤ f.hi) (hhi : f.hi < 64)
    (hbelow : ∀ g ∈ fs, g.lo ≤ g.hi ∧ g.hi < f.lo) :
    (s.storeReg off v allOnes).fld off f.hi f.lo = bits f.hi f.lo v := by
  unfold State.fld
  rw [s.storeReg_of_fields hfs hcnt hrsvd, State.reg_setReg_same, List.foldl_cons]
  refine List.foldlRecOn (motive := fun w => bits f.hi f.lo w = bits f.hi f.lo v) _ _ ?_ fun w hw g hg => ?_
  · rw [FieldDef.store_rw hrw, bits_setBits_same hle hhi]
    exact Nat.mod_eq_of_lt (bits_lt _ _ _)
  · obtain ⟨hgle, hglt⟩ := hbelow g hg
    rw [FieldDef.bits_store_apart hgle hglt hhi, hw]

end Sys2Proof.Machine
end

section
/-! Submission doorbells and the ring registers: tails and heads that are accepted, ignored or stop a queue, and what the
configuration writes leave (R322 to R324, R331, R333). -/

namespace Sys2Proof.Machine
open Sys2Proof

/-! ### Distances and stopped queues -/

theorem dist32_toNat (a : BitVec 32) (w : Word) : dist32 a.toNat (bits 31 0 w) = (a - w.setWidth 32).toInt := by
  unfold dist32
  rw [bits_low, BitVec.ofNat_toNat, BitVec.ofNat_toNat, BitVec.setWidth_eq, BitVec.setWidth_eq]

theorem State.stopQueue_regs (s : State) (q reason : Nat) : s.stopQueue q reason = { s with regs := (s.stopQueue q reason).regs } := by
  unfold State.stopQueue
  dsimp only
  split <;> rfl

theorem State.reg_stopQueue_ne (s : State) (q reason : Nat) {o : Nat} (h : o ≠ Reg.ctlSqStat q) :
    (s.stopQueue q reason).reg o = s.reg o := by
  unfold State.stopQueue
  dsimp only
  split
  · rfl
  · rw [State.reg_setFld_ne _ _ _ _ _ _ h, State.reg_setFld_ne _ _ _ _ _ _ h]

/-- A queue stops with the reason given, where it is not stopped already. -/
theorem State.stopQueue_stops (s : State) {q reason : Nat} (hrun : s.bit (Reg.ctlSqStat q) 63 = false) :
    (s.stopQueue q reason).bit (Reg.ctlSqStat q) 63 = true ∧
    (s.stopQueue q reason).fld (Reg.ctlSqStat q) 55 48 = reason % 256 := by
  unfold State.stopQueue
  rw [if_neg (by simp [hrun])]
  refine ⟨?_, ?_⟩
  · unfold State.bit
    rw [State.fld_setFld_same _ _ le_rfl (by decide)]
    rfl
  · rw [State.fld_setFld_apart _ _ le_rfl (.inl (by decide)) (by decide), State.fld_setFld_same _ _ (by decide) (by decide)]
    rfl

/-! ### Doorbells (R323, R324) -/

/-- Settles O35: R323 tells three cases apart, by the tail's distances from the head and from the last tail. -/
theorem doorbellRules : Obligations.DoorbellRules := by
  intro q tl s hup
  extract_lets head old n
  have hexec : exec (.sqDoorbell q tl) s =
      if (tl - head).toInt ≤ 0 ∨ (tl - old).toInt < 0 then .next (s.bump Reg.ctlRingErrCnt 1)
      else if (n : Int) < (tl - head).toInt then .next ((s.stopQueue q.val 1).bump Reg.ctlRingErrCnt 1)
      else .next (s.setFld (Reg.ctlSqDoorbell q.val) 31 0 tl.toNat) := by
    change execSqDoorbell q tl s = _
    unfold execSqDoorbell State.sqHead State.sqTail State.fld
    rw [dist32_toNat, dist32_toNat, hup]
    rfl
  rw [hexec]
  refine ⟨fun hhead hold hn => ?_, fun hback => if_pos hback, fun hhead hold hn hrun => ?_⟩
  · rw [if_neg (by omega), if_neg (by omega)]
    refine ⟨_, rfl, ?_, fun o ho => State.reg_setFld_ne _ _ _ _ _ _ ho, rfl⟩
    refine BitVec.eq_of_toNat_eq ?_
    rw [← bits_low, State.reg_setFld_same, bits_setBits_same (by decide) (by decide)]
    exact Nat.mod_eq_of_lt tl.isLt
  · rw [if_neg (by omega), if_pos hn]
    obtain ⟨hstop, hreason⟩ := s.stopQueue_stops (reason := 1) hrun
    refine ⟨_, rfl, hstop, hreason, ?_, ?_⟩
    · exact s.reg_stopQueue_ne _ _ (by unfold Reg.ctlSqDoorbell Reg.ctlSqStat; omega)
    · rw [State.count_bump_same, s.stopQueue_regs]
      rfl

/-! ### Ring registers (R331, R333) -/

theorem fields_ctlCqHead : ∀ q : Fin 64, (findReg (Reg.ctlCqHead q.val)).map (·.1.fields) = some [⟨31, 0, .rw, 0, false⟩] := by
  decide +kernel

theorem fields_ctlSqCfg : ∀ q : Fin 64, (findReg (Reg.ctlSqCfg q.val)).map (·.1.fields) =
    some [⟨63, 63, .rw, 0, false⟩, ⟨55, 48, .rw, 0, true⟩, ⟨47, 12, .rw, 0, false⟩, ⟨4, 0, .rw, 0x4, false⟩] := by
  decide +kernel

theorem fields_ctlCqCfg : ∀ q : Fin 64, (findReg (Reg.ctlCqCfg q.val)).map (·.1.fields) =
    some [⟨63, 63, .rw, 0, false⟩, ⟨58, 48, .rw, 0, true⟩, ⟨47, 12, .rw, 0, false⟩, ⟨11, 8, .rw, 0, false⟩,
      ⟨4, 0, .rw, 0x4, false⟩] := by
  decide +kernel

/-- A 64-bit write of a register with the fields `fs` and no bit named RSVD stores that register alone. -/
theorem State.storeReg_only (s : State) {off : Nat} {v : Word} {fs : List FieldDef}
    (hfs : (findReg off).map (·.1.fields) = some fs) (hcnt : fs.any (fun f => f.acc == .rc) = false)
    (hrsvd : rsvdBits off v = 0) : s.storeReg off v allOnes = { s with regs := (s.storeReg off v allOnes).regs } ∧
      ∀ o, o ≠ off → (s.storeReg off v allOnes).reg o = s.reg o := by
  rw [s.storeReg_of_fields hfs hcnt hrsvd]
  exact ⟨rfl, fun o ho => s.reg_setReg_ne _ _ _ ho⟩

theorem writeReg_of_named {off : Nat} {v : Word} (hrsvd : rsvdBits off v = 0) (s : State) (act : Word → State → Out) :
    writeReg off v s act = act v s := if_pos hrsvd

theorem exec_cqHeadWrite {q : Fin 64} {v : Word} {s : State} (hup : s.domUp 4 = true)
    (hrsvd : rsvdBits (Reg.ctlCqHead q.val) v = 0) : exec (.cqHeadWrite q v) s =
      if 0 < (v.setWidth 32 - (s.reg (Reg.ctlCqTail q.val)).setWidth 32).toInt then .next (s.bump Reg.ctlRingErrCnt 1)
      else .next (s.storeReg (Reg.ctlCqHead q.val) v allOnes) := by
  change execCqHeadWrite q v s = _
  unfold execCqHeadWrite
  rw [hup, writeReg_of_named hrsvd, ← dist32_toNat, bits_low]
  rfl

theorem exec_sqCfgWrite {q : Fin 64} {v : Word} {s : State} (hup : s.domUp 4 = true)
    (hrsvd : rsvdBits (Reg.ctlSqCfg q.val) v = 0) : exec (.sqCfgWrite q v) s =
      if v.getLsbD 63 = true then .next (((s.storeReg (Reg.ctlSqCfg q.val) v allOnes).setFld
        (Reg.ctlSqStat q.val) 63 63 0).setFld (Reg.ctlSqStat q.val) 55 48 0)
      else .next (s.storeReg (Reg.ctlSqCfg q.val) v allOnes) := by
  change execSqCfgWrite q v s = _
  unfold execSqCfgWrite
  rw [hup, writeReg_of_named hrsvd, bits_bit]
  cases v.getLsbD 63 <;> rfl

/-- Every submission ring directed into a completion ring stops with REASON 3 (R333). -/
def State.stopInto (s : State) (cq : Nat) : State :=
  forUpto 64 (fun i s => if s.sqCq i = cq then s.stopQueue i 3 else s) s

theorem exec_cqCfgWrite {q : Fin 64} {v : Word} {s : State} (hup : s.domUp 4 = true)
    (hrsvd : rsvdBits (Reg.ctlCqCfg q.val) v = 0) : exec (.cqCfgWrite q v) s =
      if (s.cqOn q.val && !(s.storeReg (Reg.ctlCqCfg q.val) v allOnes).cqOn q.val) = true then
        .next ((s.storeReg (Reg.ctlCqCfg q.val) v allOnes).stopInto q.val)
      else .next (s.storeReg (Reg.ctlCqCfg q.val) v allOnes) := by
  change execCqCfgWrite q v s = _
  unfold execCqCfgWrite
  rw [hup, writeReg_of_named hrsvd]
  rfl

/-- Only status registers change, and each directed ring that ran has stopped with REASON 3. -/
theorem State.stopInto_spec (s : State) (cq : Nat) :
    (∀ o, (∀ i, o ≠ Reg.ctlSqStat i) → (s.stopInto cq).reg o = s.reg o) ∧
    ∀ i, i < 64 → s.sqCq i = cq → s.bit (Reg.ctlSqStat i) 63 = false →
      (s.stopInto cq).bit (Reg.ctlSqStat i) 63 = true ∧ (s.stopInto cq).fld (Reg.ctlSqStat i) 55 48 = 3 := by
  have hstat {i k : Nat} (h : i ≠ k) : Reg.ctlSqStat i ≠ Reg.ctlSqStat k := by unfold Reg.ctlSqStat; omega
  have hloop := forUpto_induction (n := 64) (a := s) (f := fun i s => if s.sqCq i = cq then s.stopQueue i 3 else s)
    (P := fun k (t : State) => (∀ o, (∀ i, i < k → o ≠ Reg.ctlSqStat i) → t.reg o = s.reg o) ∧
      ∀ i, i < k → s.sqCq i = cq → s.bit (Reg.ctlSqStat i) 63 = false →
        t.bit (Reg.ctlSqStat i) 63 = true ∧ t.fld (Reg.ctlSqStat i) 55 48 = 3)
    ⟨fun _ _ => rfl, fun i hi => absurd hi i.not_lt_zero⟩ ?_
  · obtain ⟨hkept, hstops⟩ := hloop
    exact ⟨fun o ho => hkept o fun i _ => ho i, hstops⟩
  · rintro k - t ⟨hkept, hstops⟩
    have hcq : t.sqCq k = s.sqCq k :=
      State.fld_of_reg (hkept _ fun i _ => by unfold Reg.ctlSqCfg Reg.ctlSqStat; omega) 55 48
    have hnew : t.reg (Reg.ctlSqStat k) = s.reg (Reg.ctlSqStat k) := hkept _ fun i hi => hstat (by omega)
    have hframe {o : Nat} (ho : o ≠ Reg.ctlSqStat k) :
        (if t.sqCq k = cq then t.stopQueue k 3 else t).reg o = t.reg o := by
      split
      · exact t.reg_stopQueue_ne k 3 ho
      · rfl
    refine ⟨fun o ho => (hframe (ho k k.lt_succ_self)).trans (hkept o fun i hi => ho i (by omega)), fun i hi hdir hrun => ?_⟩
    by_cases hik : i = k
    · subst hik
      rw [if_pos (hcq.trans hdir)]
      exact t.stopQueue_stops ((State.bit_of_reg hnew 63).trans hrun)
    · obtain ⟨hbit, hfld⟩ := hstops i (by omega) hdir hrun
      exact ⟨(State.bit_of_reg (hframe (hstat hik)) 63).trans hbit,
        (State.fld_of_reg (hframe (hstat hik)) 55 48).trans hfld⟩

/-- Settles O40: each register takes a write of its named bits, and the actions of R331 and R333 follow. -/
theorem ringRegisters : Obligations.RingRegisters := by
  intro q v s hup
  extract_lets tail s1
  refine ⟨fun hrsvd => ?_, fun hrsvd => ?_, fun hrsvd => ?_⟩
  · have hfs := fields_ctlCqHead q
    obtain ⟨honly, hkept⟩ := s.storeReg_only hfs rfl hrsvd
    rw [exec_cqHeadWrite hup hrsvd]
    refine ⟨fun hpast => if_pos hpast, fun hin => ?_⟩
    rw [if_neg (not_lt.mpr hin)]
    refine ⟨_, rfl, ?_, honly, hkept⟩
    exact (s.fld_storeReg_top hfs rfl hrsvd rfl (by decide) (by decide) (by simp)).trans (bits_low v)
  · have hfs := fields_ctlSqCfg q
    obtain ⟨honly, hkept⟩ := s.storeReg_only hfs rfl hrsvd
    have hcfg : Reg.ctlSqCfg q.val ≠ Reg.ctlSqStat q.val := by unfold Reg.ctlSqCfg Reg.ctlSqStat; omega
    have htop : (s.storeReg (Reg.ctlSqCfg q.val) v allOnes).fld (Reg.ctlSqCfg q.val) 63 63 = bits 63 63 v :=
      s.fld_storeReg_top hfs rfl hrsvd rfl le_rfl (by decide) (by simp)
    rw [exec_sqCfgWrite hup hrsvd]
    refine ⟨fun hen => ?_, fun hen => if_neg (Bool.eq_false_iff.mp hen)⟩
    rw [if_pos hen]
    refine ⟨_, rfl, ?_, ?_, ?_, ?_⟩
    · unfold State.bit
      rw [State.fld_setFld_apart _ _ (by decide) (.inr (by decide)) (by decide), State.fld_setFld_same _ _ le_rfl (by decide)]
      rfl
    · exact State.fld_setFld_same _ _ (by decide) (by decide) 0
    · rw [State.fld_setFld_apart _ _ (by decide) (.inl (by decide)) (by decide),
        State.fld_setFld_apart _ _ le_rfl (.inl (by decide)) (by decide)]
      exact State.fld_of_reg (hkept _ hcfg.symm) 31 0
    · rw [State.bit_of_reg (State.reg_setFld_ne _ _ _ _ _ _ hcfg), State.bit_of_reg (State.reg_setFld_ne _ _ _ _ _ _ hcfg)]
      unfold State.bit
      rw [htop, bits_bit, hen]
      rfl
  · have hfs := fields_ctlCqCfg q
    obtain ⟨honly, hkept⟩ := s.storeReg_only hfs rfl hrsvd
    rw [exec_cqCfgWrite hup hrsvd]
    refine ⟨fun hstay => if_neg ?_, fun hoff hon => ?_⟩
    · rcases hstay with h | h <;> simp [s1, h]
    · rw [if_pos (by simp [s1, hoff, hon])]
      obtain ⟨hregs, hstops⟩ := s1.stopInto_spec q.val
      refine ⟨_, rfl, ?_, fun i hi hdir hrun => hstops i hi ?_ ?_⟩
      · rw [← hoff]
        exact congrArg (decide (q.val < 64) && ·)
          (State.bit_of_reg (hregs _ fun i => by unfold Reg.ctlCqCfg Reg.ctlSqStat; omega) 63)
      · exact (State.fld_of_reg (hkept _ (by unfold Reg.ctlCqCfg Reg.ctlSqCfg; omega)) 55 48).trans hdir
      · exact (State.bit_of_reg (hkept _ (by unfold Reg.ctlCqCfg Reg.ctlSqStat; omega)) 63).trans hrun

end Sys2Proof.Machine
end

section
/-! What leaves the fetched commands alone: registers, counts, events, messages, accesses to memory here and at peers, a commit,
and what the exchange unit does as a queue is cancelled. -/

namespace Sys2Proof.Machine
open Sys2Proof

/-- `t` differs from `s` in no fetched command. -/
def KeepsCmds (s t : State) : Prop := t.cmds = s.cmds

namespace KeepsCmds
variable {s t u : State} {α β : Type}

theorem refl (s : State) : KeepsCmds s s := rfl

theorem trans (h : KeepsCmds s t) (h' : KeepsCmds t u) : KeepsCmds s u := Eq.trans h' h

theorem iteOf (f : α → State) {p : Prop} {_ : Decidable p} {a b : α} (ha : KeepsCmds s (f a)) (hb : KeepsCmds s (f b)) :
    KeepsCmds s (f (if p then a else b)) := by
  split <;> assumption

theorem ite {p : Prop} {_ : Decidable p} (ht : KeepsCmds s t) (hu : KeepsCmds s u) : KeepsCmds s (if p then t else u) :=
  iteOf id ht hu

theorem foldlOf (f : β → State) {g : β → α → β} {l : List α} {r : β} (h : KeepsCmds s (f r))
    (hg : ∀ r x, KeepsCmds s (f r) → KeepsCmds s (f (g r x))) : KeepsCmds s (f (l.foldl g r)) :=
  List.foldlRecOn (motive := fun r => KeepsCmds s (f r)) _ _ h fun r hr x _ => hg r x hr

theorem foldl {g : State → α → State} {l : List α} (h : KeepsCmds s t)
    (hg : ∀ t x, KeepsCmds s t → KeepsCmds s (g t x)) : KeepsCmds s (l.foldl g t) := foldlOf id h hg

/-- What a match on a result says of the state that the result carries. -/
theorem of_eq (f : α → State) {p q : α} (e : p = q) (h : KeepsCmds s (f p)) : KeepsCmds s (f q) := e ▸ h

/-! ### Registers, counts, events and messages -/

theorem recordFirst (h : KeepsCmds s t) {off : Nat} {v : Word} : KeepsCmds s (t.recordFirst off v) := .ite h h

theorem msix (h : KeepsCmds s t) {v : Nat} : KeepsCmds s (t.msix v) := .ite h (.ite h h)

theorem event (h : KeepsCmds s t) {b : Nat} : KeepsCmds s (t.event b) :=
  have hset : KeepsCmds s (t.setFld Reg.mgtEvent b b 1) := h
  .ite h (.ite hset.msix hset)

theorem of_onlyLinks (h : KeepsCmds s t) (ho : OnlyLinks t u) : KeepsCmds s u := by
  obtain ⟨ls, o, rfl⟩ := ho
  exact h

theorem pump (h : KeepsCmds s t) {l : Nat} : KeepsCmds s (t.pump l) := h.of_onlyLinks (OnlyLinks.refl t).pump

theorem sendPkt (h : KeepsCmds s t) {l d kind vc tag addr : Nat} {body : List Byte} :
    KeepsCmds s (t.sendPkt l d kind vc tag addr body) := h.of_onlyLinks (OnlyLinks.refl t).sendPkt

theorem sendManage (h : KeepsCmds s t) {l d : Nat} {body : List Byte} : KeepsCmds s (t.sendManage l d body) :=
  h.foldl fun _ _ ht => ht.sendPkt

theorem notify (h : KeepsCmds s t) {d : Nat} {kind : String} {body : List Nat} : KeepsCmds s (t.notify d kind body) := by
  have hsent : KeepsCmds s (t.send (.notice d kind body)) := h
  unfold State.notify
  dsimp only
  split
  · exact hsent
  · exact .ite hsent hsent.sendManage

/-! ### Accesses to memory -/

theorem noteUncorr (h : KeepsCmds s t) {a : Nat} : KeepsCmds s (t.noteUncorr a) := by
  have hbump (off : Nat) : KeepsCmds s (t.bump off 1) := h
  unfold State.noteUncorr
  refine .ite h ?_
  split
  · exact (hbump _).recordFirst.event
  · exact (hbump _).recordFirst.event
  · exact (hbump _).event
  · exact h

theorem noteRead (h : KeepsCmds s t) {a n : Nat} : KeepsCmds s (t.noteRead a n) := by
  unfold State.noteRead
  split
  · exact .ite h h
  · exact trans (h.foldl fun _ _ ht => ht.noteUncorr) rfl

theorem noteAccessFail (h : KeepsCmds s t) {a : Nat} : KeepsCmds s (t.noteAccessFail a) := by
  unfold State.noteAccessFail
  split
  · exact .ite h h
  · exact .ite h h
  · exact h

theorem putBytes (h : KeepsCmds s t) {a : Nat} {bs : List Byte} : KeepsCmds s (t.putBytes a bs) := by
  obtain ⟨m, hm⟩ := t.putBytes_mem a bs
  rw [hm]
  exact h

theorem wrQuiet (h : KeepsCmds s t) {a : Nat} {bs : List Byte} : KeepsCmds s (t.wrQuiet a bs) := h.putBytes (a := a) (bs := bs)

theorem withErrors (h : KeepsCmds s t) {p f : List Nat} : KeepsCmds s { t with poison := p, fresh := f } := h

theorem wr (h : KeepsCmds s t) {a : Nat} {bs : List Byte} : KeepsCmds s (t.wr a bs) := by
  unfold State.wr
  dsimp only
  split
  · exact h.putBytes
  · exact h.putBytes.withErrors.foldl fun _ _ ht => ht.noteUncorr

theorem wrLE (h : KeepsCmds s t) {a n v : Nat} : KeepsCmds s (t.wrLE a n v) := h.wr

theorem putBits (h : KeepsCmds s t) {a n v : Nat} : KeepsCmds s (t.putBits a n v) := by
  unfold State.putBits
  exact .ite h.putBytes (h.putBytes (bs := [_]))

theorem wrElems (h : KeepsCmds s t) {ws : List ElemWrite} : KeepsCmds s (t.wrElems ws) := by
  have hput : KeepsCmds s (ws.foldl (fun s (a, n, v) => s.putBits a n v) t) := h.foldl fun _ _ ht => ht.putBits
  unfold State.wrElems
  dsimp only
  split
  · exact hput
  · exact hput.withErrors.foldl fun _ _ ht => ht.noteUncorr

/-! ### Peers and job virtual addresses -/

theorem linkTo (h : KeepsCmds s t) {d a : Nat} : KeepsCmds s (t.linkTo d a).1 := by
  unfold State.linkTo
  refine .iteOf Prod.fst h ?_
  split <;> exact h

theorem peerWrite (h : KeepsCmds s t) {d a : Nat} {bs : List Byte} : KeepsCmds s (t.peerWrite d a bs).1 := by
  have hsend : KeepsCmds s (t.peerSend d a bs none).1 := by
    unfold State.peerSend
    refine .foldlOf Prod.fst h fun r _ hr => .iteOf Prod.fst hr ?_
    split
    next hl =>
      have ht := KeepsCmds.of_eq Prod.fst hl hr.linkTo
      exact ht
    next hl => exact (KeepsCmds.of_eq Prod.fst hl hr.linkTo).sendPkt
  unfold State.peerWrite
  split
  all_goals
    next hl =>
      have ht := KeepsCmds.of_eq Prod.fst hl hsend
      exact ht

theorem noteXlat (h : KeepsCmds s t) {root : Word} {va eng : Nat} {rd wr : Bool} :
    KeepsCmds s (t.noteXlat root va eng rd wr) := by
  unfold State.noteXlat State.noteLeaf State.noteWalk
  refine .ite h ?_
  split
  · exact .ite h h.noteAccessFail
  · split
    · split
      · exact h.noteUncorr
      · exact h
    · exact h

theorem vaWrite (h : KeepsCmds s t) {root : Word} {eng : Nat} {reach : Reach} {va : Nat} {bs : List Byte} :
    KeepsCmds s (t.vaWrite root eng reach va bs).s := by
  unfold State.vaWrite
  refine .foldlOf VaRes.s h fun r _ hr => .iteOf VaRes.s hr ?_
  split
  · exact hr.noteXlat
  · exact hr.wr
  · dsimp only
    split
    all_goals
      next hl =>
        have ht := KeepsCmds.of_eq Prod.fst hl hr.peerWrite
        exact ht

theorem vaPut (h : KeepsCmds s t) {root : Word} {eng : Nat} {reach : Reach} {ws : List ElemWrite} :
    KeepsCmds s (t.vaPut root eng reach ws).s := by
  unfold State.vaPut
  refine .foldlOf VaRes.s h fun r _ hr => .iteOf VaRes.s hr (.iteOf VaRes.s hr.vaWrite ?_)
  split
  · exact hr.noteXlat
  · exact hr.wrElems
  · dsimp only
    split
    all_goals
      next hl =>
        have ht := KeepsCmds.of_eq Prod.fst hl hr.peerWrite
        exact ht

theorem arriveVa (h : KeepsCmds s t) {root : Word} {eng va inc : Nat} : KeepsCmds s (t.arriveVa root eng va inc).1 := by
  unfold State.arriveVa
  refine .iteOf Prod.fst h ?_
  split
  · exact h.noteXlat
  · unfold State.arriveAt
    dsimp only
    split <;> exact (KeepsCmds.ite h.noteRead h).wrQuiet
  · split
    next hl =>
      have ht := KeepsCmds.of_eq Prod.fst hl h.linkTo
      exact ht
    next hl => exact (KeepsCmds.of_eq Prod.fst hl h.linkTo).sendPkt

/-! ### The exchange unit as a queue is cancelled (R380, R432) -/

theorem scramble (h : KeepsCmds s t) {x : TD} : KeepsCmds s (t.scramble x) :=
  have hdrawn : KeepsCmds s t.drawn := h
  .ite h (.iteOf VaRes.s hdrawn hdrawn.vaPut)

theorem closeX (h : KeepsCmds s t) {b : XBlock} : KeepsCmds s (t.closeX b) := by
  unfold State.closeX
  refine .ite ?_ h
  split
  · exact .ite h h
  · exact h

theorem endX (h : KeepsCmds s t) {b : XBlock} {c : Code} : KeepsCmds s (t.endX b c) := by
  have hset {v : State} (hv : KeepsCmds s v) (x : Nat) : KeepsCmds s (v.setFld (ringRegs b.ring).2 7 0 x) := hv
  exact .arriveVa (.ite (hset h.closeX.wrLE _) (hset h.closeX.wrLE _).wrLE)

theorem cancelRing (h : KeepsCmds s t) {r : Nat} : KeepsCmds s (t.cancelRing r) := by
  unfold State.cancelRing
  dsimp only
  refine .foldl (forUpto_keeps h fun _ v hv => ?_) fun v b hv => .foldl hv.scramble.endX fun _ _ hw => hw.notify
  split
  · exact hv.noteRead
  · exact hv

theorem cancelXch (h : KeepsCmds s t) {q : Nat} {tags : Bool} : KeepsCmds s (t.cancelXch q tags) :=
  have hdue : KeepsCmds s (if tags then t.retireDue q else t) := .ite h h
  hdue.foldl fun _ _ hv => hv.cancelRing

/-! ### A commit (R316, R417, R418) -/

theorem quarantine (h : KeepsCmds s t) {l reason : Nat} : KeepsCmds s (t.quarantine l reason) := by
  unfold State.quarantine
  extract_lets o t1 t2 peer
  have h2 : KeepsCmds s t2 := h
  exact .ite h (.ite h2.recordFirst.event h2.notify)

theorem settle (h : KeepsCmds s t) {l : Nat} : KeepsCmds s (t.settle l) := by
  unfold State.settle
  dsimp only
  split
  · exact h
  · refine .ite h.quarantine ?_
    split
    · exact h.quarantine
    · exact .ite h.quarantine h
    · refine .pump (.ite ?_ ?_) <;> exact h

theorem commitAll (h : KeepsCmds s t) : KeepsCmds s t.commitAll := by
  have hdigest : KeepsCmds s t.commit.digest := .ite (forUpto_keeps h fun _ _ hv => hv) (forUpto_keeps h fun _ _ hv => hv)
  exact hdigest.foldl fun _ _ hv => .ite hv.settle hv

end KeepsCmds

end Sys2Proof.Machine
end

section
/-! The life of a command: its fetch, its start, its end with a code, and the commands that end at once (R325, R326, R328, R340). -/

namespace Sys2Proof.Machine
open Sys2Proof

/-! ### Fetch (R325) -/

/-- Where one of the sixteen rings of a control processor holds an entry, the turn finds it wherever it begins. -/
theorem find?_turn_only {has : Nat → Bool} {k : Nat} (hk : k < 16) (hhas : has k = true)
    (honly : ∀ j, j < 16 → j ≠ k → has j = false) (t : Nat) :
    ∃ i, ((List.range 16).find? fun i => has ((t + i) % 16)) = some i ∧ (t + i) % 16 = k := by
  cases hfind : (List.range 16).find? fun i => has ((t + i) % 16) with
  | none =>
    have hnone := List.find?_eq_none.mp hfind ((k + 16 - t % 16) % 16) (List.mem_range.mpr (Nat.mod_lt _ (by decide)))
    have hplace : (t + (k + 16 - t % 16) % 16) % 16 = k := by omega
    exact absurd ((congrArg has hplace).trans hhas) hnone
  | some i =>
    refine ⟨i, rfl, ?_⟩
    by_contra hne
    have hfound : has ((t + i) % 16) = true := List.find?_some (p := fun i => has ((t + i) % 16)) hfind
    rw [honly _ (Nat.mod_lt _ (by decide)) hne] at hfound
    exact Bool.false_ne_true hfound

/-- An entry that is reached joins the fetched commands, and HEAD passes it. -/
theorem State.fetch_of_reached {s : State} {q : Nat} (hcancels : s.cancels = []) {a : Nat}
    (ha : a = ringBase (s.reg (Reg.ctlSqCfg q)) + 64 * (s.sqHead q % ringSize (s.reg (Reg.ctlSqCfg q))))
    (hplace : s.ringPlace a = true) (hreach : s.accessFail a = none) (htrain : s.training a 64 = false)
    (hgood : s.rdBad a 64 = false) :
    s.fetch q = ({ s with cmds := s.cmds ++ [newCmd q (s.sqHead q) (s.rdBytes a 64)] } : State).setFld
      (Reg.ctlSqStat q) 31 0 (s.sqHead q + 1) := by
  unfold State.fetch
  dsimp only
  rw [← ha, hplace, hreach, htrain, hgood]
  simp [hcancels]

theorem exec_commandFetch_only {n : Fin 4} {k : Nat} {s : State} (hk : k < 16) (hup : s.isOff 7 51 = false)
    (hroom : (s.cmds.filter fun c => c.q / 16 == n.val).length < 1024)
    (hen : s.bit (Reg.ctlSqCfg (16 * n.val + k)) 63 = true) (hrun : s.bit (Reg.ctlSqStat (16 * n.val + k)) 63 = false)
    (hentry : 0 < dist32 (s.sqTail (16 * n.val + k)) (s.sqHead (16 * n.val + k)))
    (hcq : s.cqOn (s.sqCq (16 * n.val + k)) = true) (hfull : s.cqFull (s.sqCq (16 * n.val + k)) = false)
    (honly : ∀ j, j < 16 → j ≠ k → s.bit (Reg.ctlSqCfg (16 * n.val + j)) 63 = false) :
    exec (.commandFetch n) s =
      .next (({ s with turn := SMap.put 0 s.turn n.val ((k + 1) % 16) } : State).fetch (16 * n.val + k)) := by
  obtain ⟨i, hfind, hi⟩ := find?_turn_only (has := fun j => s.bit (Reg.ctlSqCfg (16 * n.val + j)) 63 &&
      !s.bit (Reg.ctlSqStat (16 * n.val + j)) 63 && decide (0 < dist32 (s.sqTail (16 * n.val + j)) (s.sqHead (16 * n.val + j))) &&
      (!s.cqOn (s.sqCq (16 * n.val + j)) || !s.cqFull (s.sqCq (16 * n.val + j))))
    hk (by simp [hen, hrun, hentry, hfull]) (fun j hj hne => by simp [honly j hj hne]) (SMap.get 0 s.turn n.val)
  change execCommandFetch n s = _
  unfold execCommandFetch
  dsimp only
  rw [if_neg (by simp [hup, hroom]), hfind]
  dsimp only
  rw [hi, if_neg (by simp [hcq])]

/-! ### The commands of a queue -/

/-- Whether a command has a queue and index, and its work has not ended. -/
def Cmd.openAt (q idx : Nat) (c : Cmd) : Bool := c.q == q && c.idx == idx && !c.finished

/-- A command whose work has ended: 0x11 where it was cancelled (R328, R331). -/
def Cmd.ended (f : Cmd → Cmd) (c : Cmd) : Cmd :=
  if (f c).cancelled then { f c with finished := true, code := .cancelled } else { f c with finished := true }

theorem Cmd.ended_of_kept {f : Cmd → Cmd} {c : Cmd} (h : (f c).cancelled = false) :
    c.ended f = { f c with finished := true } := if_neg (Bool.eq_false_iff.mp h)

theorem Cmd.ended_finished (f : Cmd → Cmd) (c : Cmd) : (c.ended f).finished = true := by
  unfold Cmd.ended
  split <;> rfl

theorem Cmd.ended_q (f : Cmd → Cmd) (c : Cmd) : (c.ended f).q = (f c).q := by
  unfold Cmd.ended
  split <;> rfl

theorem Cmd.ended_idx (f : Cmd → Cmd) (c : Cmd) : (c.ended f).idx = (f c).idx := by
  unfold Cmd.ended
  split <;> rfl

theorem Cmd.ended_info (f : Cmd → Cmd) (c : Cmd) : (c.ended f).info = (f c).info := by
  unfold Cmd.ended
  split <;> rfl

theorem State.cmds_finishCmd (s : State) (q idx : Nat) (f : Cmd → Cmd) : (s.finishCmd q idx f).cmds =
    s.cmds.filter (fun c => !c.openAt q idx) ++ (s.cmds.filter (Cmd.openAt q idx)).map (Cmd.ended f) := rfl

theorem State.cmds_onCmd (s : State) (q idx : Nat) (f : Cmd → Cmd) : (s.onCmd q idx f).cmds =
    s.cmds.map fun c => if c.openAt q idx then f c else c := by
  unfold State.onCmd Cmd.openAt
  simp [and_assoc]

/-- Changing the commands that satisfy a test, which they go on to satisfy, changes no other. -/
theorem filter_map_ite {α : Type} {p : α → Bool} {f : α → α} (hf : ∀ x, p x = true → p (f x) = true) (l : List α) :
    (l.map fun x => if p x then f x else x).filter p = (l.filter p).map f ∧
    (l.map fun x => if p x then f x else x).filter (fun x => !p x) = l.filter (fun x => !p x) := by
  induction l with
  | nil => exact ⟨rfl, rfl⟩
  | cons x l ih =>
    by_cases hx : p x = true
    · simp [hx, hf x hx, ih]
    · simp [hx, ih]

/-! ### Starts (R325, R326) -/

theorem dist32_self (a : Nat) : dist32 a a = 0 := by
  unfold dist32
  rw [BitVec.sub_self]
  rfl

/-- A command taken into work runs under the control cluster's epoch (R326). -/
def State.startedCmd (s : State) (c : Cmd) : Cmd :=
  { c with running := true, epoch := (SMap.get 0 s.unitEpoch 1067).toNat }

/-- The only command of a queue waits behind no other, whatever its FENCE bit says. -/
theorem exec_commandStart_only {q : Fin 64} {s : State} {c : Cmd} (honly : s.cmds.filter (fun x => x.q == q.val) = [c])
    (hwaits : c.running = false) (hopen : c.finished = false) : exec (.commandStart q) s =
    if c.ok then .next (s.onCmd c.q c.idx s.startedCmd)
    else .next ((s.onCmd c.q c.idx s.startedCmd).finishCmd c.q c.idx fun c => { c with code := .desc }) := by
  have hmem : ∀ x, x ∈ s.cmds ∧ x.q = q.val ↔ x = c := fun x => by
    rw [← List.mem_singleton (a := x) (b := c), ← honly, List.mem_filter, beq_iff_eq]
  obtain ⟨hc, hq⟩ := (hmem c).mpr rfl
  have hfind : (s.cmds.find? fun c => c.q == q.val && !c.running && !c.finished) = some c := by
    cases hfind : s.cmds.find? fun c => c.q == q.val && !c.running && !c.finished with
    | none => exact absurd (List.find?_eq_none.mp hfind c hc) (by simp [hq, hwaits, hopen])
    | some x =>
      have hx := List.find?_some hfind
      simp only [Bool.and_eq_true, beq_iff_eq] at hx
      exact congrArg some ((hmem x).mp ⟨List.mem_of_find?_eq_some hfind, hx.1.1⟩)
  have hfirst : (c.flag 0 && s.cmds.any fun x => x.q == q.val && decide (0 < dist32 c.idx x.idx)) = false := by
    refine Bool.and_eq_false_imp.mpr fun _ => List.any_eq_false.mpr fun x hx => ?_
    by_cases hxq : x.q = q.val
    · rw [(hmem x).mp ⟨hx, hxq⟩, dist32_self]
      simp
    · simp [hxq]
  change execCommandStart q s = _
  unfold execCommandStart
  rw [hfind]
  dsimp only
  rw [hfirst]
  rfl

/-- The queue's command has started, and no other command of the queue stands beside it. -/
theorem State.queue_started {q : Fin 64} {s : State} {c : Cmd} (honly : s.cmds.filter (fun x => x.q == q.val) = [c])
    (hopen : c.finished = false) :
    (s.onCmd c.q c.idx s.startedCmd).cmds.filter (fun x => x.q == q.val) = [s.startedCmd c] := by
  have hq (x : Cmd) : ((if x.openAt c.q c.idx then s.startedCmd x else x).q == q.val) = (x.q == q.val) := by
    split <;> rfl
  rw [State.cmds_onCmd, List.filter_map]
  have hc : c.openAt c.q c.idx = true := by simp [Cmd.openAt, hopen]
  simp only [Function.comp_def, hq, honly, List.map_cons, List.map_nil, hc, if_true]

/-- What the end of a command leaves of a queue. -/
theorem State.queue_finishCmd (s : State) {p : Cmd → Bool} {q idx : Nat} {f : Cmd → Cmd}
    (hf : ∀ c, p (c.ended f) = p c) : (s.finishCmd q idx f).cmds.filter p =
      (s.cmds.filter p).filter (fun c => !c.openAt q idx) ++ ((s.cmds.filter p).filter (Cmd.openAt q idx)).map (Cmd.ended f) := by
  rw [State.cmds_finishCmd, List.filter_append, List.filter_map, List.filter_filter, List.filter_filter, List.filter_filter,
    List.filter_filter]
  simp only [Function.comp_def, hf, Bool.and_comm]

/-- Settles O36: the fetch finds the one ring wherever the turn stands, and the only command of a queue starts. -/
theorem commandLife : Obligations.CommandLife := by
  refine fun q s => ⟨fun n k => ?_, fun c honly hwaits hopen hcan => ?_⟩
  · intro o cfg head a hup hroom hcancels hen hrun hentry hcq hfull hoff hplace hreach htrain hgood
    rw [exec_commandFetch_only k.isLt hup hroom hen hrun hentry hcq hfull
      (fun j hj hne => hoff ⟨j, hj⟩ fun h => hne (congrArg Fin.val h))]
    have hfetch := State.fetch_of_reached (s := { s with turn := SMap.put 0 s.turn n.val ((k.val + 1) % 16) }) (q := o)
      hcancels (a := a) rfl hplace hreach htrain hgood
    have hsame : Signals s ({ s with
        turn := SMap.put 0 s.turn n.val ((k.val + 1) % 16), cmds := s.cmds ++ [newCmd o head (s.rdBytes a 64)] } : State) :=
      ⟨⟨rfl, rfl, rfl, rfl, rfl⟩, rfl, rfl, rfl, rfl⟩
    refine ⟨_, rfl, ?_⟩
    rw [hfetch]
    refine ⟨rfl, ?_, (hsame.setFld ?_).byte, rfl⟩
    · exact State.fld_setFld_same _ _ (by decide) (by decide) _
    · unfold Reg.hifHostwinBase Reg.ctlSqStat
      omega
  · have hqueue := State.queue_started honly hopen
    rw [exec_commandStart_only honly hwaits hopen]
    refine ⟨fun hok => ?_, fun hbad => ?_⟩
    · rw [if_pos hok]
      exact ⟨_, rfl, hqueue, rfl⟩
    · rw [if_neg (Bool.eq_false_iff.mp hbad)]
      have hat : (s.startedCmd c).openAt c.q c.idx = true := by simp [State.startedCmd, Cmd.openAt, hopen]
      refine ⟨_, (s.startedCmd c).ended fun c => { c with code := .desc }, rfl, ?_, Cmd.ended_finished _ _, ?_, rfl⟩
      · rw [State.queue_finishCmd _ fun c => congrArg (· == q.val) (c.ended_q _), hqueue]
        simp [hat]
      · rw [Cmd.ended_of_kept hcan]

end Sys2Proof.Machine
end

section
/-! Commands that end at once: NOP, POOL, COMMIT and CANCEL, each with its INFO (R326, R328, R340). -/

namespace Sys2Proof.Machine
open Sys2Proof

/-! ### A running command and its end -/

theorem claimDone_endCmd {s t : State} {c c' : Cmd} {code : Code} {n info : Nat}
    (hkept : t.cmds.filter (fun x => !x.openAt c.q c.idx) = s.cmds.filter (fun x => !x.openAt c.q c.idx))
    (hopen : t.cmds.filter (Cmd.openAt c.q c.idx) = [c'])
    (hsame : c'.q = c.q ∧ c'.idx = c.idx ∧ c'.entry = c.entry ∧ c'.code = c.code) (hcan : c'.cancelled = false)
    (hinfo : n % 2 ^ 32 = info) : claimDone c code info s (t.endCmd c code n) := by
  obtain ⟨hq, hidx, hentry, hcode⟩ := hsame
  refine ⟨c'.ended fun c => { c with code := c.code.max code, info := n % 2 ^ 32 }, ?_, Cmd.ended_finished _ _, ?_⟩
  · unfold State.endCmd
    rw [State.cmds_finishCmd, hkept, hopen]
    rfl
  · rw [Cmd.ended_of_kept hcan, ← hcode]
    exact ⟨rfl, hinfo, hq, hidx, hentry⟩

section
variable {q : Fin 64} {idx : BitVec 32} {op : Nat} {c : Cmd} {s : State} (h : claimRuns q idx op c s)
include h

theorem open_of_claimRuns : s.cmds.filter (Cmd.openAt c.q c.idx) = [c] := by
  obtain ⟨-, honly, hq, hidx, -, -⟩ := h
  rw [hq, hidx]
  exact honly

theorem claimDone_of_claimRuns {t : State} {code : Code} {n info : Nat} (ht : t.cmds = s.cmds) (hinfo : n % 2 ^ 32 = info) :
    claimDone c code info s (t.endCmd c code n) := by
  have honly := open_of_claimRuns h
  obtain ⟨-, -, -, -, -, hcan⟩ := h
  exact claimDone_endCmd (by rw [ht]) (by rw [ht, honly]) ⟨rfl, rfl, rfl, rfl⟩ hcan hinfo

/-- A running command may change, and end in the changed state, where it keeps what names it. -/
theorem claimDone_onCmd_of_claimRuns {t : State} {f : Cmd → Cmd} {code : Code} {n info : Nat} (ht : t.cmds = s.cmds)
    (hf : ∀ x, (f x).q = x.q ∧ (f x).idx = x.idx ∧ (f x).finished = x.finished)
    (hsame : (f c).entry = c.entry ∧ (f c).code = c.code ∧ (f c).cancelled = c.cancelled) (hinfo : n % 2 ^ 32 = info) :
    claimDone c code info s ((t.onCmd c.q c.idx f).endCmd c code n) := by
  have honly := open_of_claimRuns h
  obtain ⟨-, -, -, -, -, hcan⟩ := h
  obtain ⟨hentry, hcode, hcancelled⟩ := hsame
  obtain ⟨hq, hidx, -⟩ := hf c
  obtain ⟨hopen, hkept⟩ := filter_map_ite (p := Cmd.openAt c.q c.idx) (f := f) (fun x hx => by
    obtain ⟨hxq, hxidx, hxfin⟩ := hf x
    unfold Cmd.openAt
    rw [hxq, hxidx, hxfin]
    exact hx) s.cmds
  refine claimDone_endCmd (c' := f c) ?_ ?_ ⟨hq, hidx, hentry, hcode⟩ (hcancelled.trans hcan) hinfo
  · rw [State.cmds_onCmd, ht, hkept]
  · rw [State.cmds_onCmd, ht, hopen, honly]
    rfl

end

theorem exec_cmdNop {q : Fin 64} {idx : BitVec 32} {c : Cmd} {s : State} (h : s.cmdOf q idx 0 = some c) :
    exec (.cmdNop q idx) s = .next (s.endCmd c .ok 0) := by
  change execCmdNop q idx s = _
  unfold execCmdNop
  rw [h]

theorem State.mem_finishCmd_of_other {s : State} {q idx : Nat} {x : Cmd} (hx : x ∈ s.cmds) (hother : x.openAt q idx = false)
    (f : Cmd → Cmd) : x ∈ (s.finishCmd q idx f).cmds := by
  rw [State.cmds_finishCmd]
  exact List.mem_append_left _ (List.mem_filter.mpr ⟨hx, by simp [hother]⟩)

theorem State.mem_finishCmd_of_open {s : State} {q idx : Nat} {x : Cmd} (hx : x ∈ s.cmds) (hopen : x.openAt q idx = true)
    (f : Cmd → Cmd) : x.ended f ∈ (s.finishCmd q idx f).cmds := by
  rw [State.cmds_finishCmd]
  exact List.mem_append_right _ (List.mem_map_of_mem (List.mem_filter.mpr ⟨hx, hopen⟩))

/-! ### POOL (R340) -/

/-- A pool where no instruction waits takes its new state as it is (R312). -/
theorem State.poolService_setPool {s : State} {p : Nat} (h : s.poolWaits p = []) (x : Pool) :
    (s.setPool p x).poolService p = s.setPool p x := by
  have hnone : (s.setPool p x).poolWaits p = [] := h
  unfold State.poolService
  rw [hnone]
  rfl

section
variable {q : Fin 64} {idx : BitVec 32} {c : Cmd} {s : State} (h : s.cmdOf q idx 4 = some c)
  (hnone : s.poolWaits (c.fld 8 1) = [])
include h hnone

theorem exec_poolOpen (haction : c.fld 9 1 = 0) : exec (.poolOpen q idx) s =
    .next ((s.setPool (c.fld 8 1) { s.pool (c.fld 8 1) with isOpen := true }).endCmd c .ok 0) := by
  change execPoolOpen q idx s = _
  unfold execPoolOpen State.poolCmd
  rw [h]
  dsimp only
  rw [if_pos haction]
  dsimp only
  rw [State.poolService_setPool hnone]

theorem exec_poolClose (haction : c.fld 9 1 = 1) : exec (.poolClose q idx) s =
    .next ((s.setPool (c.fld 8 1) { s.pool (c.fld 8 1) with isOpen := false }).endCmd c .ok 0) := by
  change execPoolClose q idx s = _
  unfold execPoolClose State.poolCmd
  rw [h]
  dsimp only
  rw [if_pos haction]
  dsimp only
  rw [State.poolService_setPool hnone]

theorem exec_poolDiscard (haction : c.fld 9 1 = 2) : exec (.poolDiscard q idx) s =
    .next ((s.setPool (c.fld 8 1) {}).endCmd c .ok (s.pool (c.fld 8 1)).entries.length) := by
  change execPoolDiscard q idx s = _
  unfold execPoolDiscard State.poolCmd
  rw [h]
  dsimp only
  rw [if_pos haction]
  dsimp only
  rw [State.poolService_setPool hnone]

end

theorem State.pool_endCmd_setPool (s : State) (p : Nat) (x : Pool) (c : Cmd) (code : Code) (n : Nat) :
    ((s.setPool p x).endCmd c code n).pool p = x := SMap.get_put_same _ _ _ _

/-! ### COMMIT (R326) -/

theorem exec_commitCmd {q : Fin 64} {idx : BitVec 32} {c : Cmd} {s : State} (h : s.cmdOf q idx 6 = some c)
    (hfirst : c.begun = false) (hfree : (c.fld 1 1).testBit 2 = false) : exec (.commitCmd q idx) s =
      .next ((s.commitAll.onCmd c.q c.idx fun c => { c with begun := true, info := s.commitAll.epoch.toNat }).endCmd c .ok
        s.commitAll.epoch.toNat) := by
  have hflag : c.flag 2 = false := hfree
  change execCommitCmd q idx s = _
  unfold execCommitCmd
  rw [h]
  dsimp only
  rw [hfirst, hflag]
  rfl

/-! ### CANCEL (R328) -/

/-- The commands of a queue that a CANCEL names and that have not ended. -/
def State.named (s : State) (c : Cmd) : List Cmd :=
  s.cmds.filter fun x => x.q == c.fld 8 1 && inCancel (c.fld 0xC 4) (c.fld 0x10 4) x.idx && !x.finished

/-- Commands that wait for their start end with 0x11, and the exchange unit takes note of it (R380, R432). -/
def State.cancelWaiting (s : State) (tq : Nat) (l : List Cmd) : State :=
  let t := l.foldl (fun s x => s.cancelUnstarted x.q x.idx) s
  if l.length = 0 then t else t.cancelXch tq (l.any Cmd.launches)

/-- A command as a cancellation before its start leaves it: 0x11, and a free epoch (R328, R330). -/
def State.stoppedCmd (s : State) (c : Cmd) : Cmd := { c with code := .cancelled, epoch := bits 31 0 s.free }

theorem State.keepsCmds_cancelWaiting_one (s : State) (tq : Nat) (x : Cmd) :
    KeepsCmds (s.drawn.finishCmd x.q x.idx s.stoppedCmd) (s.cancelWaiting tq [x]) :=
  (KeepsCmds.refl (s.cancelUnstarted x.q x.idx)).cancelXch

theorem State.code_ended_stoppedCmd (s : State) (x : Cmd) : (x.ended s.stoppedCmd).code = .cancelled := by
  unfold Cmd.ended
  split <;> rfl

/-- Where every named command waits for its start and the ring holds no further entry, each ends with 0x11. -/
theorem exec_cancel_unstarted {q : Fin 64} {idx : BitVec 32} {c : Cmd} {s : State} (h : s.cmdOf q idx 5 = some c)
    (hempty : s.sqTail (c.fld 8 1) = s.sqHead (c.fld 8 1)) (hwait : ∀ x ∈ s.named c, x.running = false) :
    exec (.cancel q idx) s =
      .next ((s.cancelWaiting (c.fld 8 1) (s.named c)).endCmd c .ok (s.named c).length) := by
  have hidle : (s.named c).filter (fun x => !x.running) = s.named c :=
    List.filter_eq_self.mpr fun x hx => by simp [hwait x hx]
  have hrun : (s.named c).filter (fun x => x.running && (x.fld 0 1 == 1 || x.fld 0 1 == 2 || x.fld 0 1 == 3)) = [] :=
    List.filter_eq_nil_iff.mpr fun x hx => by simp [hwait x hx]
  change execCancel q idx s = _
  unfold execCancel
  rw [h]
  dsimp only
  rw [hempty, dist32_self]
  unfold State.cancelWaiting
  unfold State.named at hidle hrun ⊢
  rw [hidle, hrun]
  simp

/-- Settles O37: each command's state before its end is one that its own equation gives, and the end writes INFO. -/
theorem immediateCancel : Obligations.ImmediateCancel := by
  refine ⟨fun q idx c s => ?_, fun q idx c x s h hnamed hopen hwaits hother hempty => ?_⟩
  · extract_lets p ends
    refine ⟨fun h => ?_, fun h hnone => ⟨fun haction => ?_, fun haction => ?_, fun haction => ?_⟩, fun h hfirst hfree => ?_,
      fun h hout hempty => ?_⟩
    · exact ⟨_, ⟨exec_cmdNop h.1, claimDone_of_claimRuns h rfl rfl⟩, rfl⟩
    · exact ⟨_, ⟨exec_poolOpen h.1 hnone haction, claimDone_of_claimRuns h rfl rfl⟩, s.pool_endCmd_setPool p _ c .ok 0, rfl⟩
    · exact ⟨_, ⟨exec_poolClose h.1 hnone haction, claimDone_of_claimRuns h rfl rfl⟩, s.pool_endCmd_setPool p _ c .ok 0, rfl⟩
    · exact ⟨_, ⟨exec_poolDiscard h.1 hnone haction, claimDone_of_claimRuns h rfl rfl⟩, s.pool_endCmd_setPool p _ c .ok _, rfl⟩
    · have hexec := exec_commitCmd h.1 hfirst hfree
      have hcmds : s.commitAll.cmds = s.cmds := (KeepsCmds.refl s).commitAll
      have hepoch := s.epoch_commitAll
      have hsnaps := s.snaps_commitAll
      have hunit := s.unitEpoch_commitAll
      generalize s.commitAll = t at *
      refine ⟨_, ⟨hexec, claimDone_onCmd_of_claimRuns h hcmds (fun _ => ⟨rfl, rfl, rfl⟩) ⟨rfl, rfl, rfl⟩ ?_⟩, hepoch, hsnaps,
        hunit⟩
      rw [hepoch]
      exact Nat.mod_eq_of_lt (s.epoch + 1).isLt
    · have hnone : s.named c = [] := List.filter_eq_nil_iff.mpr fun x hx => by
        rcases hout x hx with hend | hq | hrange
        · simp [hend]
        · simp [hq]
        · simp [hrange]
      refine ⟨s.endCmd c .ok 0, ⟨?_, claimDone_of_claimRuns h rfl rfl⟩, rfl⟩
      rw [exec_cancel_unstarted h.1 hempty (by simp [hnone]), hnone]
      rfl
  · have hone : s.named c = [x] := hnamed
    obtain ⟨hx, hxopen⟩ := List.mem_filter.mp (hopen ▸ List.mem_singleton_self x)
    obtain ⟨hc, hcopen⟩ := List.mem_filter.mp (open_of_claimRuns h ▸ List.mem_singleton_self c)
    obtain ⟨hof, -, hq, hidx, -, -⟩ := h
    rw [exec_cancel_unstarted hof hempty (by simp [hone, hwaits]), hone]
    have hcother : c.openAt x.q x.idx = false := by
      rcases hother with hne | hne
      · simp [Cmd.openAt, hq, Ne.symm hne]
      · simp [Cmd.openAt, hidx, Ne.symm hne]
    have hkept := s.keepsCmds_cancelWaiting_one (c.fld 8 1) x
    refine ⟨_, x.ended s.stoppedCmd, rfl, ?_, x.ended_q _, x.ended_idx _, Cmd.ended_finished _ _, s.code_ended_stoppedCmd x,
      c.ended _, State.mem_finishCmd_of_open ?_ hcopen _, ?_, ?_, Cmd.ended_finished _ _, ?_⟩
    · refine State.mem_finishCmd_of_other (hkept ▸ State.mem_finishCmd_of_open hx hxopen _) ?_ _
      simp [Cmd.openAt, Cmd.ended_finished]
    · exact hkept ▸ State.mem_finishCmd_of_other hc hcother _
    · exact (c.ended_q _).trans hq
    · exact (c.ended_idx _).trans hidx
    · exact c.ended_info _

end Sys2Proof.Machine
end

section
/-! EPOCH_SWITCH: where each unit stands at its safe boundary, and what a switch changes (R106, R193, R239, R341, R342, R417). -/

namespace Sys2Proof.Machine
open Sys2Proof

/-- The safe boundary of each kind of unit (R341). -/
theorem State.atBoundary_iff {s : State} {u : Nat} {e : BitVec 32} (hu : u < 1068) : s.atBoundary u e = true ↔
    (u < 800 → (∀ w ∈ (s.seq (SeqId.ofNum u)).works, 0 < (w.epoch - e).toInt) ∧
      (s.cfgChanges u e = false ∨ (s.seq (SeqId.ofNum u)).works = [] ∨ 0 < ((s.core u).cfgEpoch - e).toInt)) ∧
    (800 ≤ u → u < 1016 → (s.siph (u - 800)).transfers = [] ∧ ∀ p ∈ s.passes, p.siphon ≠ some (u - 800)) ∧
    (1036 ≤ u → u < 1048 → (s.link (u - 1036)).retry = []) ∧
    (1048 ≤ u → u < 1050 → (∀ b ∈ s.xch.blocks, b.started = false) ∧ ∀ b ∈ s.xch.batches, b.live = false) ∧
    (1050 ≤ u → u < 1066 → (s.upd (u - 1050)).inv = none) ∧ (u = 1066 → s.rsl.cairn = none) ∧
    (u = 1067 → ∀ n : Fin 4, (s.seq (.cp n)).inLoop = false) := by
  have hcp : (∀ n : Fin 4, (s.seq (.cp n)).inLoop = false) ↔ ∀ n < 4, (SMap.get {} s.seqs (0x3FC + n)).inLoop = false :=
    ⟨fun h n hn => h ⟨n, hn⟩, fun h n => h n.val n.isLt⟩
  rw [hcp]
  unfold State.atBoundary
  split_ifs
  all_goals
    simp only [Bool.and_eq_true, Bool.or_eq_true, List.all_eq_true, List.isEmpty_iff, Option.isNone_iff_eq_none, Bool.not_eq_true',
      decide_eq_true_eq, bne_iff_ne, List.mem_range, or_assoc]
    grind

/-! ### A switch -/

/-- A link that takes up an epoch only signals (R417). -/
theorem State.signals_linkSwitched (s : State) (l : Nat) : Signals s (s.linkSwitched l) := by
  have hprior (f : Link → Link) : Signals s ((s.onLink l f).setFld (Reg.cslLinkStat l) 63 60 1) :=
    (Signals.refl s).onLink.setLinkStat
  exact .ite (.refl s) (.ite (.ite (hprior _) (.refl s)) (Signals.refl s).send)

/-- A siphon drops its TLB as it switches (R239). -/
def State.siphonSwitched (s : State) (u : Nat) : State :=
  if 800 ≤ u ∧ u < 1016 then s.onSiph (u - 800) fun q => { q with tlb := [] } else s

/-- A unit takes up its next epoch. -/
def State.unitSwitched (s : State) (u : Nat) : State :=
  { s with unitEpoch := SMap.put 0 s.unitEpoch u (SMap.get 0 s.unitEpoch u + 1) }

/-- The state after a unit's switch. -/
def State.switched (s : State) (u : Nat) : State :=
  if 1036 ≤ u ∧ u < 1048 then ((s.unitSwitched u).siphonSwitched u).linkSwitched (u - 1036)
  else (s.unitSwitched u).siphonSwitched u

theorem State.signals_switched (s : State) (u : Nat) : Signals ((s.unitSwitched u).siphonSwitched u) (s.switched u) :=
  .ite (State.signals_linkSwitched _ _) (.refl _)

theorem exec_epochSwitch (u : Fin 1068) (s : State) : exec (.epochSwitch u) s =
    if SMap.get 0 s.unitEpoch u.val = s.epoch ∨ s.unitOff u.val = true ∨
      s.atBoundary u.val (SMap.get 0 s.unitEpoch u.val) = false then .next s
    else .next (s.switched u.val) := by
  change execEpochSwitch u s = _
  unfold execEpochSwitch
  simp only [Bool.or_eq_true, decide_eq_true_eq, Bool.not_eq_true', or_assoc]
  rfl

theorem State.byte_siphonSwitched (s : State) (u a : Nat) : (s.siphonSwitched u).byte a = s.byte a := by
  unfold State.siphonSwitched
  split <;> rfl

theorem State.epochs_siphonSwitched (s : State) (u : Nat) :
    (s.siphonSwitched u).unitEpoch = s.unitEpoch ∧ (s.siphonSwitched u).epoch = s.epoch := by
  unfold State.siphonSwitched
  split <;> exact ⟨rfl, rfl⟩

/-- Settles O41: the boundary is R341's, and past the unit's epoch a switch changes a siphon's TLB or only signals. -/
theorem epochSwitch : Obligations.EpochSwitch := by
  intro u s
  extract_lets e works ready
  have hready : s.atBoundary u.val e = true ↔ ready := State.atBoundary_iff u.isLt
  rw [exec_epochSwitch]
  refine ⟨fun hbehind hon hr => ?_, fun hstay => if_pos ?_⟩
  · have hgo : ¬(e = s.epoch ∨ s.unitOff u.val = true ∨ s.atBoundary u.val e = false) := by
      simp [hbehind, hon, hready.mpr hr]
    rw [if_neg hgo]
    obtain ⟨hunit, hepoch⟩ := (s.unitSwitched u.val).epochs_siphonSwitched u.val
    have hsignals := s.signals_switched u.val
    refine ⟨_, rfl, ?_, fun x hx => ?_, hsignals.epoch.trans hepoch, fun hlow hhigh => ?_, fun a => ?_⟩
    · rw [hsignals.unitEpoch, hunit]
      exact SMap.get_put_same _ _ _ _
    · rw [hsignals.unitEpoch, hunit]
      exact SMap.get_put_ne _ _ _ _ _ _ hx
    · unfold State.switched State.siphonSwitched
      rw [if_neg (by omega), if_pos ⟨hlow, hhigh⟩, State.siph_onSiph_same]
    · exact (hsignals.byte a).trans (State.byte_siphonSwitched _ _ a)
  · rcases hstay with h | h | h
    · exact .inl h
    · exact .inr (.inl h)
    · exact .inr (.inr (Bool.eq_false_iff.mpr fun hat => h (hready.mp hat)))

end Sys2Proof.Machine
end

section
/-! Bytes at local addresses below 2^48, host memory among them: what stored bytes read as, and which bytes a store leaves alone
(R335, R458, R463). -/

namespace Sys2Proof.Machine
open Sys2Proof

/-- No two local addresses share a cell: host memory lies above every other cell, and its window does not wrap onto itself. -/
theorem State.cell_ne (s : State) {a b : Nat} (ha : a < 2 ^ 48) (hb : b < 2 ^ 48) (h : b ≠ a) : s.cell b ≠ s.cell a := by
  unfold State.cell
  split <;> split <;> omega

/-- The part of the control-cluster SRAM that discards writes (R335). -/
def reserved (a : Nat) : Prop := sramBase + 0x03FD_0000 ≤ a ∧ a < sramBase + 0x03FE_0000

/-- A store leaves the bytes beside it alone. -/
theorem State.byte_putBytes_beside (s : State) {a b : Nat} {bs : List Byte} (ha : a + bs.length ≤ 2 ^ 48) (hb : b < 2 ^ 48)
    (hout : b < a ∨ a + bs.length ≤ b) : (s.putBytes a bs).byte b = s.byte b := by
  induction bs generalizing s a with
  | nil => rfl
  | cons x bs ih =>
    rw [List.length_cons] at ha hout
    exact (ih _ (by omega) (by omega)).trans (s.byte_putByte_ne _ _ _ (s.cell_ne (by omega) hb (by omega)))

/-- A store outside the reserved window is read back. -/
theorem State.byte_putBytes_inside (s : State) {a k : Nat} {bs : List Byte} (ha : a + bs.length ≤ 2 ^ 48)
    (hwin : ∀ i, i < bs.length → ¬reserved (a + i)) (hk : k < bs.length) :
    (s.putBytes a bs).byte (a + k) = bs.getD k 0 := by
  induction bs generalizing s a k with
  | nil => exact absurd hk k.not_lt_zero
  | cons x bs ih =>
    simp only [List.length_cons] at ha hwin hk
    cases k with
    | zero =>
      change ((s.putByte a x).putBytes (a + 1) bs).byte a = x
      exact (State.byte_putBytes_beside _ (by omega) (by omega) (by omega)).trans
        (s.byte_putByte_same a x (hwin 0 (by omega)))
    | succ k =>
      have hmove (i : Nat) : a + (i + 1) = a + 1 + i := by omega
      change ((s.putByte a x).putBytes (a + 1) bs).byte (a + (k + 1)) = bs.getD k 0
      rw [hmove k]
      exact ih _ (by omega) (fun i hi => hmove i ▸ hwin (i + 1) (by omega)) (by omega)

/-- A word whose bytes are those of a number reads as that number, modulo 2^32 (R8). -/
theorem State.word32_of_natLE {s : State} {a v : Nat} (h : ∀ k, k < 4 → s.byte (a + k) = (natLE 4 v).getD k 0) :
    s.word32 a = BitVec.ofNat 32 v := by
  have hword : s.word32 a = BitVec.ofNat 32 (leNat (natLE 4 v)) := by
    unfold State.word32
    have h0 := h 0 (by decide)
    rw [Nat.add_zero] at h0
    rw [h0, h 1 (by decide), h 2 (by decide), h 3 (by decide)]
    exact (ofNat_leNat_four _ _ _ _).symm
  rw [hword, leNat_natLE]
  exact BitVec.eq_of_toNat_eq (by simp)

/-- An address that an access reaches is local (R458). -/
theorem State.lt_of_accessFail_none {s : State} {a : Nat} (h : s.accessFail a = none) : a < 2 ^ 48 := by
  by_contra hge
  have hnowhere : s.target a = .unpopulated := by
    unfold State.target Machine.target sramBase
    rw [if_neg (by omega), if_neg (by simp; omega), if_neg (by simp; omega), if_neg (by simp; omega), if_neg (by simp; omega),
      if_neg (by simp; omega)]
  unfold State.accessFail at h
  rw [hnowhere] at h
  cases h

end Sys2Proof.Machine
end

section
/-! The record of a command: its 32 bytes at TAIL, and the vector that may follow it (R330 to R332). -/

namespace Sys2Proof.Machine
open Sys2Proof

/-! ### The bytes of a record (R330) -/

theorem natLE_length (n v : Nat) : (natLE n v).length = n := by
  induction n generalizing v with
  | zero => rfl
  | succ n ih => exact congrArg (· + 1) (ih _)

/-- The four bytes from offset `o` on spell `v`. -/
def SpellsAt (bs : List Byte) (o v : Nat) : Prop := ∀ k, k < 4 → bs.getD (o + k) 0 = (natLE 4 v).getD k 0

theorem SpellsAt.first (v : Nat) (bs : List Byte) : SpellsAt (natLE 4 v ++ bs) 0 v := fun k hk => by
  rw [Nat.zero_add]
  exact List.getD_append _ _ _ _ (by rwa [natLE_length])

theorem SpellsAt.behind {bs : List Byte} {o v : Nat} (h : SpellsAt bs o v) {n w : Nat} :
    SpellsAt (natLE n w ++ bs) (o + n) v := fun k hk => by
  rw [List.getD_append_right _ _ _ _ (by rw [natLE_length]; omega), natLE_length, ← h k hk]
  exact congrArg (bs.getD · 0) (by omega)

theorem Cmd.record_words (c : Cmd) (phase : Nat) :
    SpellsAt (c.record phase) 0 ((c.q <<< 24) + c.idx % 2 ^ 24) ∧ SpellsAt (c.record phase) 8 c.epoch ∧
    SpellsAt (c.record phase) 12 (min c.counts.drops (2 ^ 32 - 1)) ∧
    SpellsAt (c.record phase) 16 (min c.counts.clips (2 ^ 32 - 1)) ∧
    SpellsAt (c.record phase) 20 (min c.counts.escapes (2 ^ 32 - 1)) ∧
    SpellsAt (c.record phase) 24 (min c.counts.retries (2 ^ 32 - 1)) ∧ SpellsAt (c.record phase) 28 c.info := by
  have hlast (v : Nat) : SpellsAt (natLE 4 v) 0 v := fun k _ => by rw [Nat.zero_add]
  unfold Cmd.record
  simp only [List.append_assoc]
  exact ⟨.first _ _, (SpellsAt.first _ _).behind.behind.behind.behind, (SpellsAt.first _ _).behind.behind.behind.behind.behind,
    (SpellsAt.first _ _).behind.behind.behind.behind.behind.behind,
    (SpellsAt.first _ _).behind.behind.behind.behind.behind.behind.behind,
    (SpellsAt.first _ _).behind.behind.behind.behind.behind.behind.behind.behind,
    (hlast _).behind.behind.behind.behind.behind.behind.behind.behind.behind⟩

theorem Cmd.record_code (c : Cmd) (phase : Nat) : (c.record phase).getD 4 0 = BitVec.ofNat 8 c.code.toNat := rfl

theorem Cmd.record_phase (c : Cmd) (phase : Nat) : (c.record phase).getD 5 0 = BitVec.ofNat 8 phase := rfl

theorem Cmd.record_length (c : Cmd) (phase : Nat) : (c.record phase).length = 32 := by
  simp [Cmd.record, natLE_length]

/-! ### The record at TAIL (R331) -/

/-- A record is stored from its ninth byte on, and then its first eight bytes, the phase among them. -/
def State.recordStored (s : State) (a : Nat) (r : List Byte) : State := (s.wr (a + 8) (r.drop 8)).wr a (r.take 8)

theorem State.recordStored_of_clean {s : State} (hp : s.poison = []) (a : Nat) (r : List Byte) :
    s.recordStored a r = (s.putBytes (a + 8) (r.drop 8)).putBytes a (r.take 8) := by
  unfold State.recordStored
  rw [State.wr_of_clean hp, State.wr_of_clean ((State.putBytes_poison _ _ _).trans hp)]

section
variable {s : State} {a : Nat} {r : List Byte} (hp : s.poison = []) (hr : r.length = 32) (ha : a + 32 ≤ 2 ^ 48)
include hp hr ha

theorem State.byte_recordStored_beside {b : Nat} (hb : b < 2 ^ 48) (hout : b < a ∨ a + 32 ≤ b) :
    (s.recordStored a r).byte b = s.byte b := by
  have htake : (r.take 8).length = 8 := by simp [hr]
  have hdrop : (r.drop 8).length = 24 := by simp [hr]
  rw [State.recordStored_of_clean hp, State.byte_putBytes_beside _ (by omega) hb (by omega),
    State.byte_putBytes_beside _ (by omega) hb (by omega)]

theorem State.byte_recordStored_inside (hwin : ∀ i, i < 32 → ¬reserved (a + i)) {k : Nat} (hk : k < 32) :
    (s.recordStored a r).byte (a + k) = r.getD k 0 := by
  have htake : (r.take 8).length = 8 := by simp [hr]
  have hdrop : (r.drop 8).length = 24 := by simp [hr]
  rw [State.recordStored_of_clean hp]
  by_cases hfirst : k < 8
  · rw [State.byte_putBytes_inside _ (by omega) (fun i hi => hwin i (by omega)) (by omega)]
    simp [List.getD_eq_getElem?_getD, hfirst]
  · obtain ⟨j, rfl⟩ := Nat.exists_eq_add_of_le (not_lt.mp hfirst)
    rw [State.byte_putBytes_beside _ (by omega) (by omega) (by omega), ← Nat.add_assoc,
      State.byte_putBytes_inside _ (by omega) (fun i hi => (Nat.add_assoc a 8 i).symm ▸ hwin (8 + i) (by omega)) (by omega)]
    simp [List.getD_eq_getElem?_getD]

end

/-- TAIL of a completion ring. -/
def State.cqTail (s : State) (cq : Nat) : Nat := s.fld (Reg.ctlCqTail cq) 31 0

/-- The local address of the record at TAIL (R331). -/
def State.recordAt (s : State) (cq : Nat) : Nat :=
  ringBase (s.reg (Reg.ctlCqCfg cq)) + 32 * (s.cqTail cq % ringSize (s.reg (Reg.ctlCqCfg cq)))

/-- The phase of TAIL's pass: 1 in the first pass over the ring, then 0 and 1 in turn (R330). -/
def State.phase (s : State) (cq : Nat) : Nat := 1 - s.cqTail cq / ringSize (s.reg (Reg.ctlCqCfg cq)) % 2

/-- The record of a command is stored, the command goes, and TAIL rises by 1. -/
def State.recordWritten (s : State) (cq : Nat) (c : Cmd) : State :=
  let t := s.recordStored (s.recordAt cq) (c.record (s.phase cq))
  ({ t with cmds := t.cmds.erase c } : State).setFld (Reg.ctlCqTail cq) 31 0 (s.cqTail cq + 1)

/-- What follows a record: its ring's count since the last message changes, and the ring's vector may be sent (R332). -/
def Notifies (s t : State) : Prop :=
  ∃ m, t = { s with sinceMsg := m } ∨ ∃ v, v < 2048 ∧ t = ({ s with sinceMsg := m } : State).msix v

theorem Notifies.signals {s t : State} (h : Notifies s t) : Signals s t := by
  have hcount (m : SMap Nat) : Signals s { s with sinceMsg := m } := ⟨⟨rfl, rfl, rfl, rfl, rfl⟩, rfl, rfl, rfl, rfl⟩
  obtain ⟨m, rfl | ⟨v, -, rfl⟩⟩ := h
  · exact hcount m
  · exact (hcount m).msix

theorem Notifies.keepsCmds {s t : State} (h : Notifies s t) : KeepsCmds s t := by
  have hcount (m : SMap Nat) : KeepsCmds s { s with sinceMsg := m } := rfl
  obtain ⟨m, rfl | ⟨v, -, rfl⟩⟩ := h
  · exact hcount m
  · exact (hcount m).msix

/-- A message stores no register but a pending bit (R465). -/
theorem Notifies.cqTail {s t : State} (h : Notifies s t) (cq : Nat) : t.cqTail cq = s.cqTail cq := by
  obtain ⟨m, rfl | ⟨v, hv, rfl⟩⟩ := h
  · rfl
  · unfold State.msix
    split_ifs
    · exact State.fld_of_reg (State.reg_setFld_ne _ _ _ _ _ _ (by unfold Reg.ctlCqTail Reg.hifPba; omega)) 31 0
    · rfl
    · rfl

theorem exec_completionRecordWrite {cq : Fin 64} {s : State} {c : Cmd}
    (hfind : s.cmds.find? (fun c => c.finished && s.sqCq c.q == cq.val) = some c) (hon : s.cqOn cq.val = true)
    (hroom : s.cqFull cq.val = false) (hplace : s.ringPlace (s.recordAt cq.val) = true)
    (hreach : s.accessFail (s.recordAt cq.val) = none) (htrain : s.training (s.recordAt cq.val) 32 = false) :
    ∃ t, exec (.completionRecordWrite cq) s = .next t ∧ Notifies (s.recordWritten cq.val c) t := by
  change ∃ t, execCompletionRecordWrite cq s = .next t ∧ _
  unfold execCompletionRecordWrite
  rw [hfind]
  dsimp only
  unfold State.recordAt State.cqTail at hplace hreach htrain
  rw [if_neg (by simp [hon, hroom, hplace, hreach, htrain])]
  split_ifs
  · exact ⟨_, rfl, _, .inl rfl⟩
  · exact ⟨_, rfl, _, .inr ⟨_, bits_lt 58 48 _, rfl⟩⟩
  · exact ⟨_, rfl, _, .inl rfl⟩

/-- Settles O39: the record's bytes are stored at TAIL, and the message that may follow changes neither them nor TAIL. -/
theorem completionRecord : Obligations.CompletionRecord := by
  intro cq s c cfg tail n a hfind hon hroom hplace hreach htrain hclean hwin
  obtain ⟨t, hexec, hsent⟩ := exec_completionRecordWrite hfind hon hroom hplace hreach htrain
  have hend : a + 32 ≤ 2 ^ 48 := by
    have hlocal : ringBase cfg + 32 * (tail % n) < 2 ^ 48 := State.lt_of_accessFail_none hreach
    change ringBase cfg + 32 * (tail % n) + 32 ≤ 2 ^ 48
    unfold ringBase at hlocal ⊢
    omega
  have hopen (i : Nat) (hi : i < 32) : ¬reserved (a + i) := by
    unfold reserved sramBase
    omega
  have hlen := c.record_length (s.phase cq.val)
  have hkept : Signals (s.recordStored a (c.record (s.phase cq.val))) (s.recordWritten cq.val c) := by
    have herase (l : List Cmd) : Signals (s.recordStored a (c.record (s.phase cq.val)))
        { s.recordStored a (c.record (s.phase cq.val)) with cmds := l } := ⟨⟨rfl, rfl, rfl, rfl, rfl⟩, rfl, rfl, rfl, rfl⟩
    exact (herase _).setFld (by unfold Reg.hifHostwinBase Reg.ctlCqTail; omega)
  have hbyte (b : Nat) : t.byte b = (s.recordStored a (c.record (s.phase cq.val))).byte b :=
    (hsent.signals.byte b).trans (hkept.byte b)
  have hin {k : Nat} (hk : k < 32) : t.byte (a + k) = (c.record (s.phase cq.val)).getD k 0 :=
    (hbyte _).trans (State.byte_recordStored_inside hclean hlen hend hopen hk)
  have hword {o v : Nat} (ho : o + 4 ≤ 32) (h : SpellsAt (c.record (s.phase cq.val)) o v) :
      t.word32 (a + o) = BitVec.ofNat 32 v :=
    State.word32_of_natLE fun k hk => by rw [Nat.add_assoc, hin (by omega), h k hk]
  obtain ⟨hname, hepoch, hdrops, hclips, hescapes, hretries, hinfo⟩ := c.record_words (s.phase cq.val)
  refine ⟨t, hexec, ?_, ?_, fun b hb hout => ?_, ?_, (hin (by decide)).trans (c.record_code _), ?_,
    hword (by decide) hepoch, hword (by decide) hdrops,
    hword (by decide) hclips, hword (by decide) hescapes, hword (by decide) hretries, hword (by decide) hinfo⟩
  · have hcmds : (s.recordStored a (c.record (s.phase cq.val))).cmds = s.cmds := (KeepsCmds.refl s).wr.wr
    exact Eq.trans hsent.keepsCmds (congrArg (List.erase · c) hcmds)
  · exact (hsent.cqTail cq.val).trans (State.fld_setFld_same _ _ (by decide) (by decide) _)
  · exact (hbyte b).trans (State.byte_recordStored_beside hclean hlen hend hb hout)
  · have hfirst := hword (by decide) hname
    rwa [Nat.add_zero, Nat.shiftLeft_eq] at hfirst
  · rw [hin (by decide), Cmd.record_phase]
    change BitVec.ofNat 8 (1 - tail / n % 2) = _
    rcases Nat.mod_two_eq_zero_or_one (tail / n) with h | h <;> rw [h] <;> rfl

end Sys2Proof.Machine
end

section
/-! Commands that give work: PROG starts the program of a control processor, CORES launches on cores, and COPY moves bytes (R326,
R329). -/

namespace Sys2Proof.Machine
open Sys2Proof

/-! ### PROG (R329) -/

/-- The program of a PROG without an argument block, whose registers are all 0. -/
def Cmd.program (c : Cmd) (q : Seq) : Seq :=
  q.started (c.fld 8 4) ((List.range 15).map fun i => BitVec.ofNat 64 (blockField [] (8 * i) 8)) (.cmd c.q c.idx)
    (BitVec.ofNat 64 (c.fld 0x10 8))

theorem Cmd.getS_program (c : Cmd) (q : Seq) (r : SReg) : (c.program q).getS r = 0 := by
  have hzero (i : Nat) : ((List.range 15).map fun i => BitVec.ofNat 64 (blockField [] (8 * i) 8)).getD i 0 = (0 : Word) := by
    change (List.replicate 15 (0 : Word)).getD i 0 = 0
    rw [List.getD_eq_getElem?_getD, List.getElem?_replicate]
    split <;> rfl
  unfold Cmd.program
  rw [Seq.getS_started, hzero, ite_self]

/-- The row and the cursors of a step leave every sequencer alone, and every engine holds the step's row (R352, R451). -/
theorem State.loadRow_cursors_spec (s : State) (n : Word) (k : Nat) :
    ((s.loadRow n).cursors k).seqs = s.seqs ∧ ∀ m, m < 16 → (((s.loadRow n).cursors k).upd m).rowStep = n := by
  obtain ⟨hseqs, -, hrows⟩ := s.loadRow_spec n
  have hkept := (KeepsControl.refl (s.loadRow n)).cursors (n := k)
  exact ⟨hkept.seqs.trans hseqs, fun m hm => (hkept.upd m).symm ▸ hrows m hm⟩

theorem exec_prog_idle {q : Fin 64} {idx : BitVec 32} {c : Cmd} {s : State} {n : Fin 4} (hn : n.val = q.val / 16)
    (h : s.cmdOf q idx 1 = some c) (hfirst : c.begun = false) (hidle : (s.seq (.cp n)).run = .idle)
    (hargs : c.fld 0x18 8 = 0) : exec (.prog q idx) s =
      .next (((((s.onCmd c.q c.idx fun c => { c with begun := true }).onSeq (.cp n) c.program).loadRow
        (BitVec.ofNat 64 (c.fld 0x10 8))).cursors (BitVec.ofNat 64 (c.fld 0x10 8)).toNat)) := by
  obtain ⟨m, hm⟩ := n
  obtain rfl : m = q.val / 16 := hn
  change execProg q idx s = _
  unfold execProg
  rw [h]
  dsimp only
  rw [hfirst, hidle, if_pos hargs]
  rfl

/-! ### CORES (R319, R326) -/

theorem OnlyPrograms.cmds {s t : State} (h : OnlyPrograms s t) : t.cmds = s.cmds := by
  obtain ⟨q, f, rfl⟩ := h
  rfl

/-- A CORES command that has launched waits for the cores that its block names. -/
def Cmd.launched (b : List Byte) (c : Cmd) : Cmd := { c with begun := true, left := launchCores b, code := .ok }

theorem Cmd.left_launched (b : List Byte) (c : Cmd) : (c.launched b).left = launchCores b := by
  simp only [Cmd.launched]

theorem exec_cores_ready {q : Fin 64} {idx : BitVec 32} {c : Cmd} {s : State} {b : List Byte}
    (h : s.cmdOf q idx 2 = some c) (hfirst : c.begun = false) (hin : c.fld 8 4 + 64 ≤ 16777216)
    (hb : s.rdBytes (sramBase + 4 * c.fld 8 4) 256 = b) (hok : launchOk b = true)
    (hready : ∀ k ∈ launchCores b, s.coreRefuses k = false) : exec (.cores q idx) s =
      .next ((s.onCmd c.q c.idx (Cmd.launched b)).launchOn (.cmd c.q c.idx) b 0 (launchCores b)) := by
  have hoff : (launchCores b).filter s.coreRefuses = [] := List.filter_eq_nil_iff.mpr fun k hk => by simp [hready k hk]
  have hon : ((launchCores b).filter fun k => !s.coreRefuses k) = launchCores b :=
    List.filter_eq_self.mpr fun k hk => by simp [hready k hk]
  have hsome : (launchCores b).isEmpty = false := by
    cases he : (launchCores b).isEmpty with
    | false => rfl
    | true => simp [launchOk, he] at hok
  have hlimits : ¬(16777216 < c.fld 8 4 + 64 ∨ (!launchOk b) = true) := by simp [hok, hin]
  change execCores q idx s = _
  unfold execCores
  rw [h]
  dsimp only
  rw [hfirst, hb, hoff, hon, hsome, if_neg hlimits]
  rfl

/-! ### COPY (R326) -/

theorem State.poolTouch_of_no_hit {s : State} {a n : Nat} (h : s.poolHit a n = []) : s.poolTouch a n = s := by
  unfold State.poolTouch
  rw [h]

theorem exec_copy_ready {q : Fin 64} {idx : BitVec 32} {c : Cmd} {s : State} (h : s.cmdOf q idx 3 = some c)
    (hsip : s.sipRefuses (200 + q.val % 16) = false) (hsrc : s.training (c.fld 8 8) (c.fld 0x18 8) = false)
    (hdst : s.training (c.fld 0x10 8) (c.fld 0x18 8) = false) (hsrcPool : s.poolHit (c.fld 8 8) (c.fld 0x18 8) = [])
    (hdstPool : s.poolHit (c.fld 0x10 8) (c.fld 0x18 8) = []) : exec (.copy q idx) s =
      let x := forUpto (c.fld 0x18 8 / 4) (Copy.one (200 + q.val % 16) (c.fld 8 8) (c.fld 0x10 8)) ⟨s, 0, false, none⟩
      .next (x.s.endCmd c ((x.fault.getD .ok).max (if x.bad then .ecc else .ok)) x.done) := by
  change execCopy q idx s = _
  unfold execCopy
  rw [h]
  dsimp only
  rw [hsip, hsrc, hdst, State.poolTouch_of_no_hit hsrcPool, State.poolTouch_of_no_hit hdstPool]
  rfl

/-- Two regions between which a COPY meets nothing: both are reached, neither has a byte of the other, and memory holds no
uncorrectable unit, no clear at the source, and no reserved byte at the destination. -/
structure Copyable (s : State) (a b n : Nat) : Prop where
  clean : s.poison = []
  apart : a + n ≤ b ∨ b + n ≤ a
  src : ∀ k, k < n → s.accessFail (a + k) = none
  dst : ∀ k, k < n → s.accessFail (b + k) = none
  serves : ∀ k, k < n → s.clearing (a + k) = false
  stores : ∀ k, k < n → ¬reserved (b + k)

/-- A COPY has moved the first `i` elements, met nothing, and stored nothing else. -/
structure Copied (s : State) (a b i : Nat) (x : Copy) : Prop where
  done : x.done = 4 * i
  good : x.bad = false
  ends : x.fault = none
  only : ∃ m k, x.s = { s with mem := m, freeCtr := k }
  moved : ∀ j, j < 4 * i → x.s.byte (b + j) = s.byte (a + j)
  kept : ∀ y, y < 2 ^ 48 → (y < b ∨ b + 4 * i ≤ y) → x.s.byte y = s.byte y

theorem State.wrBad_of_clean {s : State} (hp : s.poison = []) (a n : Nat) : s.wrBad a n = false := by
  unfold State.wrBad State.poisonIn
  rw [hp]
  rfl

/-- Where memory holds no uncorrectable unit and no clear runs, an access delivers what is stored. -/
theorem State.rdBytes_of_clean {s : State} (hp : s.poison = []) {a n : Nat} (hclear : ∀ i, i < n → s.clearing (a + i) = false) :
    s.rdBytes a n = (List.range n).map fun i => s.byte (a + i) := by
  refine List.map_congr_left fun i hi => ?_
  unfold State.rd State.poisoned
  rw [hp, hclear i (List.mem_range.mp hi)]
  rfl

/-- The four bytes of an element. -/
def State.element (s : State) (a : Nat) : List Byte := (List.range 4).map fun k => s.byte (a + k)

/-- One element that both sides reach is copied. -/
theorem Copy.one_of_clean {x : Copy} {sip a b i : Nat} (hends : x.fault = none) (hgood : x.bad = false)
    (hp : x.s.poison = []) (hsrc : x.s.accessFail (a + 4 * i) = none) (hdst : x.s.accessFail (b + 4 * i) = none)
    (hclear : ∀ k, k < 4 → x.s.clearing (a + 4 * i + k) = false) :
    ∃ f, Copy.one sip a b i x =
      ⟨({ x.s with freeCtr := f } : State).putBytes (b + 4 * i) (x.s.element (a + 4 * i)), x.done + 4, false, none⟩ := by
  obtain ⟨f, hread⟩ := State.noteRead_of_clean hp (a + 4 * i) 4
  refine ⟨f, ?_⟩
  unfold Copy.one
  dsimp only
  rw [if_neg (by simp [hends]), hsrc, hdst]
  dsimp only
  rw [State.rdBad_of_clean hp, State.wrBad_of_clean hp, State.rdBytes_of_clean hp hclear, hread,
    State.wr_of_clean (s := { x.s with freeCtr := f }) hp, hgood, hends]
  rfl

/-- The next element joins those that were copied. -/
theorem Copied.one {s : State} {x : Copy} {sip a b i n : Nat} (hx : Copied s a b i x) (h : Copyable s a b n)
    (hi : 4 * i + 4 ≤ n) : Copied s a b (i + 1) (Copy.one sip a b i x) := by
  obtain ⟨hdone, hgood, hends, ⟨m, f, honly⟩, hmoved, hkept⟩ := hx
  obtain ⟨hclean, hapart, hsrc, hdst, hserves, hstores⟩ := h
  have hsrcLocal (k : Nat) (hk : k < n) : a + k < 2 ^ 48 := State.lt_of_accessFail_none (hsrc k hk)
  have hdstLocal (k : Nat) (hk : k < n) : b + k < 2 ^ 48 := State.lt_of_accessFail_none (hdst k hk)
  have hdstEnd := hdstLocal (4 * i + 3) (by omega)
  obtain ⟨g, hone⟩ := Copy.one_of_clean (sip := sip) (a := a) (b := b) (i := i) hends hgood (honly ▸ hclean)
    (honly ▸ hsrc (4 * i) (by omega)) (honly ▸ hdst (4 * i) (by omega))
    (fun k hk => honly ▸ Nat.add_assoc a _ k ▸ hserves (4 * i + k) (by omega))
  have hlen : (x.s.element (a + 4 * i)).length = 4 := rfl
  have hbeside {y : Nat} (hy : y < 2 ^ 48) (hout : y < b + 4 * i ∨ b + 4 * i + 4 ≤ y) :
      (Copy.one sip a b i x).s.byte y = x.s.byte y := by
    rw [hone]
    exact State.byte_putBytes_beside _ (by omega) hy (by omega)
  have hinside {k : Nat} (hk : k < 4) : (Copy.one sip a b i x).s.byte (b + 4 * i + k) = x.s.byte (a + 4 * i + k) := by
    have hread : (x.s.element (a + 4 * i)).getD k 0 = x.s.byte (a + 4 * i + k) := by
      simp [State.element, List.getD_eq_getElem?_getD, hk]
    rw [hone, ← hread]
    exact State.byte_putBytes_inside _ (by omega)
      (fun j hj => Nat.add_assoc b _ j ▸ hstores (4 * i + j) (by omega)) (by omega)
  refine ⟨?_, ?_, ?_, ?_, fun j hj => ?_, fun y hy hout => ?_⟩
  · rw [hone, hdone, Nat.mul_succ]
  · rw [hone]
  · rw [hone]
  · obtain ⟨m', hm'⟩ := ({ x.s with freeCtr := g } : State).putBytes_mem (b + 4 * i) (x.s.element (a + 4 * i))
    rw [hone, hm', honly]
    exact ⟨_, _, rfl⟩
  · by_cases hold : j < 4 * i
    · rw [hbeside (hdstLocal j (by omega)) (by omega), hmoved j hold]
    · obtain ⟨k, rfl⟩ := Nat.exists_eq_add_of_le (not_lt.mp hold)
      rw [← Nat.add_assoc, ← Nat.add_assoc, hinside (by omega)]
      exact hkept _ (Nat.add_assoc a _ k ▸ hsrcLocal (4 * i + k) (by omega)) (by omega)
  · rw [hbeside hy (by omega)]
    exact hkept y hy (by omega)

/-- A whole COPY. -/
theorem copied_all {s : State} {a b n : Nat} (h : Copyable s a b n) (sip : Nat) :
    Copied s a b (n / 4) (forUpto (n / 4) (Copy.one sip a b) ⟨s, 0, false, none⟩) :=
  forUpto_induction (P := Copied s a b)
    ⟨rfl, rfl, rfl, ⟨_, _, rfl⟩, fun j hj => absurd hj j.not_lt_zero, fun _ _ _ => rfl⟩
    fun i hi _ hx => hx.one h (by omega)

/-! ### The three commands -/

/-- Settles O38: PROG and CORES leave what their programs start from, and a COPY keeps `Copied` from element to element. -/
theorem workCommands : Obligations.WorkCommands := by
  intro q idx c s hpoison
  refine ⟨fun h hfirst hargs n hn hidle => ?_, fun h hfirst hnone => ?_, fun h => ?_⟩
  · obtain ⟨hof, -, hq, hidx, -, -⟩ := h
    refine ⟨_, exec_prog_idle hn hof hfirst hidle hargs, ?_⟩
    obtain ⟨hseqs, hrows⟩ := State.loadRow_cursors_spec
      ((s.onCmd c.q c.idx fun c => { c with begun := true }).onSeq (.cp n) c.program) (BitVec.ofNat 64 (c.fld 0x10 8))
      (BitVec.ofNat 64 (c.fld 0x10 8)).toNat
    rw [State.seq_of_same_seqs hseqs, State.seq_onSeq_same]
    refine ⟨rfl, rfl, rfl, c.getS_program _, fun _ => rfl, ?_, hrows, fun u hu => ?_⟩
    · rw [← hq, ← hidx]
      rfl
    · rw [State.seq_of_same_seqs hseqs]
      exact State.seq_onSeq_ne _ _ _ _ fun hnum => hu (SeqId.num_injective _ _ hnum)
  · intro b named hin hentry hlen himage hnamed hready
    have hb : s.rdBytes (sramBase + 4 * c.fld 8 4) 256 = b := rfl
    clear_value b
    obtain ⟨hcmd, hcopen⟩ := List.mem_filter.mp (open_of_claimRuns h ▸ List.mem_singleton_self c)
    obtain ⟨hof, -, hq, hidx, hfin, -⟩ := h
    have hmem (k : Nat) : k ∈ launchCores b ↔ named k := mem_launchCores
    have hlt (k : Nat) (hk : k ∈ launchCores b) : k < 800 := (mem_launchCores.mp hk).1
    have hexec := exec_cores_ready hof hfirst hin hb (launchOk_of_limits hentry hlen himage hnamed)
      fun k hk => (hready ⟨k, hlt k hk⟩ ((hmem k).mp hk)).1
    obtain ⟨honly, hkept, hruns⟩ := State.launchOn_spec (s := s.onCmd c.q c.idx (Cmd.launched b)) (by_ := .cmd c.q c.idx)
      (b := b) (step := 0) (cores := launchCores b) hnone (List.nodup_range.filter _) hlt
      fun k hk => (hready k ((hmem k.val).mp hk)).2
    refine ⟨_, hexec, fun k hk => ?_, fun k hk => hkept (.core k) fun hin => hk ((hmem k.val).mp hin), c.launched b, ?_, hq, hidx,
      rfl, hfin, fun k => ?_⟩
    · obtain ⟨r, -, hrun⟩ := hruns k ((hmem k.val).mpr hk)
      rw [hrun, ← hq, ← hidx]
      exact ⟨rfl, rfl, rfl, rfl⟩
    · rw [honly.cmds, State.cmds_onCmd]
      exact List.mem_map.mpr ⟨c, hcmd, if_pos hcopen⟩
    · rw [Cmd.left_launched]
      exact hmem k
  · intro a b n hsip hn ha hb hapart hreach hclean hsrc hdst hsrcPool hdstPool
    have hregions : Copyable s a b n := by
      refine ⟨hclean, hapart, fun k hk => ?_, fun k hk => ?_, fun k hk => ?_, fun k hk => ?_⟩
      all_goals obtain ⟨hread, hwrite, hserves, hout⟩ := hreach k hk
      · exact hread
      · exact hwrite
      · exact hserves
      · unfold reserved sramBase
        omega
    have hwhole : 4 * (n / 4) = n := by omega
    obtain ⟨hdone, hgood, hends, ⟨m, f, honly⟩, hmoved, hkept⟩ := copied_all hregions (200 + q.val % 16)
    have hcmds : (forUpto (n / 4) (Copy.one (200 + q.val % 16) a b) ⟨s, 0, false, none⟩).s.cmds = s.cmds := by rw [honly]
    refine ⟨_, exec_copy_ready h.1 hsip hsrc hdst hsrcPool hdstPool, ?_, ?_, ?_⟩
    · rw [hends, hgood]
      exact claimDone_of_claimRuns h hcmds (by rw [hdone, hwhole])
    · rw [hwhole] at hmoved
      exact hmoved
    · rw [hwhole] at hkept
      exact hkept

end Sys2Proof.Machine
end
